-- ==== Sys2Proof/Word.lean ====
section
/-! DEFINITION. The word types of the Plovdar Krovja F4: a byte, a 64-bit register, a vector register. -/

namespace Sys2Proof

/-- A byte of any memory. -/
abbrev Byte := BitVec 8

/-- A scalar register, a mask register or a control register (R16, file 01). -/
abbrev Word := BitVec 64

/-- A vector register: 64 lanes of 32 bits, lane 0 lowest (R118, file 06). -/
abbrev VReg := BitVec 2048

/-- A 384-bit long accumulator or residual (R47, file 02). -/
abbrev LongWord := BitVec 384

end Sys2Proof
end

