-- ==== Sys2Proof/Machine/Map.lean ====
section
/-! DEFINITION. Sparse maps and memories in one canonical form: keys strictly rising, no entry at the default value. -/

namespace Sys2Proof.Machine

/-- A map from numbers, total: an unlisted key has the default value that every access names. -/
abbrev Map (α : Type) := List (Nat × α)

/-- A byte memory: an unlisted address reads 0 (log 4). -/
abbrev Memory := List Host.Cell

variable {α : Type}

/-- The value at a key. -/
def mapGet (dflt : α) : Map α → Nat → α
  | [], _ => dflt
  | (k, v) :: r, i => if i = k then v else mapGet dflt r i

/-- The map with one key changed; the default value is not listed. -/
def mapPut [DecidableEq α] (dflt : α) : Map α → Nat → α → Map α
  | [], i, x => if x = dflt then [] else [(i, x)]
  | (k, v) :: r, i, x =>
    if i < k then (if x = dflt then (k, v) :: r else (i, x) :: (k, v) :: r)
    else if i = k then (if x = dflt then r else (i, x) :: r)
    else (k, v) :: mapPut dflt r i x

/-- Keys strictly above a bound and rising, and no default value listed. -/
def mapWfFrom [DecidableEq α] (dflt : α) : Option Nat → Map α → Bool
  | _, [] => true
  | lo, (k, v) :: r =>
    (match lo with
      | none => true
      | some l => decide (l < k)) && decide (v ≠ dflt) && mapWfFrom dflt (some k) r

/-- The canonical form. -/
def mapWf [DecidableEq α] (dflt : α) (m : Map α) : Bool := mapWfFrom dflt none m

/-- What an unlisted byte reads as (log 4). -/
def unwritten : Byte := 0

/-- The canonical form of a memory. -/
def Memory.wf (m : Memory) : Bool := mapWf unwritten m

/-- One byte. -/
def readByte (m : Memory) (a : Nat) : Byte := mapGet unwritten m a

def writeByte (m : Memory) (a : Nat) (b : Byte) : Memory := mapPut unwritten m a b

/-- `n` bytes from `a` up. -/
def readBytes (m : Memory) (a : Nat) : Nat → List Byte
  | 0 => []
  | n + 1 => readByte m a :: readBytes m (a + 1) n

def writeBytes (m : Memory) (a : Nat) : List Byte → Memory
  | [] => m
  | b :: r => writeBytes (writeByte m a b) (a + 1) r

end Sys2Proof.Machine
end

