-- ==== Sys2Proof/Fields.lean ====
section
/-! DEFINITION. The fields of an instruction word (R80, file 04) and the plain data that the machine's other steps carry. -/

namespace Sys2Proof

/-- What follows the first 64 bits of a word (R79): nothing, IMM32, or IMM64 (a descriptor where the major names one). -/
inductive Ext where
  | none
  | imm32 (v : BitVec 32)
  | imm64 (v : BitVec 64)
deriving DecidableEq, Repr

/-- The operand fields of a word under their names of R80. MAJ and the sub-operation are the constructor of `Instr`;
`h` and `hi` are the two upper FN bits of the memory family (R87) and are false elsewhere. -/
structure Fields where
  d     : BitVec 6 := 0
  a     : BitVec 6 := 0
  b     : BitVec 6 := 0
  c     : BitVec 6 := 0
  s     : Bool := false
  rm    : BitVec 3 := 0
  k     : BitVec 3 := 0
  kn    : Bool := false
  zm    : Bool := false
  fmt   : BitVec 5 := 0
  imm10 : BitVec 10 := 0
  h     : Bool := false
  hi    : Bool := false
  ext   : Ext := .none
deriving DecidableEq, Repr

/-- The four timeline counters (R181), numbered as SUB names them (R94). -/
inductive Counter where
  | tlc | tlm | tle | tlg
deriving DecidableEq, Repr

/-- What host port B is at boot (R331). -/
inductive PortMode where
  | off | upstream | pool
deriving DecidableEq, Repr

/-- What Crivis is asked to grant a VF (R303, R317, R340, R343). Bitmaps have one bit per resource of R303. -/
structure Grant where
  vf       : Nat
  clusters : BitVec 64
  banks    : BitVec 384
  channels : BitVec 384
  viterbi  : BitVec 64
  fabric   : BitVec 96
  /-- channels, and cache banks, placed in the shared pool (R315) -/
  pooled   : BitVec 384
  pooledBanks : BitVec 384 := 0
  /-- guaranteed minimum per shared resource: 0 to 3 the mesh planes, 4 to 7 the die boundaries, 8 the channel pool -/
  minima   : List (Nat × Nat)
  defer    : Nat
  weight   : Nat
  /-- fabric target table entries written (R340) -/
  targets  : List (Nat × Word)
  /-- replica groups written: the indices into the target table (R343) -/
  groups   : List (Nat × List Nat)
  /-- physical address of each context's descriptor (R304 does not say where the device finds it, log 12) -/
  contexts : List (Nat × Nat)
deriving DecidableEq, Repr

/-- A master that can be frozen (R353). -/
inductive Master where
  | strand (tile slot : Nat)
  | copyEngine (tile : Nat)
  | vf (n : Nat)
  | fabricPort (n : Nat)
  | mgmtCore (n : Nat)
deriving DecidableEq, Repr

/-- A commit request of the management firmware (R348). -/
inductive Commit where
  | raiseSvn (kind : Nat)
  | revoke (kind slot : Nat)
deriving DecidableEq, Repr

/-- A flit as a link port receives it (R338). -/
structure Flit where
  header  : BitVec 64
  payload : BitVec 1920
  crc     : BitVec 64
deriving DecidableEq, Repr

/-- A 64-bit word that the readback plane can read (R355): `word` and `offset` number the words of a structure (log 41). -/
inductive ReadTarget where
  | scratch (tile offset : Nat)
  | slot (tile slot offset : Nat)
  | bank (tile bank index : Nat)
  | hist (tile bank counter : Nat)
  | hbase (tile bank : Nat)
  | scalar (tile slot reg : Nat)
  | vector (tile slot reg word : Nat)
  | mask (tile slot reg : Nat)
  | window (tile slot reg : Nat)
  | longAcc (tile slot word : Nat)
  | control (tile slot number : Nat)
  | pc (tile slot : Nat)
  | device (address : Nat)
  /-- the state and flags of a strand: its timelines, spans, ports, queued copies, outstanding operations and posted stores -/
  | strand (tile slot word : Nat)
  | portBuffer (tile slot port elem word : Nat)
  /-- the state of a tile: slot owners, queues, barriers, pre-emption -/
  | tile (tile word : Nat)
  | l1 (tile index word : Nat)
  | tileTlb (tile index word : Nat)
  /-- the state of a cluster's hoist and Viterbi engine, and one of its tasks -/
  | cluster (cluster word : Nat)
  | task (cluster index word : Nat)
  | clusterTlb (cluster index word : Nat)
  | handle (cluster index word : Nat)
  /-- a line of a memory-side cache bank; a message, an acknowledgment under way; a message of a tile's spill queue -/
  | bankLine (channel index word : Nat)
  | message (index word : Nat)
  | ack (index word : Nat)
  | spilled (tile index word : Nat)
  /-- a violation record, which Crivis reads for a management core (R354) -/
  | violation (index word : Nat)
  /-- the state of a VF's configuration, registers and commands; of a launch; of a link port; of the package -/
  | vf (n word : Nat)
  | launch (key word : Nat)
  | link (port word : Nat)
  | package (word : Nat)
deriving DecidableEq, Repr

/-- What kind of word the scrubber visits (R356, R358): one of device memory, a local store, an operand slot, a bank, a register or a histogram counter, by its key;
a byte of an L1 line; an entry of a translation or handle cache; a hoist's heap or residual; an element in the buffer of an input or output port; the
security core. -/
inductive ScrubUnit where
  | word
  | l1 (tile index byte : Nat)
  | tileTlb (tile index : Nat)
  | clusterTlb (cluster index : Nat)
  | handle (cluster index : Nat)
  | hoist (cluster : Nat)
  | portElem (tile slot port index : Nat)
  | drain (tile slot index : Nat)
  | security
deriving DecidableEq, Repr

/-- What the scrubber visits, and what it finds there (R357): corrected, or uncorrectable. `word` is the key of a word, address / 8. -/
structure Scrub where
  sram          : Bool
  row           : Nat
  word          : Nat
  uncorrectable : Bool
  unit          : ScrubUnit := .word
deriving DecidableEq, Repr

/-- What the repair table can name (R359): an HBM row of a channel or an SRAM repair row of a tile; a channel; a cluster; a Ghemal Link port; a
link of the mesh. -/
inductive Failing where
  | row (sram : Bool) (place row : Nat)
  | channel (n : Nat)
  | cluster (n : Nat) (fatal : Bool)
  | link (n : Nat)
  | meshLink (n : Nat)
deriving DecidableEq, Repr

/-- What a request of another device asks for (R254, R340): a read or a write; a write that compares first (`st.rel.cmp`); an atomic as `sub`
of R94 numbers it, 9 for `at.cas2`. -/
inductive RemoteOp where
  | plain
  | compare (want : List Byte)
  | atomic (sub fmt b c : Nat)
deriving DecidableEq, Repr

/-- What a requester of the SPDM responder offers: a signature algorithm with its hash (R352). -/
inductive Algorithm where
  | ecdsaP384Sha384
  | other (n : Nat)
deriving DecidableEq, Repr

/-- What a step of another agent acts on. Each step reads the fields it needs (its definition says which). -/
structure Args where
  tile    : Nat := 0
  slot    : Nat := 0
  /-- an outstanding operation of the strand, or a stream port -/
  op      : Nat := 0
  far     : Bool := false
  cluster : Nat := 0
  message : Nat := 0
  launch  : Nat := 0
  vf      : Nat := 0
  ctx     : Nat := 0
  port    : Nat := 0
  /-- a halyard barrier: log2 sizes and id -/
  lw      : Nat := 0
  lh      : Nat := 0
  id      : Nat := 0
  die     : Nat := 0
  mhz     : Nat := 0
  /-- a register offset or an address -/
  offset  : Nat := 0
  size    : Nat := 0
  value   : Word := 0
  /-- the bytes of a write; none for a read -/
  data    : Option (List Byte) := none
  /-- a remote device refuses the request -/
  refused : Bool := false
  /-- messages that have not reached their home when it serves (R222) -/
  late    : List Nat := []
  /-- (VF, channel) pairs whose occupancy exceeds the minimum while another VF waits -/
  busy    : List (Nat × Nat) := []
  flit    : Flit := ⟨0, 0, 0⟩
  image   : List Byte := []
  nonce   : BitVec 256 := 0
  commit  : Commit := .raiseSvn 1
  grant   : Option Grant := none
  master  : Master := .vf 0
  target  : ReadTarget := .pc 0 0
  visit   : Scrub := { sram := false, row := 0, word := 0, uncorrectable := false }
  failing : Failing := .link 0
  /-- a management core asks for the retirement (R350) -/
  asked   : Bool := false
  /-- what the self test and the training of stage 1 find (R345) -/
  tests   : List Failing := []
  remote  : RemoteOp := .plain
  offered : List Algorithm := []
  /-- the mode of host port B that is set at boot (R331) -/
  portB   : PortMode := .off
  /-- port B's link comes up again (R332) -/
  up      : Bool := false
deriving DecidableEq, Repr

end Sys2Proof
end

