-- ==== Sys2Proof/Syntax.lean ====
section
/-! DEFINITION. The instruction set: one constructor per row of spec/opcode_table.json. The first 239 are the instructions a strand
issues; each carries the operand fields of its word. The other 88 are steps of the machine's other agents: they have no
encoding, and the data that says what such a step acts on is an `Args` record that the state holds while it is performed. -/

namespace Sys2Proof

inductive Instr where
  /-- `nop`, R96 -/
  | nop (f : Fields)
  /-- `add`, R102 -/
  | add (f : Fields)
  /-- `sub`, R102 -/
  | sub (f : Fields)
  /-- `mul`, R102 -/
  | mul (f : Fields)
  /-- `mulh`, R102 -/
  | mulh (f : Fields)
  /-- `div`, R103 -/
  | div (f : Fields)
  /-- `rem`, R103 -/
  | rem (f : Fields)
  /-- `min`, R102 -/
  | min (f : Fields)
  /-- `max`, R102 -/
  | max (f : Fields)
  /-- `and`, R102 -/
  | and (f : Fields)
  /-- `or`, R102 -/
  | or (f : Fields)
  /-- `xor`, R102 -/
  | xor (f : Fields)
  /-- `andn`, R102 -/
  | andn (f : Fields)
  /-- `shl`, R102 -/
  | shl (f : Fields)
  /-- `shr`, R102 -/
  | shr (f : Fields)
  /-- `rot`, R102 -/
  | rot (f : Fields)
  /-- `clz`, R104 -/
  | clz (f : Fields)
  /-- `ctz`, R104 -/
  | ctz (f : Fields)
  /-- `popc`, R104 -/
  | popc (f : Fields)
  /-- `bext`, R105 -/
  | bext (f : Fields)
  /-- `bins`, R105 -/
  | bins (f : Fields)
  /-- `sext`, R104 -/
  | sext (f : Fields)
  /-- `li`, R107 -/
  | li (f : Fields)
  /-- `lea`, R106 -/
  | lea (f : Fields)
  /-- `mov`, R107 -/
  | mov (f : Fields)
  /-- `sel`, R107 -/
  | sel (f : Fields)
  /-- `set.eq`, R108 -/
  | setEq (f : Fields)
  /-- `set.ne`, R108 -/
  | setNe (f : Fields)
  /-- `set.lt`, R108 -/
  | setLt (f : Fields)
  /-- `set.ge`, R108 -/
  | setGe (f : Fields)
  /-- `set.lo`, R108 -/
  | setLo (f : Fields)
  /-- `set.hs`, R108 -/
  | setHs (f : Fields)
  /-- `set.le`, R108 -/
  | setLe (f : Fields)
  /-- `set.gt`, R108 -/
  | setGt (f : Fields)
  /-- `set.ls`, R108 -/
  | setLs (f : Fields)
  /-- `set.hi`, R108 -/
  | setHi (f : Fields)
  /-- `kmov`, R109 -/
  | kmov (f : Fields)
  /-- `kget`, R109 -/
  | kget (f : Fields)
  /-- `kop.and`, R109 -/
  | kopAnd (f : Fields)
  /-- `kop.or`, R109 -/
  | kopOr (f : Fields)
  /-- `kop.xor`, R109 -/
  | kopXor (f : Fields)
  /-- `kop.andn`, R109 -/
  | kopAndn (f : Fields)
  /-- `kop.not`, R109 -/
  | kopNot (f : Fields)
  /-- `kpop`, R109 -/
  | kpop (f : Fields)
  /-- `kfill`, R109 -/
  | kfill (f : Fields)
  /-- `br`, R110 -/
  | br (f : Fields)
  /-- `b.eq`, R110 -/
  | bEq (f : Fields)
  /-- `b.ne`, R110 -/
  | bNe (f : Fields)
  /-- `b.lt`, R110 -/
  | bLt (f : Fields)
  /-- `b.ge`, R110 -/
  | bGe (f : Fields)
  /-- `b.lo`, R110 -/
  | bLo (f : Fields)
  /-- `b.hs`, R110 -/
  | bHs (f : Fields)
  /-- `b.le`, R110 -/
  | bLe (f : Fields)
  /-- `b.gt`, R110 -/
  | bGt (f : Fields)
  /-- `b.ls`, R110 -/
  | bLs (f : Fields)
  /-- `b.hi`, R110 -/
  | bHi (f : Fields)
  /-- `jr`, R111 -/
  | jr (f : Fields)
  /-- `call`, R110 -/
  | call (f : Fields)
  /-- `callr`, R111 -/
  | callr (f : Fields)
  /-- `ret`, R111 -/
  | ret (f : Fields)
  /-- `loop`, R110 -/
  | loop (f : Fields)
  /-- `dt.rd`, R112 -/
  | dtRd (f : Fields)
  /-- `dt.until`, R113 -/
  | dtUntil (f : Fields)
  /-- `f.add`, R114 -/
  | fAdd (f : Fields)
  /-- `f.sub`, R114 -/
  | fSub (f : Fields)
  /-- `f.mul`, R114 -/
  | fMul (f : Fields)
  /-- `f.fma`, R114 -/
  | fFma (f : Fields)
  /-- `f.div`, R114 -/
  | fDiv (f : Fields)
  /-- `f.sqrt`, R114 -/
  | fSqrt (f : Fields)
  /-- `f.cvt`, R115 -/
  | fCvt (f : Fields)
  /-- `f.cmp.eq`, R116 -/
  | fCmpEq (f : Fields)
  /-- `f.cmp.ne`, R116 -/
  | fCmpNe (f : Fields)
  /-- `f.cmp.lt`, R116 -/
  | fCmpLt (f : Fields)
  /-- `f.cmp.ge`, R116 -/
  | fCmpGe (f : Fields)
  /-- `f.cmp.le`, R116 -/
  | fCmpLe (f : Fields)
  /-- `f.cmp.gt`, R116 -/
  | fCmpGt (f : Fields)
  /-- `f.cmp.un`, R116 -/
  | fCmpUn (f : Fields)
  /-- `f.cmp.ord`, R116 -/
  | fCmpOrd (f : Fields)
  /-- `f.min`, R117 -/
  | fMin (f : Fields)
  /-- `f.max`, R117 -/
  | fMax (f : Fields)
  /-- `f.abs`, R117 -/
  | fAbs (f : Fields)
  /-- `f.neg`, R117 -/
  | fNeg (f : Fields)
  /-- `f.cvti`, R115 -/
  | fCvti (f : Fields)
  /-- `v.add`, R121 -/
  | vAdd (f : Fields)
  /-- `v.sub`, R121 -/
  | vSub (f : Fields)
  /-- `v.mul`, R121 -/
  | vMul (f : Fields)
  /-- `v.fma`, R121 -/
  | vFma (f : Fields)
  /-- `v.fms`, R121 -/
  | vFms (f : Fields)
  /-- `v.fnma`, R121 -/
  | vFnma (f : Fields)
  /-- `v.min`, R121 -/
  | vMin (f : Fields)
  /-- `v.max`, R121 -/
  | vMax (f : Fields)
  /-- `v.abs`, R122 -/
  | vAbs (f : Fields)
  /-- `v.neg`, R122 -/
  | vNeg (f : Fields)
  /-- `v.div`, R121 -/
  | vDiv (f : Fields)
  /-- `v.sqrt`, R121 -/
  | vSqrt (f : Fields)
  /-- `v.rcp`, R123 -/
  | vRcp (f : Fields)
  /-- `v.rsq`, R123 -/
  | vRsq (f : Fields)
  /-- `v.exp2`, R123 -/
  | vExp2 (f : Fields)
  /-- `v.log2`, R123 -/
  | vLog2 (f : Fields)
  /-- `v.sin`, R123 -/
  | vSin (f : Fields)
  /-- `v.cos`, R123 -/
  | vCos (f : Fields)
  /-- `v.tanh`, R123 -/
  | vTanh (f : Fields)
  /-- `v.sig`, R123 -/
  | vSig (f : Fields)
  /-- `v.cvt`, R125 -/
  | vCvt (f : Fields)
  /-- `v.cvti`, R125 -/
  | vCvti (f : Fields)
  /-- `v.cmp.eq`, R124 -/
  | vCmpEq (f : Fields)
  /-- `v.cmp.ne`, R124 -/
  | vCmpNe (f : Fields)
  /-- `v.cmp.lt`, R124 -/
  | vCmpLt (f : Fields)
  /-- `v.cmp.ge`, R124 -/
  | vCmpGe (f : Fields)
  /-- `v.cmp.lo`, R124 -/
  | vCmpLo (f : Fields)
  /-- `v.cmp.hs`, R124 -/
  | vCmpHs (f : Fields)
  /-- `v.cmp.le`, R124 -/
  | vCmpLe (f : Fields)
  /-- `v.cmp.gt`, R124 -/
  | vCmpGt (f : Fields)
  /-- `v.cmp.ls`, R124 -/
  | vCmpLs (f : Fields)
  /-- `v.cmp.hi`, R124 -/
  | vCmpHi (f : Fields)
  /-- `v.cmp.un`, R124 -/
  | vCmpUn (f : Fields)
  /-- `v.cmp.ord`, R124 -/
  | vCmpOrd (f : Fields)
  /-- `v.sel`, R124 -/
  | vSel (f : Fields)
  /-- `v.and`, R124 -/
  | vAnd (f : Fields)
  /-- `v.or`, R124 -/
  | vOr (f : Fields)
  /-- `v.xor`, R124 -/
  | vXor (f : Fields)
  /-- `v.andn`, R124 -/
  | vAndn (f : Fields)
  /-- `v.shl`, R124 -/
  | vShl (f : Fields)
  /-- `v.shr`, R124 -/
  | vShr (f : Fields)
  /-- `v.rot`, R124 -/
  | vRot (f : Fields)
  /-- `v.clz`, R124 -/
  | vClz (f : Fields)
  /-- `v.dot4`, R126 -/
  | vDot4 (f : Fields)
  /-- `v.dot8`, R126 -/
  | vDot8 (f : Fields)
  /-- `v.red.add`, R128 -/
  | vRedAdd (f : Fields)
  /-- `v.red.min`, R128 -/
  | vRedMin (f : Fields)
  /-- `v.red.max`, R128 -/
  | vRedMax (f : Fields)
  /-- `v.red.and`, R128 -/
  | vRedAnd (f : Fields)
  /-- `v.red.or`, R128 -/
  | vRedOr (f : Fields)
  /-- `v.red.xor`, R128 -/
  | vRedXor (f : Fields)
  /-- `v.scan.add`, R129 -/
  | vScanAdd (f : Fields)
  /-- `v.scan.min`, R129 -/
  | vScanMin (f : Fields)
  /-- `v.scan.max`, R129 -/
  | vScanMax (f : Fields)
  /-- `v.scan.xadd`, R129 -/
  | vScanXadd (f : Fields)
  /-- `v.scan.xmin`, R129 -/
  | vScanXmin (f : Fields)
  /-- `v.scan.xmax`, R129 -/
  | vScanXmax (f : Fields)
  /-- `v.perm`, R130 -/
  | vPerm (f : Fields)
  /-- `v.bcast`, R130 -/
  | vBcast (f : Fields)
  /-- `v.splat`, R130 -/
  | vSplat (f : Fields)
  /-- `v.ext`, R130 -/
  | vExt (f : Fields)
  /-- `v.ins`, R130 -/
  | vIns (f : Fields)
  /-- `v.iota`, R130 -/
  | vIota (f : Fields)
  /-- `v.mov`, R130 -/
  | vMov (f : Fields)
  /-- `v.cpr`, R130 -/
  | vCpr (f : Fields)
  /-- `v.expd`, R130 -/
  | vExpd (f : Fields)
  /-- `v.hist`, R131 -/
  | vHist (f : Fields)
  /-- `v.hist.get`, R131 -/
  | vHistGet (f : Fields)
  /-- `v.accept`, R132 -/
  | vAccept (f : Fields)
  /-- `v.draw`, R133 -/
  | vDraw (f : Fields)
  /-- `la.add`, R134 -/
  | laAdd (f : Fields)
  /-- `la.norm`, R134 -/
  | laNorm (f : Fields)
  /-- `la.rd`, R134 -/
  | laRd (f : Fields)
  /-- `la.clr`, R134 -/
  | laClr (f : Fields)
  /-- `la.getw`, R134 -/
  | laGetw (f : Fields)
  /-- `la.setw`, R134 -/
  | laSetw (f : Fields)
  /-- `v.hint.n`, R97 -/
  | vHint (n : BitVec 4) (f : Fields)
  /-- `o.claim`, R136 -/
  | oClaim (f : Fields)
  /-- `o.rel`, R136 -/
  | oRel (f : Fields)
  /-- `o.tst`, R136 -/
  | oTst (f : Fields)
  /-- `m.mma`, R143 -/
  | mMma (f : Fields)
  /-- `m.mms`, R143 -/
  | mMms (f : Fields)
  /-- `m.mmt`, R143 -/
  | mMmt (f : Fields)
  /-- `m.cmp`, R144 -/
  | mCmp (f : Fields)
  /-- `m.zero`, R145 -/
  | mZero (f : Fields)
  /-- `m.rd`, R145 -/
  | mRd (f : Fields)
  /-- `m.wr`, R145 -/
  | mWr (f : Fields)
  /-- `w.set`, R146 -/
  | wSet (f : Fields)
  /-- `w.step`, R146 -/
  | wStep (f : Fields)
  /-- `w.val`, R146 -/
  | wVal (f : Fields)
  /-- `v.tdec`, R147 -/
  | vTdec (f : Fields)
  /-- `t.enc`, R148 -/
  | tEnc (f : Fields)
  /-- `ld`, R157 -/
  | ld (f : Fields)
  /-- `st`, R157 -/
  | st (f : Fields)
  /-- `v.ld`, R158 -/
  | vLd (f : Fields)
  /-- `v.st`, R158 -/
  | vSt (f : Fields)
  /-- `v.gat`, R159 -/
  | vGat (f : Fields)
  /-- `v.sct`, R159 -/
  | vSct (f : Fields)
  /-- `ld.acq`, R161 -/
  | ldAcq (f : Fields)
  /-- `st.rel`, R162 -/
  | stRel (f : Fields)
  /-- `st.rel.cmp`, R162 -/
  | stRelCmp (f : Fields)
  /-- `at.add`, R168 -/
  | atAdd (f : Fields)
  /-- `at.and`, R168 -/
  | atAnd (f : Fields)
  /-- `at.or`, R168 -/
  | atOr (f : Fields)
  /-- `at.xor`, R168 -/
  | atXor (f : Fields)
  /-- `at.min`, R168 -/
  | atMin (f : Fields)
  /-- `at.max`, R168 -/
  | atMax (f : Fields)
  /-- `at.swp`, R168 -/
  | atSwp (f : Fields)
  /-- `at.cas`, R168 -/
  | atCas (f : Fields)
  /-- `at.fadd`, R169 -/
  | atFadd (f : Fields)
  /-- `at.cas2`, R170 -/
  | atCas2 (f : Fields)
  /-- `cp`, R171 -/
  | cp (f : Fields)
  /-- `q.open`, R177 -/
  | qOpen (f : Fields)
  /-- `q.close`, R179 -/
  | qClose (f : Fields)
  /-- `q.flush`, R179 -/
  | qFlush (f : Fields)
  /-- `l1.wb`, R165 -/
  | l1Wb (f : Fields)
  /-- `l1.inv`, R165 -/
  | l1Inv (f : Fields)
  /-- `l1.wbi`, R165 -/
  | l1Wbi (f : Fields)
  /-- `l1.wba`, R165 -/
  | l1Wba (f : Fields)
  /-- `l1.inva`, R165 -/
  | l1Inva (f : Fields)
  /-- `l1.wbia`, R165 -/
  | l1Wbia (f : Fields)
  /-- `tl.rd`, R181 -/
  | tlRd (t : Counter) (f : Fields)
  /-- `tl.wait`, R182 -/
  | tlWait (t : Counter) (f : Fields)
  /-- `tl.test`, R183 -/
  | tlTest (t : Counter) (f : Fields)
  /-- `fork`, R187 -/
  | fork (f : Fields)
  /-- `spawn`, R188 -/
  | spawn (f : Fields)
  /-- `halt`, R190 -/
  | halt (f : Fields)
  /-- `tk.wait`, R191 -/
  | tkWait (f : Fields)
  /-- `tk.push`, R192 -/
  | tkPush (f : Fields)
  /-- `tk.done`, R193 -/
  | tkDone (f : Fields)
  /-- `tk.batch`, R194 -/
  | tkBatch (f : Fields)
  /-- `gain.add`, R195 -/
  | gainAdd (f : Fields)
  /-- `gain.max`, R195 -/
  | gainMax (f : Fields)
  /-- `gain.set`, R195 -/
  | gainSet (f : Fields)
  /-- `dep.dec`, R196 -/
  | depDec (f : Fields)
  /-- `hy.arrive`, R201 -/
  | hyArrive (f : Fields)
  /-- `hy.wait`, R201 -/
  | hyWait (f : Fields)
  /-- `hy.try`, R201 -/
  | hyTry (f : Fields)
  /-- `fence.tile`, R202 -/
  | fenceTile (f : Fields)
  /-- `fence.clu`, R202 -/
  | fenceClu (f : Fields)
  /-- `fence.die`, R202 -/
  | fenceDie (f : Fields)
  /-- `fence.dev`, R202 -/
  | fenceDev (f : Fields)
  /-- `fence.sys`, R202 -/
  | fenceSys (f : Fields)
  /-- `span.open`, R203 -/
  | spanOpen (f : Fields)
  /-- `span.close`, R227 -/
  | spanClose (f : Fields)
  /-- `ln.go`, R199 -/
  | lnGo (f : Fields)
  /-- `trap`, R208 -/
  | trap (f : Fields)
  /-- `eret`, R208 -/
  | eret (f : Fields)
  /-- `sys.call`, R322 -/
  | sysCallEcho (f : Fields)
  /-- `sys.call`, R322 -/
  | sysCallTablegen (f : Fields)
  /-- `sys.call`, R322 -/
  | sysCallPost (f : Fields)
  /-- `sys.call`, R322 -/
  | sysCallDefer (f : Fields)
  /-- `sys.call`, R322 -/
  | sysCallOwned (f : Fields)
  /-- `sys.call`, R209 -/
  | sysCallUnassigned (f : Fields)
  /-- `ctl.rd`, R210 -/
  | ctlRd (f : Fields)
  /-- `ctl.wr`, R210 -/
  | ctlWr (f : Fields)
  /-- ARRAY_OPERATION_COMPLETE, R138 -/
  | arrayOperationComplete
  /-- VITERBI_BLOCK_START, R149 -/
  | viterbiBlockStart
  /-- VITERBI_BLOCK_COMPLETE, R149 -/
  | viterbiBlockComplete
  /-- COPY_ELEMENT, R174 -/
  | copyElement
  /-- COPY_COMPLETE, R174 -/
  | copyComplete
  /-- PORT_REFILL_ELEMENT, R178 -/
  | portRefillElement
  /-- PORT_DRAIN_ELEMENT, R178 -/
  | portDrainElement
  /-- HOME_REQUEST_SERVICE, R241 -/
  | homeRequestService
  /-- STORE_ACKNOWLEDGMENT, R163 -/
  | storeAcknowledgment
  /-- ATOMIC_ACKNOWLEDGMENT, R167 -/
  | atomicAcknowledgment
  /-- LONG_RESULT_WRITE, R21 -/
  | longResultWrite
  /-- WALK_COMPLETE, R310 -/
  | walkComplete
  /-- SPAWN_ARRIVAL, R188 -/
  | spawnArrival
  /-- ANSWER_RETURN, R186 -/
  | answerReturn
  /-- TASK_PUSH_ARRIVAL, R192 -/
  | taskPushArrival
  /-- TASK_END_ARRIVAL, R284 -/
  | taskEndArrival
  /-- GAIN_UPDATE_ARRIVAL, R285 -/
  | gainUpdateArrival
  /-- DEP_DEC_ARRIVAL, R196 -/
  | depDecArrival
  /-- HY_WAIT_TIMEOUT, R201 -/
  | hyWaitTimeout
  /-- HALYARD_PHASE_COMPLETE, R201 -/
  | halyardPhaseComplete
  /-- SPAN_OVERRUN, R229 -/
  | spanOverrun
  /-- SPAN_ESCALATION, R230 -/
  | spanEscalation
  /-- SPAN_HANDLER_PARK, R231 -/
  | spanHandlerPark
  /-- SPAN_BROKEN, R234 -/
  | spanBroken
  /-- LN_GO_ARRIVAL, R199 -/
  | lnGoArrival
  /-- TASK_DISPATCH, R286 -/
  | taskDispatch
  /-- HEAP_LEVEL_MOVE, R282 -/
  | heapLevelMove
  /-- KEY_PUBLICATION, R287 -/
  | keyPublication
  /-- STEAL_REQUEST, R288 -/
  | stealRequest
  /-- STEAL_REQUEST_ARRIVAL, R288 -/
  | stealRequestArrival
  /-- STOLEN_RECORD_ARRIVAL, R288 -/
  | stolenRecordArrival
  /-- STEAL_ACKNOWLEDGMENT, R289 -/
  | stealAcknowledgment
  /-- STEAL_REFUSAL, R289 -/
  | stealRefusal
  /-- RSD_SNAPSHOT, R291 -/
  | rsdSnapshot
  /-- RSD_COMBINE, R292 -/
  | rsdCombine
  /-- TERMINATION_DRAIN, R292 -/
  | terminationDrain
  /-- FIELD_STALL, R224 -/
  | fieldStall
  /-- LAUNCH_QUEUE_SERVICE, R316 -/
  | launchQueueService
  /-- LAUNCH_START, R214 -/
  | launchStart
  /-- LAUNCH_END, R219 -/
  | launchEnd
  /-- PREEMPT, R337 -/
  | preempt
  /-- PREEMPTION_DEFERRAL_EXPIRY, R233 -/
  | preemptionDeferralExpiry
  /-- TILE_SAVE, R323 -/
  | tileSave
  /-- RESTORE, R325 -/
  | restore
  /-- HANDLE_INVALIDATION, R306 -/
  | handleInvalidation
  /-- TRANSLATION_INVALIDATION, R312 -/
  | translationInvalidation
  /-- RESUME, R337 -/
  | resume
  /-- REFUSE, R337 -/
  | refuse
  /-- COMMAND_COMPLETE, R337 -/
  | commandComplete
  /-- LQTAIL_WRITE, R335 -/
  | lqtailWrite
  /-- BAR0_REGISTER_WRITE, R333 -/
  | bar0RegisterWrite
  /-- BAR2_ACCESS, R333 -/
  | bar2Access
  /-- VF_RESET, R326 -/
  | vfReset
  /-- VF_RESET_DRAIN_EXPIRY, R326 -/
  | vfResetDrainExpiry
  /-- VF_RESET_COMPLETE, R326 -/
  | vfResetComplete
  /-- SOFT_THROTTLE_REQUEST, R27 -/
  | softThrottleRequest
  /-- THROTTLE_STEP, R27 -/
  | throttleStep
  /-- HARD_THROTTLE, R27 -/
  | hardThrottle
  /-- CRITICAL_TEMPERATURE, R27 -/
  | criticalTemperature
  /-- POOL_OCCUPANCY_PUBLICATION, R317 -/
  | poolOccupancyPublication
  /-- FLIT_RECEIVE, R338 -/
  | flitReceive
  /-- FABRIC_PORT_DOWN, R339 -/
  | fabricPortDown
  /-- FABRIC_PORT_RETRAIN, R353 -/
  | fabricPortRetrain
  /-- FABRIC_REQUEST_ARRIVAL, R340 -/
  | fabricRequestArrival
  /-- POOL_LINK_DOWN, R332 -/
  | poolLinkDown
  /-- POWER_ON_RESET, R345 -/
  | powerOnReset
  /-- MANAGEMENT_FIRMWARE_RETRY, R349 -/
  | managementFirmwareRetry
  /-- ROM_RECOVERY_LOAD, R349 -/
  | romRecoveryLoad
  /-- FUSE_COMMIT, R348 -/
  | fuseCommit
  /-- PARTITION_REQUEST, R303 -/
  | partitionRequest
  /-- UNFREEZE_REQUEST, R353 -/
  | unfreezeRequest
  /-- MANAGEMENT_WINDOW_VIOLATION, R350 -/
  | managementWindowViolation
  /-- GET_VERSION, R352 -/
  | getVersion
  /-- GET_CAPABILITIES, R352 -/
  | getCapabilities
  /-- NEGOTIATE_ALGORITHMS, R352 -/
  | negotiateAlgorithms
  /-- GET_DIGESTS, R352 -/
  | getDigests
  /-- GET_CERTIFICATE, R352 -/
  | getCertificate
  /-- CHALLENGE, R352 -/
  | challenge
  /-- GET_MEASUREMENTS, R352 -/
  | getMeasurements
  /-- SPDM_UNSUPPORTED_REQUEST, R352 -/
  | spdmUnsupportedRequest
  /-- READBACK, R355 -/
  | readback
  /-- PATROL_SCRUB, R357 -/
  | patrolScrub
  /-- ERROR_THRESHOLD, R360 -/
  | errorThreshold
  /-- ILLEGAL_INSTRUCTION, R90 -/
  | illegalInstruction
  /-- OVERLAY_FETCH, R98 -/
  | overlayFetch
  /-- TASK_MESSAGE_ACKNOWLEDGMENT, R197 -/
  | taskMessageAcknowledgment
  /-- STEAL_NONE_ANSWER, R288 -/
  | stealNoneAnswer
  /-- COMMAND_UNDEFINED_OP, R337 -/
  | commandUndefinedOp
deriving DecidableEq, Repr

end Sys2Proof
end

