-- ==== Sys2Proof/WellFormed.lean ====
section
/-! DEFINITION. Which operand fields each instruction uses (tables R92, R101, R120, R142, R156, R185) and the checks of R98:
lengths and function codes (step 4), field values (step 5), formats (step 6). -/

namespace Sys2Proof

/-- The kind of register a field names (R82). `unused` must be zero; `any` is a field that is ignored (R97). -/
inductive Kind where
  | unused | x | xPair | v | vPort | k | w | slot | bank | hist | port | any
deriving DecidableEq, Repr

/-- Which lengths a major admits (R92). -/
inductive Lengths where
  | l64 | l64_96 | l96_128 | l128 | all
deriving DecidableEq, Repr

/-- The use of RM: unused, a rounding mode always, a rounding mode for floating FMT codes only, a scope (R40, R156). -/
inductive RmUse where
  | unused | rounds | roundsFloat | scope | any
deriving DecidableEq, Repr

/-- The use of S: unused, free, fixed by the constructor, or free for integer formats only. -/
inductive SUse where
  | unused | free | fixed (v : Bool) | freeInt | any
deriving DecidableEq, Repr

/-- The use of K, KN and ZM (R83, R120). -/
inductive MaskUse where
  | unused | select | full | any
deriving DecidableEq, Repr

/-- The use of the immediates (R84): none; IMM10 alone; one immediate that the length selects; a memory operand (R87);
IMM32 or IMM64 of `li`; a descriptor. -/
inductive ImmUse where
  | unused | ten | single | memory | wide | descriptor | any
deriving DecidableEq, Repr

/-- One row of the encoding tables. `mem` marks the memory family, whose FN holds H, HI and SUB (R87); `fn` is then SUB.
`fmt` lists the admitted format codes, `none` where FMT is unused. -/
structure Shape where
  maj  : Nat
  fn   : Nat := 0
  mem  : Bool := false
  len  : Lengths := .l64
  d    : Kind := .unused
  a    : Kind := .unused
  b    : Kind := .unused
  c    : Kind := .unused
  rm   : RmUse := .unused
  s    : SUse := .unused
  mask : MaskUse := .unused
  fmt  : Option (List Nat) := none
  imm  : ImmUse := .unused
deriving DecidableEq, Repr

/-- Format code sets, by their FMT codes (R31, R33, R56). -/
def fmtScalarInt : List Nat := [4, 5, 6, 7]
def fmtScalarFloat : List Nat := [10, 11, 12, 16]
def fmtVecFloat : List Nat := [10, 11, 12]
def fmtVecInt : List Nat := [2, 3, 4, 5]
def fmtVec : List Nat := [2, 3, 4, 5, 10, 11, 12]
def fmtLoad : List Nat := [0, 1, 2, 3, 4, 5, 6, 7, 10, 11, 12, 16]

/-- The r/i scalar instructions on a width (R99, R102): D, A, B and an immediate. -/
def shapeRi (maj : Nat) (s : SUse) : Shape :=
  { maj := maj, len := .all, d := .x, a := .x, b := .x, s := s, fmt := some fmtScalarInt, imm := .single }

def shapeSet (fn : Nat) : Shape := { maj := 0x1A, fn := fn, len := .all, d := .x, a := .x, b := .x, imm := .single }
def shapeBranch (fn : Nat) : Shape := { maj := 0x21, fn := fn, len := .l64_96, a := .x, b := .x, imm := .single }
def shapeKop (fn : Nat) (b : Kind) : Shape := { maj := 0x1D, fn := fn, d := .k, a := .k, b := b }
def shapeFloat2 (maj : Nat) : Shape :=
  { maj := maj, d := .x, a := .x, b := .x, rm := .rounds, s := .free, fmt := some fmtScalarFloat }
def shapeFcmp (fn : Nat) : Shape := { maj := 0x37, fn := fn, d := .x, a := .x, b := .x, fmt := some fmtScalarFloat }

/-- Elementwise vector arithmetic on F and I (R120): RM rounds in the floating forms only. -/
def shapeVec2 (maj : Nat) : Shape :=
  { maj := maj, d := .vPort, a := .vPort, b := .vPort, rm := .roundsFloat, s := .free, mask := .full, fmt := some fmtVec }
def shapeVec3 (maj : Nat) : Shape :=
  { maj := maj, d := .vPort, a := .vPort, b := .vPort, c := .vPort, rm := .rounds, s := .free, mask := .full, fmt := some fmtVecFloat }
def shapeVecMinMax (maj : Nat) : Shape :=
  { maj := maj, d := .vPort, a := .vPort, b := .vPort, mask := .full, fmt := some fmtVec }
def shapeVecAbsNeg (maj : Nat) : Shape :=
  { maj := maj, d := .vPort, a := .vPort, s := .freeInt, mask := .full, fmt := some fmtVec }
/-- Long-class vector functions: the destination is never a port (R119). -/
def shapeVecFn (maj : Nat) : Shape :=
  { maj := maj, d := .v, a := .vPort, rm := .rounds, s := .free, mask := .full, fmt := some fmtVecFloat }
def shapeVcmp (fn : Nat) : Shape := { maj := 0x56, fn := fn, d := .k, a := .vPort, b := .vPort, fmt := some [4, 5, 10] }
def shapeVlogic (maj : Nat) : Shape := { maj := maj, d := .vPort, a := .vPort, b := .vPort, mask := .full }
def shapeVshift (maj : Nat) (s : SUse) : Shape :=
  { maj := maj, d := .vPort, a := .vPort, b := .vPort, s := s, mask := .full, fmt := some fmtVecInt }
def shapeVdot (maj : Nat) (fmt : List Nat) : Shape :=
  { maj := maj, d := .vPort, a := .vPort, b := .vPort, c := .vPort, s := .free, mask := .full, fmt := some fmt, imm := .ten }
def shapeVred (fn : Nat) (rm : RmUse) (s : SUse) (fmt : List Nat) : Shape :=
  { maj := 0x62, fn := fn, d := .vPort, a := .vPort, rm := rm, s := s, mask := .select, fmt := some fmt }
/-- S is admitted in every scan and format (R120, R129); where nothing rounds or saturates it has no effect (log 17). -/
def shapeVscan (fn : Nat) (rm : RmUse) : Shape :=
  { maj := 0x63, fn := fn, d := .vPort, a := .vPort, rm := rm, s := .free, mask := .full, fmt := some fmtVec }
def shapeAtomic (sub : Nat) (c : Kind) (fmt : List Nat) : Shape :=
  { maj := 0xA8, fn := sub, mem := true, len := .all, d := .x, a := .x, b := .x, c := c, fmt := some fmt, imm := .memory }
def shapeL1Line (sub : Nat) : Shape := { maj := 0xB0, fn := sub, mem := true, a := .x, b := .x, c := .x, imm := .memory }
def shapeL1All (sub : Nat) : Shape := { maj := 0xB0, fn := sub, mem := true }
def shapeMatrix (maj : Nat) (rm : RmUse) (fmt : List Nat) : Shape :=
  { maj := maj, len := .l128, rm := rm, s := .free, fmt := some fmt, imm := .descriptor }
def shapeGain (fn : Nat) (rm : RmUse) : Shape := { maj := 0xD7, fn := fn, a := .x, b := .x, rm := rm }
def shapeSysCall : Shape := { maj := 0xF1, d := .x, a := .x, imm := .ten }

/-- SUB of a timeline instruction (R94). -/
def Counter.sub : Counter → Nat
  | .tlc => 0 | .tlm => 1 | .tle => 2 | .tlg => 3

/-- The row of the encoding tables for each instruction a strand issues; `none` for the other steps of the machine. -/
def Instr.shape : Instr → Option Shape
  | .nop _ => some { maj := 0x00, len := .all, imm := .single }
  | .add _ => some (shapeRi 0x01 .free)
  | .sub _ => some (shapeRi 0x02 .free)
  | .mul _ => some (shapeRi 0x03 .free)
  | .mulh _ => some (shapeRi 0x04 .unused)
  | .div _ => some (shapeRi 0x05 .free)
  | .rem _ => some (shapeRi 0x06 .unused)
  | .min _ => some (shapeRi 0x07 .unused)
  | .max _ => some (shapeRi 0x08 .unused)
  | .and _ => some (shapeRi 0x09 .unused)
  | .or _ => some (shapeRi 0x0A .unused)
  | .xor _ => some (shapeRi 0x0B .unused)
  | .andn _ => some (shapeRi 0x0C .unused)
  | .shl _ => some (shapeRi 0x0D .free)
  | .shr _ => some (shapeRi 0x0E .unused)
  | .rot _ => some (shapeRi 0x0F .unused)
  | .clz _ => some { shapeRi 0x10 .unused with a := .unused }
  | .ctz _ => some { shapeRi 0x11 .unused with a := .unused }
  | .popc _ => some { shapeRi 0x12 .unused with a := .unused }
  | .bext _ => some { shapeRi 0x13 .free with fmt := none }
  | .bins _ => some { shapeRi 0x14 .unused with fmt := none }
  | .sext _ => some { shapeRi 0x15 .unused with a := .unused, fmt := some [0, 1, 2, 3, 4, 5, 6, 7, 8, 9] }
  | .li _ => some { maj := 0x16, len := .l96_128, d := .x, imm := .wide }
  | .lea _ => some { shapeRi 0x17 .unused with fmt := none }
  | .mov _ => some { maj := 0x18, d := .x, a := .x }
  | .sel _ => some { maj := 0x19, d := .x, a := .x, b := .x, c := .x }
  | .setEq _ => some (shapeSet 0)
  | .setNe _ => some (shapeSet 1)
  | .setLt _ => some (shapeSet 2)
  | .setGe _ => some (shapeSet 3)
  | .setLo _ => some (shapeSet 4)
  | .setHs _ => some (shapeSet 5)
  | .setLe _ => some (shapeSet 6)
  | .setGt _ => some (shapeSet 7)
  | .setLs _ => some (shapeSet 8)
  | .setHi _ => some (shapeSet 9)
  | .kmov _ => some { maj := 0x1B, d := .k, a := .x }
  | .kget _ => some { maj := 0x1C, d := .x, a := .k }
  | .kopAnd _ => some (shapeKop 0 .k)
  | .kopOr _ => some (shapeKop 1 .k)
  | .kopXor _ => some (shapeKop 2 .k)
  | .kopAndn _ => some (shapeKop 3 .k)
  | .kopNot _ => some (shapeKop 4 .unused)
  | .kpop _ => some { maj := 0x1E, d := .x, a := .k }
  | .kfill _ => some { maj := 0x1F, d := .k, a := .x }
  | .br _ => some { maj := 0x20, len := .l64_96, imm := .single }
  | .bEq _ => some (shapeBranch 0)
  | .bNe _ => some (shapeBranch 1)
  | .bLt _ => some (shapeBranch 2)
  | .bGe _ => some (shapeBranch 3)
  | .bLo _ => some (shapeBranch 4)
  | .bHs _ => some (shapeBranch 5)
  | .bLe _ => some (shapeBranch 6)
  | .bGt _ => some (shapeBranch 7)
  | .bLs _ => some (shapeBranch 8)
  | .bHi _ => some (shapeBranch 9)
  | .jr _ => some { maj := 0x22, a := .x }
  | .call _ => some { maj := 0x23, len := .l64_96, d := .x, imm := .single }
  | .callr _ => some { maj := 0x24, d := .x, a := .x }
  | .ret _ => some { maj := 0x25, a := .x }
  | .loop _ => some { maj := 0x26, len := .l64_96, d := .x, imm := .single }
  | .dtRd _ => some { maj := 0x28, d := .x }
  | .dtUntil _ => some { maj := 0x29, d := .x, a := .x }
  | .fAdd _ => some (shapeFloat2 0x30)
  | .fSub _ => some (shapeFloat2 0x31)
  | .fMul _ => some (shapeFloat2 0x32)
  | .fFma _ => some { shapeFloat2 0x33 with c := .x }
  | .fDiv _ => some (shapeFloat2 0x34)
  | .fSqrt _ => some { shapeFloat2 0x35 with b := .unused, s := .unused }
  | .fCvt _ => some { maj := 0x36, d := .x, a := .x, rm := .rounds, s := .free, fmt := some [4, 5, 6, 7, 10, 11, 12, 13, 14, 16], imm := .ten }
  | .fCmpEq _ => some (shapeFcmp 0)
  | .fCmpNe _ => some (shapeFcmp 1)
  | .fCmpLt _ => some (shapeFcmp 2)
  | .fCmpGe _ => some (shapeFcmp 3)
  | .fCmpLe _ => some (shapeFcmp 6)
  | .fCmpGt _ => some (shapeFcmp 7)
  | .fCmpUn _ => some (shapeFcmp 10)
  | .fCmpOrd _ => some (shapeFcmp 11)
  | .fMin _ => some { maj := 0x38, d := .x, a := .x, b := .x, fmt := some fmtScalarFloat }
  | .fMax _ => some { maj := 0x39, d := .x, a := .x, b := .x, fmt := some fmtScalarFloat }
  | .fAbs _ => some { maj := 0x3A, d := .x, a := .x, fmt := some fmtScalarFloat }
  | .fNeg _ => some { maj := 0x3B, d := .x, a := .x, fmt := some fmtScalarFloat }
  | .fCvti _ => some { maj := 0x3C, d := .x, a := .x, rm := .rounds, fmt := some [10, 11, 12, 13, 14, 16], imm := .ten }
  | .vAdd _ => some (shapeVec2 0x40)
  | .vSub _ => some (shapeVec2 0x41)
  | .vMul _ => some (shapeVec2 0x42)
  | .vFma _ => some (shapeVec3 0x43)
  | .vFms _ => some (shapeVec3 0x44)
  | .vFnma _ => some (shapeVec3 0x45)
  | .vMin _ => some (shapeVecMinMax 0x46)
  | .vMax _ => some (shapeVecMinMax 0x47)
  | .vAbs _ => some (shapeVecAbsNeg 0x48)
  | .vNeg _ => some (shapeVecAbsNeg 0x49)
  | .vDiv _ => some { shapeVecFn 0x4A with b := .vPort }
  | .vSqrt _ => some { shapeVecFn 0x4B with s := .unused }
  | .vRcp _ => some (shapeVecFn 0x4C)
  | .vRsq _ => some (shapeVecFn 0x4D)
  | .vExp2 _ => some (shapeVecFn 0x4E)
  | .vLog2 _ => some (shapeVecFn 0x4F)
  | .vSin _ => some (shapeVecFn 0x50)
  | .vCos _ => some (shapeVecFn 0x51)
  | .vTanh _ => some (shapeVecFn 0x52)
  | .vSig _ => some (shapeVecFn 0x53)
  | .vCvt _ => some { maj := 0x54, d := .vPort, a := .vPort, rm := .rounds, s := .free, mask := .full, fmt := some [0, 1, 2, 3, 4, 5, 8, 9, 10, 11, 12, 13, 14, 15], imm := .ten }
  | .vCvti _ => some { maj := 0x55, d := .vPort, a := .vPort, rm := .roundsFloat, mask := .full, fmt := some [0, 1, 2, 3, 4, 5, 8, 9, 10, 11, 12, 13, 14], imm := .ten }
  | .vCmpEq _ => some (shapeVcmp 0)
  | .vCmpNe _ => some (shapeVcmp 1)
  | .vCmpLt _ => some (shapeVcmp 2)
  | .vCmpGe _ => some (shapeVcmp 3)
  | .vCmpLo _ => some (shapeVcmp 4)
  | .vCmpHs _ => some (shapeVcmp 5)
  | .vCmpLe _ => some (shapeVcmp 6)
  | .vCmpGt _ => some (shapeVcmp 7)
  | .vCmpLs _ => some (shapeVcmp 8)
  | .vCmpHi _ => some (shapeVcmp 9)
  | .vCmpUn _ => some (shapeVcmp 10)
  | .vCmpOrd _ => some (shapeVcmp 11)
  | .vSel _ => some { maj := 0x57, d := .vPort, a := .vPort, b := .vPort, mask := .select }
  | .vAnd _ => some (shapeVlogic 0x58)
  | .vOr _ => some (shapeVlogic 0x59)
  | .vXor _ => some (shapeVlogic 0x5A)
  | .vAndn _ => some (shapeVlogic 0x5B)
  | .vShl _ => some (shapeVshift 0x5C .free)
  | .vShr _ => some (shapeVshift 0x5D .unused)
  | .vRot _ => some (shapeVshift 0x5E .unused)
  | .vClz _ => some { shapeVshift 0x5F .unused with b := .unused }
  | .vDot4 _ => some (shapeVdot 0x60 [0, 1])
  | .vDot8 _ => some (shapeVdot 0x61 [8, 9])
  | .vRedAdd _ => some (shapeVred 0 .roundsFloat .freeInt fmtVec)
  | .vRedMin _ => some (shapeVred 1 .unused .unused fmtVec)
  | .vRedMax _ => some (shapeVred 2 .unused .unused fmtVec)
  | .vRedAnd _ => some (shapeVred 3 .unused .unused fmtVecInt)
  | .vRedOr _ => some (shapeVred 4 .unused .unused fmtVecInt)
  | .vRedXor _ => some (shapeVred 5 .unused .unused fmtVecInt)
  | .vScanAdd _ => some (shapeVscan 0 .roundsFloat)
  | .vScanMin _ => some (shapeVscan 1 .unused)
  | .vScanMax _ => some (shapeVscan 2 .unused)
  | .vScanXadd _ => some (shapeVscan 8 .roundsFloat)
  | .vScanXmin _ => some (shapeVscan 9 .unused)
  | .vScanXmax _ => some (shapeVscan 10 .unused)
  | .vPerm _ => some { maj := 0x64, d := .vPort, a := .vPort, b := .vPort, mask := .full, fmt := some [3, 5] }
  | .vBcast _ => some { maj := 0x65, d := .vPort, a := .vPort, b := .x, mask := .full, fmt := some [3, 5], imm := .ten }
  | .vSplat _ => some { maj := 0x66, d := .vPort, a := .x, mask := .full, fmt := some [3, 5] }
  | .vExt _ => some { maj := 0x67, d := .x, a := .vPort, b := .x, fmt := some fmtVec, imm := .ten }
  | .vIns _ => some { maj := 0x68, d := .vPort, a := .x, b := .x, fmt := some [3, 5], imm := .ten }
  | .vIota _ => some { maj := 0x69, d := .vPort, a := .x, mask := .full, fmt := some fmtVecInt, imm := .ten }
  | .vMov _ => some { maj := 0x6A, d := .vPort, a := .vPort, mask := .full }
  | .vCpr _ => some { maj := 0x6B, d := .vPort, a := .vPort, mask := .select }
  | .vExpd _ => some { maj := 0x6C, d := .vPort, a := .vPort, mask := .full }
  | .vHist _ => some { maj := 0x6D, d := .hist, a := .vPort, s := .fixed false, fmt := some [0, 1, 2, 3, 4, 5, 10, 11, 12, 13, 14] }
  | .vHistGet _ => some { maj := 0x6D, d := .vPort, a := .hist, s := .fixed true }
  | .vAccept _ => some { maj := 0x6E, d := .k, a := .vPort, b := .vPort, fmt := some [10] }
  | .vDraw _ => some { maj := 0x6F, d := .x, a := .vPort, b := .vPort, fmt := some [10] }
  | .laAdd _ => some { maj := 0x70, a := .x, fmt := some [6, 7, 10, 11, 12, 13, 14] }
  | .laNorm _ => some { maj := 0x71 }
  | .laRd _ => some { maj := 0x72, d := .x, rm := .rounds, s := .free, fmt := some [10, 16] }
  | .laClr _ => some { maj := 0x73 }
  | .laGetw _ => some { maj := 0x74, d := .x, imm := .ten }
  | .laSetw _ => some { maj := 0x75, a := .x, imm := .ten }
  | .vHint n _ => some { maj := 0x7E, fn := n.toNat, len := .all, d := .any, a := .any, b := .any, c := .any, rm := .any, s := .any, mask := .any, imm := .any }
  | .oClaim _ => some { maj := 0x80, d := .x, a := .slot }
  | .oRel _ => some { maj := 0x81, a := .slot }
  | .oTst _ => some { maj := 0x89, d := .x, a := .slot }
  | .mMma _ => some (shapeMatrix 0x82 .roundsFloat [0, 1, 11, 12, 13, 14])
  | .mMms _ => some (shapeMatrix 0x83 .roundsFloat [0, 1, 13, 14])
  | .mMmt _ => some (shapeMatrix 0x84 .rounds [13, 14])
  | .mCmp _ => some { maj := 0x85, d := .slot, a := .slot, fmt := some [0, 1, 13, 14] }
  | .mZero _ => some { maj := 0x86, d := .bank }
  | .mRd _ => some { maj := 0x87, d := .vPort, a := .bank, b := .x, imm := .ten }
  | .mWr _ => some { maj := 0x88, d := .bank, a := .vPort, b := .x, imm := .ten }
  | .wSet _ => some { maj := 0x8A, d := .w, a := .x }
  | .wStep _ => some { maj := 0x8B, d := .w, a := .x, imm := .ten }
  | .wVal _ => some { maj := 0x8C, d := .x, a := .w, imm := .ten }
  | .vTdec _ => some { maj := 0x8D, d := .vPort, a := .slot, b := .x, mask := .full, fmt := some [10, 15], imm := .ten }
  | .tEnc _ => some { maj := 0x8E, a := .x, b := .x, imm := .ten }
  | .ld _ => some { maj := 0xA0, mem := true, len := .all, d := .x, a := .x, b := .x, c := .x, fmt := some fmtLoad, imm := .memory }
  | .st _ => some { maj := 0xA1, mem := true, len := .all, d := .x, a := .x, b := .x, c := .x, fmt := some fmtLoad, imm := .memory }
  | .vLd _ => some { maj := 0xA2, mem := true, len := .all, d := .v, a := .x, b := .x, c := .x, mask := .full, imm := .memory }
  | .vSt _ => some { maj := 0xA3, mem := true, len := .all, d := .vPort, a := .x, b := .x, c := .x, imm := .memory }
  | .vGat _ => some { maj := 0xA4, mem := true, d := .v, a := .x, b := .v, c := .x, mask := .full, imm := .memory }
  -- DEDUCED (log 27): D may be a port, which the instruction pops
  -- DEDUCED (log 27): D of `v.sct` may be a stream port, as D of `v.st` may.
  | .vSct _ => some { maj := 0xA5, mem := true, d := .vPort, a := .x, b := .v, c := .x, imm := .memory }
  | .ldAcq _ => some { maj := 0xA6, mem := true, len := .all, d := .x, a := .x, b := .x, c := .x, rm := .scope, fmt := some fmtLoad, imm := .memory }
  | .stRel _ => some { maj := 0xA7, mem := true, len := .all, d := .x, a := .x, b := .x, c := .x, rm := .scope, s := .fixed false, fmt := some fmtLoad, imm := .memory }
  | .stRelCmp _ => some { maj := 0xA7, mem := true, len := .all, d := .x, a := .x, b := .x, c := .x, rm := .scope, s := .fixed true, fmt := some fmtLoad, imm := .memory }
  | .atAdd _ => some (shapeAtomic 0 .unused fmtScalarInt)
  | .atAnd _ => some (shapeAtomic 1 .unused fmtScalarInt)
  | .atOr _ => some (shapeAtomic 2 .unused fmtScalarInt)
  | .atXor _ => some (shapeAtomic 3 .unused fmtScalarInt)
  | .atMin _ => some (shapeAtomic 4 .unused fmtScalarInt)
  | .atMax _ => some (shapeAtomic 5 .unused fmtScalarInt)
  | .atSwp _ => some (shapeAtomic 6 .unused fmtScalarInt)
  | .atCas _ => some (shapeAtomic 7 .x fmtScalarInt)
  | .atFadd _ => some (shapeAtomic 8 .unused fmtVecFloat)
  | .atCas2 _ => some { maj := 0xA9, mem := true, len := .all, d := .xPair, a := .x, b := .xPair, c := .xPair, fmt := some [6], imm := .memory }
  | .cp _ => some { maj := 0xAC, mem := true, len := .l128, d := .x, a := .x, b := .x, c := .x, rm := .rounds, s := .free, imm := .descriptor }
  | .qOpen _ => some { maj := 0xAD, mem := true, d := .port, a := .x, imm := .ten }
  | .qClose _ => some { maj := 0xAE, mem := true, d := .port }
  | .qFlush _ => some { maj := 0xAF, mem := true, d := .port }
  | .l1Wb _ => some (shapeL1Line 0)
  | .l1Inv _ => some (shapeL1Line 1)
  | .l1Wbi _ => some (shapeL1Line 2)
  | .l1Wba _ => some (shapeL1All 4)
  | .l1Inva _ => some (shapeL1All 5)
  | .l1Wbia _ => some (shapeL1All 6)
  | .tlRd t _ => some { maj := 0xB1, fn := t.sub, mem := true, d := .x }
  | .tlWait t _ => some { maj := 0xB2, fn := t.sub, mem := true, a := .x }
  | .tlTest t _ => some { maj := 0xB3, fn := t.sub, mem := true, d := .x, a := .x }
  | .fork _ => some { maj := 0xD0, d := .x, a := .x, b := .x, c := .x }
  | .spawn _ => some { maj := 0xD1, len := .l64_96, d := .x, a := .xPair, b := .xPair, c := .x, imm := .single }
  | .halt _ => some { maj := 0xD2 }
  | .tkWait _ => some { maj := 0xD3 }
  | .tkPush _ => some { maj := 0xD4, d := .x, a := .x, b := .x }
  | .tkDone _ => some { maj := 0xD5 }
  | .tkBatch _ => some { maj := 0xD6, d := .x, a := .x, b := .x }
  | .gainAdd _ => some (shapeGain 0 .rounds)
  | .gainMax _ => some (shapeGain 1 .unused)
  | .gainSet _ => some (shapeGain 2 .unused)
  | .depDec _ => some { maj := 0xD8, a := .x }
  | .hyArrive _ => some { maj := 0xD9, a := .x, imm := .ten }
  | .hyWait _ => some { maj := 0xDA, d := .x, a := .x, b := .x, imm := .ten }
  | .hyTry _ => some { maj := 0xDB, d := .x, a := .x, imm := .ten }
  | .fenceTile _ => some { maj := 0xDC, fn := 0 }
  | .fenceClu _ => some { maj := 0xDC, fn := 1 }
  | .fenceDie _ => some { maj := 0xDC, fn := 2 }
  | .fenceDev _ => some { maj := 0xDC, fn := 3 }
  | .fenceSys _ => some { maj := 0xDC, fn := 4 }
  | .spanOpen _ => some { maj := 0xDD, len := .l64_96, a := .x, b := .x, c := .x, imm := .single }
  | .spanClose _ => some { maj := 0xDE }
  | .lnGo _ => some { maj := 0xDF, len := .l64_96, d := .x, a := .x, b := .x, c := .x, imm := .single }
  | .trap _ => some { maj := 0xF0, imm := .ten }
  | .eret _ => some { maj := 0xF2 }
  | .sysCallEcho _ => some shapeSysCall
  | .sysCallTablegen _ => some shapeSysCall
  | .sysCallPost _ => some shapeSysCall
  | .sysCallDefer _ => some shapeSysCall
  | .sysCallOwned _ => some shapeSysCall
  | .sysCallUnassigned _ => some shapeSysCall
  | .ctlRd _ => some { maj := 0xF3, d := .x, imm := .ten }
  | .ctlWr _ => some { maj := 0xF4, a := .x, imm := .ten }
  | .arrayOperationComplete => none
  | .viterbiBlockStart => none
  | .viterbiBlockComplete => none
  | .copyElement => none
  | .copyComplete => none
  | .portRefillElement => none
  | .portDrainElement => none
  | .homeRequestService => none
  | .storeAcknowledgment => none
  | .atomicAcknowledgment => none
  | .longResultWrite => none
  | .walkComplete => none
  | .spawnArrival => none
  | .answerReturn => none
  | .taskPushArrival => none
  | .taskEndArrival => none
  | .gainUpdateArrival => none
  | .depDecArrival => none
  | .hyWaitTimeout => none
  | .halyardPhaseComplete => none
  | .spanOverrun => none
  | .spanEscalation => none
  | .spanHandlerPark => none
  | .spanBroken => none
  | .lnGoArrival => none
  | .taskDispatch => none
  | .heapLevelMove => none
  | .keyPublication => none
  | .stealRequest => none
  | .stealRequestArrival => none
  | .stolenRecordArrival => none
  | .stealAcknowledgment => none
  | .stealRefusal => none
  | .stealNoneAnswer => none
  | .rsdSnapshot => none
  | .rsdCombine => none
  | .terminationDrain => none
  | .fieldStall => none
  | .launchQueueService => none
  | .launchStart => none
  | .launchEnd => none
  | .preempt => none
  | .preemptionDeferralExpiry => none
  | .tileSave => none
  | .restore => none
  | .handleInvalidation => none
  | .translationInvalidation => none
  | .resume => none
  | .refuse => none
  | .commandComplete => none
  | .commandUndefinedOp => none
  | .lqtailWrite => none
  | .bar0RegisterWrite => none
  | .bar2Access => none
  | .vfReset => none
  | .vfResetDrainExpiry => none
  | .vfResetComplete => none
  | .softThrottleRequest => none
  | .throttleStep => none
  | .hardThrottle => none
  | .criticalTemperature => none
  | .poolOccupancyPublication => none
  | .flitReceive => none
  | .fabricPortDown => none
  | .fabricPortRetrain => none
  | .fabricRequestArrival => none
  | .poolLinkDown => none
  | .powerOnReset => none
  | .managementFirmwareRetry => none
  | .romRecoveryLoad => none
  | .fuseCommit => none
  | .partitionRequest => none
  | .unfreezeRequest => none
  | .managementWindowViolation => none
  | .getVersion => none
  | .getCapabilities => none
  | .negotiateAlgorithms => none
  | .getDigests => none
  | .getCertificate => none
  | .challenge => none
  | .getMeasurements => none
  | .spdmUnsupportedRequest => none
  | .readback => none
  | .patrolScrub => none
  | .errorThreshold => none
  | .illegalInstruction => none
  | .overlayFetch => none
  | .taskMessageAcknowledgment => none

/-- The operand fields of an instruction; the other steps have none. -/
def Instr.fields : Instr → Option Fields
  | .nop f => some f
  | .add f => some f
  | .sub f => some f
  | .mul f => some f
  | .mulh f => some f
  | .div f => some f
  | .rem f => some f
  | .min f => some f
  | .max f => some f
  | .and f => some f
  | .or f => some f
  | .xor f => some f
  | .andn f => some f
  | .shl f => some f
  | .shr f => some f
  | .rot f => some f
  | .clz f => some f
  | .ctz f => some f
  | .popc f => some f
  | .bext f => some f
  | .bins f => some f
  | .sext f => some f
  | .li f => some f
  | .lea f => some f
  | .mov f => some f
  | .sel f => some f
  | .setEq f => some f
  | .setNe f => some f
  | .setLt f => some f
  | .setGe f => some f
  | .setLo f => some f
  | .setHs f => some f
  | .setLe f => some f
  | .setGt f => some f
  | .setLs f => some f
  | .setHi f => some f
  | .kmov f => some f
  | .kget f => some f
  | .kopAnd f => some f
  | .kopOr f => some f
  | .kopXor f => some f
  | .kopAndn f => some f
  | .kopNot f => some f
  | .kpop f => some f
  | .kfill f => some f
  | .br f => some f
  | .bEq f => some f
  | .bNe f => some f
  | .bLt f => some f
  | .bGe f => some f
  | .bLo f => some f
  | .bHs f => some f
  | .bLe f => some f
  | .bGt f => some f
  | .bLs f => some f
  | .bHi f => some f
  | .jr f => some f
  | .call f => some f
  | .callr f => some f
  | .ret f => some f
  | .loop f => some f
  | .dtRd f => some f
  | .dtUntil f => some f
  | .fAdd f => some f
  | .fSub f => some f
  | .fMul f => some f
  | .fFma f => some f
  | .fDiv f => some f
  | .fSqrt f => some f
  | .fCvt f => some f
  | .fCmpEq f => some f
  | .fCmpNe f => some f
  | .fCmpLt f => some f
  | .fCmpGe f => some f
  | .fCmpLe f => some f
  | .fCmpGt f => some f
  | .fCmpUn f => some f
  | .fCmpOrd f => some f
  | .fMin f => some f
  | .fMax f => some f
  | .fAbs f => some f
  | .fNeg f => some f
  | .fCvti f => some f
  | .vAdd f => some f
  | .vSub f => some f
  | .vMul f => some f
  | .vFma f => some f
  | .vFms f => some f
  | .vFnma f => some f
  | .vMin f => some f
  | .vMax f => some f
  | .vAbs f => some f
  | .vNeg f => some f
  | .vDiv f => some f
  | .vSqrt f => some f
  | .vRcp f => some f
  | .vRsq f => some f
  | .vExp2 f => some f
  | .vLog2 f => some f
  | .vSin f => some f
  | .vCos f => some f
  | .vTanh f => some f
  | .vSig f => some f
  | .vCvt f => some f
  | .vCvti f => some f
  | .vCmpEq f => some f
  | .vCmpNe f => some f
  | .vCmpLt f => some f
  | .vCmpGe f => some f
  | .vCmpLo f => some f
  | .vCmpHs f => some f
  | .vCmpLe f => some f
  | .vCmpGt f => some f
  | .vCmpLs f => some f
  | .vCmpHi f => some f
  | .vCmpUn f => some f
  | .vCmpOrd f => some f
  | .vSel f => some f
  | .vAnd f => some f
  | .vOr f => some f
  | .vXor f => some f
  | .vAndn f => some f
  | .vShl f => some f
  | .vShr f => some f
  | .vRot f => some f
  | .vClz f => some f
  | .vDot4 f => some f
  | .vDot8 f => some f
  | .vRedAdd f => some f
  | .vRedMin f => some f
  | .vRedMax f => some f
  | .vRedAnd f => some f
  | .vRedOr f => some f
  | .vRedXor f => some f
  | .vScanAdd f => some f
  | .vScanMin f => some f
  | .vScanMax f => some f
  | .vScanXadd f => some f
  | .vScanXmin f => some f
  | .vScanXmax f => some f
  | .vPerm f => some f
  | .vBcast f => some f
  | .vSplat f => some f
  | .vExt f => some f
  | .vIns f => some f
  | .vIota f => some f
  | .vMov f => some f
  | .vCpr f => some f
  | .vExpd f => some f
  | .vHist f => some f
  | .vHistGet f => some f
  | .vAccept f => some f
  | .vDraw f => some f
  | .laAdd f => some f
  | .laNorm f => some f
  | .laRd f => some f
  | .laClr f => some f
  | .laGetw f => some f
  | .laSetw f => some f
  | .vHint _ f => some f
  | .oClaim f => some f
  | .oRel f => some f
  | .oTst f => some f
  | .mMma f => some f
  | .mMms f => some f
  | .mMmt f => some f
  | .mCmp f => some f
  | .mZero f => some f
  | .mRd f => some f
  | .mWr f => some f
  | .wSet f => some f
  | .wStep f => some f
  | .wVal f => some f
  | .vTdec f => some f
  | .tEnc f => some f
  | .arrayOperationComplete => none
  | .viterbiBlockStart => none
  | .viterbiBlockComplete => none
  | .ld f => some f
  | .st f => some f
  | .vLd f => some f
  | .vSt f => some f
  | .vGat f => some f
  | .vSct f => some f
  | .ldAcq f => some f
  | .stRel f => some f
  | .stRelCmp f => some f
  | .atAdd f => some f
  | .atAnd f => some f
  | .atOr f => some f
  | .atXor f => some f
  | .atMin f => some f
  | .atMax f => some f
  | .atSwp f => some f
  | .atCas f => some f
  | .atFadd f => some f
  | .atCas2 f => some f
  | .cp f => some f
  | .copyElement => none
  | .copyComplete => none
  | .qOpen f => some f
  | .qClose f => some f
  | .qFlush f => some f
  | .portRefillElement => none
  | .portDrainElement => none
  | .l1Wb f => some f
  | .l1Inv f => some f
  | .l1Wbi f => some f
  | .l1Wba f => some f
  | .l1Inva f => some f
  | .l1Wbia f => some f
  | .tlRd _ f => some f
  | .tlWait _ f => some f
  | .tlTest _ f => some f
  | .homeRequestService => none
  | .storeAcknowledgment => none
  | .atomicAcknowledgment => none
  | .longResultWrite => none
  | .walkComplete => none
  | .fork f => some f
  | .spawn f => some f
  | .spawnArrival => none
  | .answerReturn => none
  | .halt f => some f
  | .tkWait f => some f
  | .tkPush f => some f
  | .taskPushArrival => none
  | .tkDone f => some f
  | .taskEndArrival => none
  | .tkBatch f => some f
  | .gainAdd f => some f
  | .gainMax f => some f
  | .gainSet f => some f
  | .gainUpdateArrival => none
  | .depDec f => some f
  | .depDecArrival => none
  | .hyArrive f => some f
  | .hyWait f => some f
  | .hyWaitTimeout => none
  | .hyTry f => some f
  | .halyardPhaseComplete => none
  | .fenceTile f => some f
  | .fenceClu f => some f
  | .fenceDie f => some f
  | .fenceDev f => some f
  | .fenceSys f => some f
  | .spanOpen f => some f
  | .spanClose f => some f
  | .spanOverrun => none
  | .spanEscalation => none
  | .spanHandlerPark => none
  | .spanBroken => none
  | .lnGo f => some f
  | .lnGoArrival => none
  | .trap f => some f
  | .eret f => some f
  | .sysCallEcho f => some f
  | .sysCallTablegen f => some f
  | .sysCallPost f => some f
  | .sysCallDefer f => some f
  | .sysCallOwned f => some f
  | .sysCallUnassigned f => some f
  | .ctlRd f => some f
  | .ctlWr f => some f
  | .taskDispatch => none
  | .heapLevelMove => none
  | .keyPublication => none
  | .stealRequest => none
  | .stealRequestArrival => none
  | .stolenRecordArrival => none
  | .stealAcknowledgment => none
  | .stealRefusal => none
  | .rsdSnapshot => none
  | .rsdCombine => none
  | .terminationDrain => none
  | .fieldStall => none
  | .launchQueueService => none
  | .launchStart => none
  | .launchEnd => none
  | .preempt => none
  | .preemptionDeferralExpiry => none
  | .tileSave => none
  | .restore => none
  | .handleInvalidation => none
  | .translationInvalidation => none
  | .resume => none
  | .refuse => none
  | .commandComplete => none
  | .lqtailWrite => none
  | .bar0RegisterWrite => none
  | .bar2Access => none
  | .vfReset => none
  | .vfResetDrainExpiry => none
  | .vfResetComplete => none
  | .softThrottleRequest => none
  | .throttleStep => none
  | .hardThrottle => none
  | .criticalTemperature => none
  | .poolOccupancyPublication => none
  | .flitReceive => none
  | .fabricPortDown => none
  | .fabricPortRetrain => none
  | .fabricRequestArrival => none
  | .poolLinkDown => none
  | .powerOnReset => none
  | .managementFirmwareRetry => none
  | .romRecoveryLoad => none
  | .fuseCommit => none
  | .partitionRequest => none
  | .unfreezeRequest => none
  | .managementWindowViolation => none
  | .getVersion => none
  | .getCapabilities => none
  | .negotiateAlgorithms => none
  | .getDigests => none
  | .getCertificate => none
  | .challenge => none
  | .getMeasurements => none
  | .spdmUnsupportedRequest => none
  | .readback => none
  | .patrolScrub => none
  | .errorThreshold => none
  | .illegalInstruction => none
  | .overlayFetch => none
  | .taskMessageAcknowledgment => none
  | .stealNoneAnswer => none
  | .commandUndefinedOp => none

/-- Whether C holds a data operand, so that a handle can only be an immediate (R87). -/
def Instr.dataC : Instr → Bool
  | .atCas _ => true
  | .atCas2 _ => true
  | .stRelCmp _ => true
  | _ => false

/-- The length of a word in bytes (R79). -/
def Fields.bytes (f : Fields) : Nat :=
  match f.ext with
  | .none => 8
  | .imm32 _ => 12
  | .imm64 _ => 16

/-- R92. -/
def Lengths.admits (l : Lengths) (e : Ext) : Bool :=
  match l, e with
  | .l64, .none => true
  | .l64_96, .none => true
  | .l64_96, .imm32 _ => true
  | .l96_128, .imm32 _ => true
  | .l96_128, .imm64 _ => true
  | .l128, .imm64 _ => true
  | .all, _ => true
  | _, _ => false

/-- Whether an FMT code is one of the floating formats (R33). -/
def isFloatFmt (c : Nat) : Bool := (10 ≤ c && c ≤ 14) || c == 16

/-- R82. -/
def Kind.admits (kind : Kind) (v : BitVec 6) : Bool :=
  match kind with
  | .unused => v == 0
  | .x => true
  | .xPair => v.toNat % 2 == 0
  | .v => v.toNat < 32
  | .vPort => v.toNat < 36
  | .k => v.toNat < 8
  | .w => v.toNat < 4
  | .slot => v.toNat < 8
  | .bank => v.toNat < 2
  | .hist => v.toNat < 4
  | .port => 32 ≤ v.toNat && v.toNat < 36
  | .any => true

/-- R40, R156: RM 110 never; a scope is 0 to 4. -/
def RmUse.admits (u : RmUse) (fmt rm : Nat) : Bool :=
  match u with
  | .unused => rm == 0
  | .rounds => rm != 6
  | .roundsFloat => if isFloatFmt fmt then rm != 6 else rm == 0
  | .scope => rm < 5
  | .any => true

def SUse.admits (u : SUse) (fmt : Nat) (s : Bool) : Bool :=
  match u with
  | .unused => !s
  | .free => true
  | .fixed v => s == v
  | .freeInt => !s || !isFloatFmt fmt
  | .any => true

/-- R83: K = 0 with KN = 1 is illegal where a mask is taken. -/
def MaskUse.admits (u : MaskUse) (f : Fields) : Bool :=
  match u with
  | .unused => f.k == 0 && !f.kn && !f.zm
  | .select => !f.zm && !(f.k == 0 && f.kn)
  | .full => !(f.k == 0 && f.kn)
  | .any => true

/-- R81, R84, R87: the immediate fields that the form does not use are zero. -/
def ImmUse.admits (u : ImmUse) (f : Fields) : Bool :=
  match u with
  | .unused => f.imm10 == 0
  | .ten => true
  | .single => f.imm10 == 0 || f.ext == .none
  | .memory =>
    match f.ext with
    | .none => true
    | .imm32 v => if f.hi then v.toNat < 65536 else f.imm10 == 0
    | .imm64 _ => f.imm10 == 0
  | .wide => f.imm10 == 0
  | .descriptor => f.imm10 == 0
  | .any => true

/-- R87: H = 0 with HI = 1 never; a 128-bit form only with H, HI = 1, 1; a 64-bit form never with it; an instruction whose
C is a data operand takes no handle register. Outside memory operands H and HI are zero. -/
def handleLegal (sh : Shape) (dataC : Bool) (f : Fields) : Bool :=
  match sh.imm, sh.mem with
  | .memory, true =>
    (f.h || !f.hi) && !(f.h && !f.hi && dataC) &&
    (match f.ext with
      | .none => !f.hi
      | .imm32 _ => true
      | .imm64 _ => f.hi) &&
    -- the line forms of `l1.*` are through a handle (R156)
    (sh.maj != 0xB0 || f.h)
  | _, _ => !f.h && !f.hi

/-- The kind of C as the word uses it: a memory operand names a handle register only with H, HI = 1, 0 (R87). -/
def Shape.kindC (sh : Shape) (dataC : Bool) (f : Fields) : Kind :=
  match sh.imm with
  | .memory => if dataC then sh.c else if f.h && !f.hi then .x else .unused
  | _ => sh.c

/-- IMM64, or the descriptor of R88 and R89, as a number; 0 in the shorter forms. -/
def Ext.imm64Nat : Ext → Nat
  | .imm64 v => v.toNat
  | _ => 0

/-- Bits [hi:lo] of a number. -/
def natBits (v hi lo : Nat) : Nat := (v / 2 ^ lo) % 2 ^ (hi + 1 - lo)

/-- R53: the pairs (S, V) of the trellis code. -/
def trellisPair (s v : Nat) : Bool :=
  (s == 1 && v == 2) || (s == 1 && v == 1) || (s == 2 && v == 2) || (s == 3 && v == 2) || (s == 2 && v == 1) || (s == 3 && v == 1)

/-- The format sets of R173. -/
def copyFloat (c : Nat) : Bool := 10 ≤ c && c ≤ 14
def copyInt (c : Nat) : Bool := c ≤ 5 || c == 8 || c == 9
def copyIntOut (c : Nat) : Bool := c ≤ 5

/-- R173: the pairs (SF, DF) that a copy performs. -/
def copyPair (sf df : Nat) : Bool :=
  sf == df || (copyFloat sf && copyFloat df) || (copyInt sf && copyFloat df) || (copyFloat sf && copyIntOut df) ||
  (copyInt sf && copyInt df)

/-- R40, R173: whether a copy rounds: it converts from or to a floating format. DESIGN CHOICE (log 54): code 16, which no copy converts, counts as no
floating format here, so that RM ≠ 0 beside a pair of code 16 and an integer or trellis code fails at step 5 and not at step 6. -/
def copyRounds (sf df : Nat) : Bool := sf != df && (copyFloat sf || copyFloat df)

/-- The control registers that `ctl.wr` may write (R95). -/
def ctlWritable (n : Nat) : Bool := n ≤ 2 || (4 ≤ n && n ≤ 6) || (30 ≤ n && n ≤ 33) || n == 38

/-- R93: the condition rows that FMT selects in `v.cmp.*`. -/
def vcmpRow (cond fmt : Nat) : Bool :=
  if fmt ≤ 9 then cond ≤ 9
  else [0, 1, 2, 3, 6, 7, 10, 11].contains cond

/-- The checks of step 5 of R98 that only some instructions make. RM of a copy that does not round, and S of one that does not convert or whose S R173
calls unused, are fields that it does not use (R40, R81, R89; log 26). R77 counts a barrier id above 3 among steps 2 to 6 (R200).
DEDUCED (log 54): `v.abs` with S = 1 and a code that is neither i16 nor i32 fails here, as its own description rules the
pair out (R120), where `v.neg` leaves its signed codes to step 6. DESIGN CHOICE (log 54): a copy with RM ≠ 0 whose unsupported pair joins code 16 with
an integer or trellis code fails here. -/
def Instr.extra5 : Instr → Bool
  | .fCvt f => f.imm10.toNat ≤ 16
  | .fCvti f => f.imm10.toNat ≤ 16
  | .vCvt f => f.imm10.toNat < 256 && f.imm10.toNat % 32 ≤ 16
  | .vCvti f => f.imm10.toNat < 256 && f.imm10.toNat % 32 ≤ 16
  | .vAbs f => !f.s || f.fmt == 2 || f.fmt == 4
  | .vDot4 f => f.imm10.toNat ≤ 16
  | .vDot8 f => f.imm10.toNat ≤ 16
  | .vCmpEq f => vcmpRow 0 f.fmt.toNat
  | .vCmpNe f => vcmpRow 1 f.fmt.toNat
  | .vCmpLt f => vcmpRow 2 f.fmt.toNat
  | .vCmpGe f => vcmpRow 3 f.fmt.toNat
  | .vCmpLo f => vcmpRow 4 f.fmt.toNat
  | .vCmpHs f => vcmpRow 5 f.fmt.toNat
  | .vCmpLe f => vcmpRow 6 f.fmt.toNat
  | .vCmpGt f => vcmpRow 7 f.fmt.toNat
  | .vCmpLs f => vcmpRow 8 f.fmt.toNat
  | .vCmpHi f => vcmpRow 9 f.fmt.toNat
  | .vCmpUn f => vcmpRow 10 f.fmt.toNat
  | .vCmpOrd f => vcmpRow 11 f.fmt.toNat
  | .laGetw f => f.imm10.toNat ≤ 10
  | .laSetw f => f.imm10.toNat ≤ 10
  | .mMma f => natBits f.ext.imm64Nat 63 13 == 0 && natBits f.ext.imm64Nat 12 8 ≤ 16
  | .mMms f => natBits f.ext.imm64Nat 63 13 == 0 && natBits f.ext.imm64Nat 12 8 ≤ 16
  | .mMmt f => natBits f.ext.imm64Nat 63 16 == 0 && natBits f.ext.imm64Nat 12 8 ≤ 16
  | .mCmp f => f.d != f.a
  | .hyArrive f => f.imm10.toNat ≤ 3
  | .hyWait f => f.imm10.toNat ≤ 3
  | .hyTry f => f.imm10.toNat ≤ 3
  | .wStep f => 1 ≤ f.imm10.toNat && f.imm10.toNat ≤ 3
  | .wVal f => f.imm10.toNat ≤ 2
  | .vTdec f => f.imm10.toNat < 8
  | .tEnc f => f.imm10.toNat < 8
  | .cp f =>
    let v := f.ext.imm64Nat
    natBits v 63 56 == 0 && natBits v 43 42 ≤ 1 && natBits v 41 37 ≤ 16 && natBits v 36 32 ≤ 16 &&
    (natBits v 54 54 == 1 || natBits v 15 0 == 0) && (natBits v 55 55 == 1 || natBits v 31 16 == 0) &&
    (natBits v 43 42 == 0 || (natBits v 55 55 == 0 && f.d.toNat < 8)) &&
    (f.rm == 0 || copyRounds (natBits v 36 32) (natBits v 41 37)) &&
    !(f.s && (natBits v 36 32 == natBits v 41 37 || copyFloat (natBits v 36 32) && copyIntOut (natBits v 41 37)))
  | .sysCallEcho f => f.imm10 == 0
  | .sysCallTablegen f => f.imm10 == 1
  | .sysCallPost f => f.imm10 == 2
  | .sysCallDefer f => f.imm10 == 3
  | .sysCallOwned f => f.imm10 == 4
  | .sysCallUnassigned f => 5 ≤ f.imm10.toNat && f.imm10.toNat < 512
  | .ctlRd f => f.imm10.toNat ≤ 38
  | .ctlWr f => ctlWritable f.imm10.toNat
  | _ => true

/-- The format pairs of step 6 of R98 (R53, R88, R115, R125, R126, R173). -/
def Instr.extra6 : Instr → Bool
  | .fCvt f => (10 ≤ f.imm10.toNat && f.imm10.toNat ≤ 14) || f.imm10.toNat == 16
  | .fCvti f => 4 ≤ f.imm10.toNat && f.imm10.toNat ≤ 7
  | .vCvt f => copyFloat (f.imm10.toNat % 32)
  | .vCvti f => copyInt (f.imm10.toNat % 32)
  | .vDot4 f => f.imm10.toNat ≤ 1
  | .vDot8 f => 8 ≤ f.imm10.toNat && f.imm10.toNat ≤ 9
  | .mMma f =>
    let fb := natBits f.ext.imm64Nat 12 8
    let fa := f.fmt.toNat
    if fa == 13 || fa == 14 then fb == 13 || fb == 14
    else if fa == 0 || fa == 1 then fb == 0 || fb == 1
    else fa == fb
  | .mMms f =>
    let fb := natBits f.ext.imm64Nat 12 8
    if f.fmt.toNat == 13 || f.fmt.toNat == 14 then fb == 13 || fb == 14 else fb == 0 || fb == 1
  | .mMmt f => natBits f.ext.imm64Nat 12 8 == 15 && trellisPair (natBits f.ext.imm64Nat 14 13) (natBits f.ext.imm64Nat 15 15 + 1)
  | .vTdec f => trellisPair (f.imm10.toNat % 4) (f.imm10.toNat / 4 + 1)
  | .tEnc f => trellisPair (f.imm10.toNat % 4) (f.imm10.toNat / 4 + 1)
  | .cp f => copyPair (natBits f.ext.imm64Nat 36 32) (natBits f.ext.imm64Nat 41 37)
  | _ => true

/-- Step 4 of R98: the length and the H, HI combination. (MAJ and FN are the constructor.) -/
def Instr.check4 (i : Instr) : Bool :=
  match i.shape, i.fields with
  | some sh, some f => sh.len.admits f.ext && handleLegal sh i.dataC f
  | _, _ => false

/-- Step 5 of R98. -/
def Instr.check5 (i : Instr) : Bool :=
  match i.shape, i.fields with
  | some sh, some f =>
    (match sh.fmt with
      | none => f.fmt == 0 || sh.imm == .any
      | some _ => f.fmt.toNat ≤ 16) &&
    sh.rm.admits f.fmt.toNat f.rm.toNat && sh.s.admits f.fmt.toNat f.s && sh.mask.admits f && sh.imm.admits f &&
    (sh.maj != 0x00 || f.ext == .none || f.ext == .imm32 0 || f.ext == .imm64 0) &&
    (sh.maj != 0x00 || f.imm10 == 0) &&
    sh.d.admits f.d && sh.a.admits f.a && sh.b.admits f.b && (sh.kindC i.dataC f).admits f.c && i.extra5
  | _, _ => false

/-- Step 6 of R98. -/
def Instr.check6 (i : Instr) : Bool :=
  match i.shape, i.fields with
  | some sh, some f =>
    (match sh.fmt with
      | none => true
      | some l => l.contains f.fmt.toNat) && i.extra6
  | _, _ => false

/-- An instruction a strand can issue: it passes steps 4 to 6 of R98. The other steps of the machine are no words. -/
def Instr.WellFormed (i : Instr) : Bool := i.check4 && i.check5 && i.check6

end Sys2Proof
end

