-- ==== Sys2Proof/Decode.lean ====
section
/-! DEFINITION. Decoding a word (R78 to R98, file 04), its encoder, and the table-word entry of the host. -/

namespace Sys2Proof

/-- Why a word is not issued (R98): an illegal instruction at steps 2 or 4 (`unassigned`) or at step 5 (`field`), a word that
crosses a 32-byte block at step 3, an illegal format at step 6. -/
inductive Reject where
  | unassigned
  | straddle
  | field
  | format
deriving DecidableEq, Repr

/-- R78: bytes at ascending addresses, little-endian. -/
def bytesToNat : List Byte → Nat
  | [] => 0
  | b :: r => b.toNat + 256 * bytesToNat r

/-- `n` bytes of a number, the lowest first (R4). -/
def natToBytes : Nat → Nat → List Byte
  | 0, _ => []
  | n + 1, v => BitVec.ofNat 8 v :: natToBytes n (v / 256)

/-- The fields of R80 in the first 64 bits. H and HI are FN bits 5 and 4 of the memory family only (R87). -/
def fieldsOfWord (w : BitVec 64) (mem : Bool) (ext : Ext) : Fields :=
  { d := w.extractLsb' 10 6
    a := w.extractLsb' 16 6
    b := w.extractLsb' 22 6
    c := w.extractLsb' 32 6
    s := w.getLsbD 31
    rm := w.extractLsb' 28 3
    k := w.extractLsb' 38 3
    kn := w.getLsbD 41
    zm := w.getLsbD 42
    fmt := w.extractLsb' 43 5
    imm10 := w.extractLsb' 54 10
    h := mem && w.getLsbD 53
    hi := mem && w.getLsbD 52
    ext := ext }

/-- The entry of a family at its FN value (R93, R94). -/
def pick (l : List (Option (Fields → Instr))) (fn : Nat) (f : Fields) : Option Instr :=
  match l[fn]? with
  | some (some i) => some (i f)
  | _ => none

/-- Whether a major belongs to the memory family, whose FN is split (R87). -/
def isMemMajor (maj : Nat) : Bool := 0xA0 ≤ maj && maj ≤ 0xCF

/-- R94: SUB names the timeline counter. -/
def counterOf : Nat → Option Counter
  | 0 => some .tlc
  | 1 => some .tlm
  | 2 => some .tle
  | 3 => some .tlg
  | _ => none

/-- The instruction that MAJ and FN (SUB in the memory family) name (R90, R93, R94). `v.hist` and `st.rel` have a row per S,
`sys.call` a row per service code (R131, R162, R322). -/
def selectInstr (maj fn : Nat) (f : Fields) : Option Instr :=
  match maj with
  | 0x00 => pick [some .nop] fn f
  | 0x01 => pick [some .add] fn f
  | 0x02 => pick [some .sub] fn f
  | 0x03 => pick [some .mul] fn f
  | 0x04 => pick [some .mulh] fn f
  | 0x05 => pick [some .div] fn f
  | 0x06 => pick [some .rem] fn f
  | 0x07 => pick [some .min] fn f
  | 0x08 => pick [some .max] fn f
  | 0x09 => pick [some .and] fn f
  | 0x0A => pick [some .or] fn f
  | 0x0B => pick [some .xor] fn f
  | 0x0C => pick [some .andn] fn f
  | 0x0D => pick [some .shl] fn f
  | 0x0E => pick [some .shr] fn f
  | 0x0F => pick [some .rot] fn f
  | 0x10 => pick [some .clz] fn f
  | 0x11 => pick [some .ctz] fn f
  | 0x12 => pick [some .popc] fn f
  | 0x13 => pick [some .bext] fn f
  | 0x14 => pick [some .bins] fn f
  | 0x15 => pick [some .sext] fn f
  | 0x16 => pick [some .li] fn f
  | 0x17 => pick [some .lea] fn f
  | 0x18 => pick [some .mov] fn f
  | 0x19 => pick [some .sel] fn f
  | 0x1A => pick [some .setEq, some .setNe, some .setLt, some .setGe, some .setLo, some .setHs, some .setLe, some .setGt, some .setLs, some .setHi] fn f
  | 0x1B => pick [some .kmov] fn f
  | 0x1C => pick [some .kget] fn f
  | 0x1D => pick [some .kopAnd, some .kopOr, some .kopXor, some .kopAndn, some .kopNot] fn f
  | 0x1E => pick [some .kpop] fn f
  | 0x1F => pick [some .kfill] fn f
  | 0x20 => pick [some .br] fn f
  | 0x21 => pick [some .bEq, some .bNe, some .bLt, some .bGe, some .bLo, some .bHs, some .bLe, some .bGt, some .bLs, some .bHi] fn f
  | 0x22 => pick [some .jr] fn f
  | 0x23 => pick [some .call] fn f
  | 0x24 => pick [some .callr] fn f
  | 0x25 => pick [some .ret] fn f
  | 0x26 => pick [some .loop] fn f
  | 0x28 => pick [some .dtRd] fn f
  | 0x29 => pick [some .dtUntil] fn f
  | 0x30 => pick [some .fAdd] fn f
  | 0x31 => pick [some .fSub] fn f
  | 0x32 => pick [some .fMul] fn f
  | 0x33 => pick [some .fFma] fn f
  | 0x34 => pick [some .fDiv] fn f
  | 0x35 => pick [some .fSqrt] fn f
  | 0x36 => pick [some .fCvt] fn f
  | 0x37 => pick [some .fCmpEq, some .fCmpNe, some .fCmpLt, some .fCmpGe, none, none, some .fCmpLe, some .fCmpGt, none, none, some .fCmpUn, some .fCmpOrd] fn f
  | 0x38 => pick [some .fMin] fn f
  | 0x39 => pick [some .fMax] fn f
  | 0x3A => pick [some .fAbs] fn f
  | 0x3B => pick [some .fNeg] fn f
  | 0x3C => pick [some .fCvti] fn f
  | 0x40 => pick [some .vAdd] fn f
  | 0x41 => pick [some .vSub] fn f
  | 0x42 => pick [some .vMul] fn f
  | 0x43 => pick [some .vFma] fn f
  | 0x44 => pick [some .vFms] fn f
  | 0x45 => pick [some .vFnma] fn f
  | 0x46 => pick [some .vMin] fn f
  | 0x47 => pick [some .vMax] fn f
  | 0x48 => pick [some .vAbs] fn f
  | 0x49 => pick [some .vNeg] fn f
  | 0x4A => pick [some .vDiv] fn f
  | 0x4B => pick [some .vSqrt] fn f
  | 0x4C => pick [some .vRcp] fn f
  | 0x4D => pick [some .vRsq] fn f
  | 0x4E => pick [some .vExp2] fn f
  | 0x4F => pick [some .vLog2] fn f
  | 0x50 => pick [some .vSin] fn f
  | 0x51 => pick [some .vCos] fn f
  | 0x52 => pick [some .vTanh] fn f
  | 0x53 => pick [some .vSig] fn f
  | 0x54 => pick [some .vCvt] fn f
  | 0x55 => pick [some .vCvti] fn f
  | 0x56 => pick [some .vCmpEq, some .vCmpNe, some .vCmpLt, some .vCmpGe, some .vCmpLo, some .vCmpHs, some .vCmpLe, some .vCmpGt, some .vCmpLs, some .vCmpHi, some .vCmpUn, some .vCmpOrd] fn f
  | 0x57 => pick [some .vSel] fn f
  | 0x58 => pick [some .vAnd] fn f
  | 0x59 => pick [some .vOr] fn f
  | 0x5A => pick [some .vXor] fn f
  | 0x5B => pick [some .vAndn] fn f
  | 0x5C => pick [some .vShl] fn f
  | 0x5D => pick [some .vShr] fn f
  | 0x5E => pick [some .vRot] fn f
  | 0x5F => pick [some .vClz] fn f
  | 0x60 => pick [some .vDot4] fn f
  | 0x61 => pick [some .vDot8] fn f
  | 0x62 => pick [some .vRedAdd, some .vRedMin, some .vRedMax, some .vRedAnd, some .vRedOr, some .vRedXor] fn f
  | 0x63 => pick [some .vScanAdd, some .vScanMin, some .vScanMax, none, none, none, none, none, some .vScanXadd, some .vScanXmin, some .vScanXmax] fn f
  | 0x64 => pick [some .vPerm] fn f
  | 0x65 => pick [some .vBcast] fn f
  | 0x66 => pick [some .vSplat] fn f
  | 0x67 => pick [some .vExt] fn f
  | 0x68 => pick [some .vIns] fn f
  | 0x69 => pick [some .vIota] fn f
  | 0x6A => pick [some .vMov] fn f
  | 0x6B => pick [some .vCpr] fn f
  | 0x6C => pick [some .vExpd] fn f
  | 0x6D => if fn = 0 then some (if f.s then .vHistGet f else .vHist f) else none
  | 0x6E => pick [some .vAccept] fn f
  | 0x6F => pick [some .vDraw] fn f
  | 0x70 => pick [some .laAdd] fn f
  | 0x71 => pick [some .laNorm] fn f
  | 0x72 => pick [some .laRd] fn f
  | 0x73 => pick [some .laClr] fn f
  | 0x74 => pick [some .laGetw] fn f
  | 0x75 => pick [some .laSetw] fn f
  | 0x7E => if fn < 16 then some (.vHint (BitVec.ofNat 4 fn) f) else none
  | 0x80 => pick [some .oClaim] fn f
  | 0x81 => pick [some .oRel] fn f
  | 0x82 => pick [some .mMma] fn f
  | 0x83 => pick [some .mMms] fn f
  | 0x84 => pick [some .mMmt] fn f
  | 0x85 => pick [some .mCmp] fn f
  | 0x86 => pick [some .mZero] fn f
  | 0x87 => pick [some .mRd] fn f
  | 0x88 => pick [some .mWr] fn f
  | 0x89 => pick [some .oTst] fn f
  | 0x8A => pick [some .wSet] fn f
  | 0x8B => pick [some .wStep] fn f
  | 0x8C => pick [some .wVal] fn f
  | 0x8D => pick [some .vTdec] fn f
  | 0x8E => pick [some .tEnc] fn f
  | 0xA0 => pick [some .ld] fn f
  | 0xA1 => pick [some .st] fn f
  | 0xA2 => pick [some .vLd] fn f
  | 0xA3 => pick [some .vSt] fn f
  | 0xA4 => pick [some .vGat] fn f
  | 0xA5 => pick [some .vSct] fn f
  | 0xA6 => pick [some .ldAcq] fn f
  | 0xA7 => if fn = 0 then some (if f.s then .stRelCmp f else .stRel f) else none
  | 0xA8 => pick [some .atAdd, some .atAnd, some .atOr, some .atXor, some .atMin, some .atMax, some .atSwp, some .atCas, some .atFadd] fn f
  | 0xA9 => pick [some .atCas2] fn f
  | 0xAC => pick [some .cp] fn f
  | 0xAD => pick [some .qOpen] fn f
  | 0xAE => pick [some .qClose] fn f
  | 0xAF => pick [some .qFlush] fn f
  | 0xB0 => pick [some .l1Wb, some .l1Inv, some .l1Wbi, none, some .l1Wba, some .l1Inva, some .l1Wbia] fn f
  | 0xB1 => (counterOf fn).map fun t => .tlRd t f
  | 0xB2 => (counterOf fn).map fun t => .tlWait t f
  | 0xB3 => (counterOf fn).map fun t => .tlTest t f
  | 0xD0 => pick [some .fork] fn f
  | 0xD1 => pick [some .spawn] fn f
  | 0xD2 => pick [some .halt] fn f
  | 0xD3 => pick [some .tkWait] fn f
  | 0xD4 => pick [some .tkPush] fn f
  | 0xD5 => pick [some .tkDone] fn f
  | 0xD6 => pick [some .tkBatch] fn f
  | 0xD7 => pick [some .gainAdd, some .gainMax, some .gainSet] fn f
  | 0xD8 => pick [some .depDec] fn f
  | 0xD9 => pick [some .hyArrive] fn f
  | 0xDA => pick [some .hyWait] fn f
  | 0xDB => pick [some .hyTry] fn f
  | 0xDC => pick [some .fenceTile, some .fenceClu, some .fenceDie, some .fenceDev, some .fenceSys] fn f
  | 0xDD => pick [some .spanOpen] fn f
  | 0xDE => pick [some .spanClose] fn f
  | 0xDF => pick [some .lnGo] fn f
  | 0xF0 => pick [some .trap] fn f
  | 0xF1 => if fn = 0 ∧ f.imm10.toNat < 512 then
      pick [some .sysCallEcho, some .sysCallTablegen, some .sysCallPost, some .sysCallDefer, some .sysCallOwned,
        some .sysCallUnassigned] (Nat.min f.imm10.toNat 5) f
    else none
  | 0xF2 => pick [some .eret] fn f
  | 0xF3 => pick [some .ctlRd] fn f
  | 0xF4 => pick [some .ctlWr] fn f
  | _ => none

/-- Steps 4 to 6 of R98 on the fields of a word. -/
def checked (i : Instr) : Except Reject Instr :=
  if i.check4 = false then .error .unassigned
  else if i.check5 = false then .error .field
  else if i.check6 = false then .error .format
  else .ok i

/-- Steps 4 to 6 of R98 on the first 64 bits and what follows them. -/
def decodeWord (w : BitVec 64) (ext : Ext) : Except Reject Instr :=
  let maj := (w.extractLsb' 2 8).toNat
  let mem := isMemMajor maj
  let fn := if mem then (w.extractLsb' 48 4).toNat else (w.extractLsb' 48 6).toNat
  match selectInstr maj fn (fieldsOfWord w mem ext) with
  | none => .error .unassigned
  | some i => checked i

/-- The length in bytes that LEN names (R79); `none` for LEN 11. -/
def lengthOf (first : Byte) : Option Nat :=
  match first.toNat % 4 with
  | 0 => some 8
  | 1 => some 12
  | 2 => some 16
  | _ => none

/-- The bits after the first 64 of a word of `n` bytes (R79). -/
def extOf (n : Nat) (bytes : List Byte) : Ext :=
  if n = 8 then .none
  else if n = 12 then .imm32 (BitVec.ofNat 32 (bytesToNat ((bytes.drop 8).take 4)))
  else .imm64 (BitVec.ofNat 64 (bytesToNat ((bytes.drop 8).take 8)))

/-- Steps 2 to 6 of R98 for the word at `bytes`, whose address is `pc`: total on any bytes (missing bytes read 0). -/
def decodeAt (pc : Nat) (bytes : List Byte) : Except Reject Instr :=
  match lengthOf (bytes.headD 0) with
  | none => .error .unassigned
  | some n =>
    if pc % 32 + n > 32 then .error .straddle
    else decodeWord (BitVec.ofNat 64 (bytesToNat (bytes.take 8))) (extOf n bytes)

/-- The word at the start of a 32-byte block. -/
def decode (bytes : List Byte) : Except Reject Instr := decodeAt 0 bytes

/-- LEN of a word (R79). -/
def Ext.lenCode : Ext → BitVec 2
  | .none => 0
  | .imm32 _ => 1
  | .imm64 _ => 2

def Ext.bytes : Ext → List Byte
  | .none => []
  | .imm32 v => natToBytes 4 v.toNat
  | .imm64 v => natToBytes 8 v.toNat

/-- The six FN bits of a row: H, HI and SUB in the memory family (R87), the sub-operation elsewhere. -/
def fnBits (sh : Shape) (f : Fields) : BitVec 6 :=
  if sh.mem then BitVec.ofBool f.h ++ BitVec.ofBool f.hi ++ BitVec.ofNat 4 sh.fn else BitVec.ofNat 6 sh.fn

/-- The first 64 bits of a word, the fields of R80 from bit 63 down. -/
def wordOf (sh : Shape) (f : Fields) : BitVec 64 :=
  (f.imm10 ++ fnBits sh f ++ f.fmt ++ BitVec.ofBool f.zm ++ BitVec.ofBool f.kn ++ f.k ++ f.c ++ BitVec.ofBool f.s ++
    f.rm ++ f.b ++ f.a ++ f.d ++ BitVec.ofNat 8 sh.maj ++ f.ext.lenCode : BitVec 64)

/-- The bytes of an instruction's word, from the lowest address (R78); none for the steps that have no encoding. -/
def encode (i : Instr) : List Byte :=
  match i.shape, i.fields with
  | some sh, some f => natToBytes 8 (wordOf sh f).toNat ++ f.ext.bytes
  | _, _ => []

/-- The host's entry: the instruction whose bits, numbered from the first byte up, are `w`; bits above `nbits` are 0. -/
def decodeTableWord (nbits w : Nat) : Option Instr :=
  match decode (natToBytes 16 (w % 2 ^ nbits)) with
  | .ok i => some i
  | .error _ => none

end Sys2Proof
end

