-- ==== Sys2Proof/Machine/Types.lean ====
section
/-! DEFINITION. The parts of the machine's state: strands, tiles, clusters, launches, VFs, messages, links and the trusted state. -/

namespace Sys2Proof.Machine

/-- What a strand is doing (R18, R187, R190, R191, R206, R353). A frozen strand counts as parked. -/
inductive Run where
  | free | running | waiting | parked | frozen
deriving DecidableEq, Repr

/-- One span level (R226). -/
structure Span where
  openAt  : Word := 0
  minimum : Word := 0
  maximum : Word := 0
  handler : Word := 0
  bound   : Word := 0
deriving DecidableEq, Repr

/-- A timeline record (R183); `state` is 1 pending, 2 complete, 3 failed. -/
structure TlRec where
  num   : Nat
  state : Nat
  flags : BitVec 5 := 0
  fmode : Bool := false
  far   : Bool := false
  rep   : Bool := false
  addr  : Word := 0
deriving DecidableEq, Repr

/-- A timeline counter: the last number issued and the records still kept (R181, R183). -/
structure Timeline where
  last : Nat := 0
  recs : List TlRec := []
deriving DecidableEq, Repr

/-- The register a long-class instruction writes (R21). -/
inductive Dest where
  | none | x (n : Nat) | xPair (n : Nat) | v (n : Nat) | la
deriving DecidableEq, Repr

/-- How the bytes that came back become the register's value: as they are; a scalar read in a format (R157); lanes under a
mask over the register's old or zeroed contents (R158, R159); a pair (R170). -/
inductive Finish where
  | value
  | scalar (fmt : Nat)
  | lanes (active : Word) (base : VReg)
  | pair
deriving DecidableEq, Repr

/-- An outstanding long-class or answered instruction (R21, R23, R186). -/
structure LongOp where
  id       : Nat
  dest     : Dest
  remote   : Bool := false
  answered : Bool := false
  atomic   : Bool := false
  /-- the narrowest fence scope that covers a home of it (R202); 9 where it is no access -/
  cover    : Nat := 9
  /-- answers still to come -/
  waiting  : Nat := 0
  data     : VReg := 0
  /-- the members' data of a replica load (R343) -/
  members  : List VReg := []
  finish   : Finish := .value
  flags    : BitVec 5 := 0
  /-- uncorrectable data: its violation kind and address (R354, R358) -/
  bad      : Option (Nat × Nat) := none
  /-- scope of an `ld.acq` (R161) -/
  acquire  : Option Nat := none
  /-- tag, virtual address and size whose clean bytes an `ld.acq` drops -/
  drop     : Option (Nat × Nat × Nat) := none
deriving DecidableEq, Repr

/-- A posted store, writeback or task message not yet acknowledged, or rejected and not yet reported (R163, R197). -/
structure Posted where
  id       : Nat
  addr     : Word
  cover    : Nat
  task     : Bool := false
  rejected : Bool := false
  /-- it is a line writeback (R164) -/
  wb       : Bool := false
  /-- it is charged to a strand that ran in the slot before (R163) -/
  old      : Bool := false
deriving DecidableEq, Repr

/-- One end of a copy or the place of a stream: a local-store address, an offset under a handle entry, an operand slot. -/
inductive Place where
  | store (addr : Nat)
  | handle (index : Nat) (entry : BitVec 256) (offset : Nat)
  | slot (n : Nat)
deriving DecidableEq, Repr

/-- An element read by the copy engine: its bits, the address recorded if its copy fails or freezes the engine at it (R175, R353),
whether its read failed, the uncorrectable mark, and the flags of a replica sum (R343). -/
structure CopyElem where
  bits  : Nat
  va    : Nat := 0
  lost  : Bool := false
  bad   : Option (Nat × Nat) := none
  flags : BitVec 5 := 0
deriving DecidableEq, Repr

/-- The translation walk that a strand or an element of its engine waits for (R22, R310): the walker of its die in whose queue it stands, none where its
cluster's cache has the page, and its number there, which merged misses share; `failed` when it ended in a fault, `barred` with the violation kind and
the address when it ended in a freeze of the engine. -/
structure Walk where
  tag    : Nat
  va     : Nat
  failed : Bool := false
  walker : Option Nat := none
  stamp  : Nat := 0
  /-- it is for a pool handle (R153) -/
  pool   : Bool := false
  barred : Option (Nat × Nat) := none
deriving DecidableEq, Repr

/-- A copy in its strand's queue (R171 to R175). -/
structure CopyOp where
  num   : Nat
  /-- messages of the strand older than this stay ahead of its reads (R248) -/
  stamp : Nat
  tag   : Nat
  src   : Place
  dst   : Place
  rows  : Nat
  rl    : Nat
  ss    : Int
  ds    : Int
  sf    : Nat
  df    : Nat
  mode  : Nat
  sat   : Bool
  fmode : Bool
  seed  : Word
  srcnt : Word
  bank  : Option Nat
  far   : Bool
  /-- the issuing strand has not halted since (R39) -/
  live  : Bool := true
  row   : Nat := 0
  elem  : Nat := 0
  writing : Bool := false
  buf   : List CopyElem := []
  flags : BitVec 5 := 0
  /-- a held pool element: its virtual address (R311) -/
  held  : Option Word := none
  /-- a RESUME, or a REFUSE, waits for its effect on it (R337) -/
  resumed : Bool := false
  refused : Bool := false
  /-- what the members of a replica have answered for the element being read (R343) -/
  members : List CopyElem := []
  /-- the walk that its element waits for (R310) -/
  walk    : Option Walk := none
deriving DecidableEq, Repr

/-- An element in a stream port (R178). -/
structure PortElem where
  index : Nat
  data  : VReg
  bad   : Option Word := none
  /-- the buffer holds an uncorrectable word of it (R357, R358) -/
  spoilt : Bool := false
deriving DecidableEq, Repr

/-- A stream port q0 to q3 (R176 to R179). -/
structure Port where
  isOpen  : Bool := false
  out     : Bool := false
  base    : Place := .store 0
  tag     : Nat := 0
  n0      : Nat := 0
  n1      : Nat := 0
  stride0 : Int := 0
  stride1 : Int := 0
  next    : Nat := 0
  fetch   : Nat := 0
  buf     : List PortElem := []
  stamp   : Nat := 0
  /-- the parts fetched of the element being fetched (R242), member after member of a replica, and the first uncorrectable one -/
  got     : List Byte := []
  gotBad  : Option (Nat × Nat) := none
  /-- the walk that its element waits for (R310) -/
  walk    : Option Walk := none
deriving DecidableEq, Repr

/-- What an output port still has to do, in order: write an element, of which `done` bytes are written (R242) and which is uncorrectable where `bad`
(R358), or complete a flush or
close (R179). -/
inductive DrainItem where
  | elem (port : Nat) (place : Place) (shift : Int) (tag : Nat) (data : VReg) (done : Nat) (bad : Bool := false)
  | mark (port : Nat) (num : Nat) (live : Bool)
deriving DecidableEq, Repr

/-- A strand's state (R16, file 01). -/
structure Strand where
  run     : Run := .free
  pc      : BitVec 32 := 0
  x       : Map Word := []
  v       : Map VReg := []
  k       : Map Word := []
  w       : Map (BitVec 16) := []
  /-- the six words of LA (R47) -/
  la      : LongWord := 0
  /-- its five carry counts, C_1 lowest -/
  laCarry : BitVec 80 := 0
  status  : Word := 0
  seed    : Word := 0
  srcnt   : Word := 0
  ovh     : Word := 0
  tvb     : Word := 0
  epc     : Word := 0
  cause   : Word := 0
  badaddr : Word := 0
  tbr     : Word := 0
  depth   : Nat := 0
  hp      : BitVec 4 := 0
  esc     : BitVec 4 := 0
  thr     : Bool := false
  spans   : Map Span := []
  tlc     : Timeline := {}
  tlm     : Timeline := {}
  tle     : Timeline := {}
  tlg     : Timeline := {}
  ports   : Map Port := []
  drains  : List DrainItem := []
  /-- the walk that the first of them waits for (R310) -/
  drainWalk : Option Walk := none
  /-- failed drains not yet reported: port and address (R179, R180) -/
  drainBad : List (Nat × Word) := []
  longs   : List LongOp := []
  posted  : List Posted := []
  /-- the scope of a fence or release in progress whose writeback is done (R162, R202) -/
  fence   : Option Nat := none
  /-- writebacks of the tile below this number are those it waits for -/
  fenceAt : Nat := 0
  /-- the DT instant at which a held `hy.wait` issued (R201) -/
  hyIssue : Option Word := none
  /-- the cycle at which a waiting strand entered `tk.wait` (R286) -/
  waitAt  : Nat := 0
  /-- the current task (R191) -/
  task    : Option Nat := none
  copies  : List CopyOp := []
  walk    : Option Walk := none
  broken  : Bool := false
  /-- one more than the cycle of the last instruction it issued; 0 before the first (R224) -/
  issuedAt : Nat := 0
  /-- one more than the cycle in which it started or was dispatched: it does not issue in that cycle (R19) -/
  startedAt : Nat := 0
  /-- the barrier that a held `hy.wait` waits for, and whether its phase has completed since the wait issued (R201) -/
  hyKey   : Nat := 0
  hyPassed : Bool := false
deriving DecidableEq, Repr

/-- An operand slot (R135). -/
structure OSlot where
  mem     : Memory := []
  owner   : Option Nat := none
  release : Bool := false
deriving DecidableEq, Repr

/-- What an array operation does (R138). -/
inductive ArrayKind where
  /-- `form` 0 `m.mma`, 1 `m.mms`, 2 `m.mmt`; formats of A and B, slots, bank, CLR, trellis S and V -/
  | multiply (form fa fb oa ob cb : Nat) (clr : Bool) (ts tv : Nat)
  | compress (fmt d a : Nat)
  | zero (bank : Nat)
  | write (bank idx : Nat) (data : VReg)
deriving DecidableEq, Repr

/-- An operation in the array queue (R138, R140). -/
structure ArrayOp where
  slot  : Nat
  num   : Nat
  kind  : ArrayKind
  mode  : Nat := 0
  sat   : Bool := false
  fmode : Bool := false
  seed  : Word := 0
  srcnt : Word := 0
  live  : Bool := true
deriving DecidableEq, Repr

/-- Where an access or a task message is performed (R240, R279). -/
inductive Home where
  | tile (n : Nat)
  | channel (n : Nat)
  | fabric (dev : Nat)
  | hoist (cluster : Nat)
deriving DecidableEq, Repr

/-- A place at a home with the translation that led there: the virtual address, the page's table entry where the page is logged (R329), and log2 of the
page's size (R309). -/
structure Spot where
  home : Home
  addr : Nat
  va   : Nat := 0
  leaf : Option Nat := none
  page : Nat := 16
deriving DecidableEq, Repr

/-- A line of the L1 (R164). `tag` names its context: VF × 8 + context, or, through a fabric handle, 1,024 + the place of its device and context
(R240, R340). -/
structure L1Line where
  tag    : Nat
  line   : Nat
  home   : Home
  pa     : Nat
  leaf   : Option Nat := none
  /-- log2 of the page that its translation gave (R309) -/
  page   : Nat := 16
  /-- the page was withdrawn since (R363) -/
  withdrawn : Bool := false
  data   : BitVec 1024
  valid  : BitVec 128
  dirty  : BitVec 128
  /-- the slot that last wrote a byte of it (R163) -/
  writer : Nat
  /-- bytes that are uncorrectable (R358) -/
  bad    : BitVec 128 := 0
deriving DecidableEq, Repr

/-- A translation cache entry (R309, R310); `bits` is log2 of the page size, `leaf` the place of its table entry. -/
structure TlbEntry where
  tag  : Nat
  page : Nat
  bits : Nat
  pa   : Nat
  rd   : Bool
  wr   : Bool
  log  : Bool
  d    : Bool
  leaf : Nat
  /-- it holds an uncorrectable word (R358) -/
  bad  : Bool := false
deriving DecidableEq, Repr

/-- Where a tile stands in pre-emption (R233, R323): the deferral has its limit; `expired` when the limit has passed; `saving` from the
save instant on; `saved` when the state is in the save area. -/
inductive Preempt where
  | running
  | deferring (limit : Word)
  | expired
  | saving
  | saved
deriving DecidableEq, Repr

/-- What a message asks for or carries. `post` numbers a posted store, `op` an outstanding operation of the source strand. A read
puts `size` bytes at byte `pos` of the operation's data, or of a replica member's (counted from 1; 0 for none); `units` has
bit k where the 4 bytes from 4k are asked for. -/
inductive Body where
  | read (op pos size member : Nat) (units : Word)
  /-- a line fill (R164): tag and line number; `takes` are the bytes the load needs: place in its data, place in the line, size -/
  | fill (op tag line : Nat) (takes : List (Nat × Nat × Nat))
  /-- `kind` as the race ring names it (R256) -/
  | write (post kind : Nat) (data : List Byte)
  /-- the dirty bytes of an L1 line (R164) -/
  | writeback (post : Nat) (data : BitVec 1024) (mask : BitVec 128)
  | writeCmp (post : Nat) (data expect : List Byte)
  /-- `sub` of R94; 9 for `at.cas2` -/
  | atomic (op sub fmt b c : Nat)
  | spawn (op : Nat) (pc : BitVec 32) (x1 x2 x3 x4 x5 : Word) (rm : Nat) (fmode : Bool)
  | lnGo (op launch x y lw lh : Nat) (pc : BitVec 32) (x1 x2 : Word) (rm : Nat) (fmode : Bool)
  | push (op launch index key : Nat)
  | taskEnd (launch index : Nat)
  | gain (post launch index sub b mode : Nat) (seed srcnt : Word)
  | depDec (post launch index : Nat)
  | stealRequest (launch thief : Nat)
  /-- `item` is the record as it was sent (R288) -/
  | stolen (launch index key item : Nat)
  | stealAck (launch index : Nat)
  | stealRefuse (launch index : Nat)
  | stealNone (launch : Nat)
deriving DecidableEq, Repr

/-- A message in flight. `src` is tile × 8 + slot of the source strand (R222), `addr` the offset or physical address at the
home (a virtual address at a remote device), `va`, `tag` and `page` (log2 of its size) the translation it passed (R363), `leaf` the page's table
entry where the page is logged (R329). -/
structure Msg where
  id        : Nat
  src       : Nat
  home      : Home
  addr      : Nat
  va        : Nat := 0
  tag       : Option Nat := none
  leaf      : Option Nat := none
  page      : Nat := 16
  withdrawn : Bool := false
  /-- the sources that its home has served since it arrived there and waits as its source's earliest request (R222) -/
  passed    : List Nat := []
  /-- it goes through a cacheable handle: its tile's L1 has or had the line of its bytes (R164, R247) -/
  line      : Bool := false
  /-- where its bytes go on, after so many of them, when they reach another page (R308, R309) -/
  cut       : Option (Nat × Spot) := none
  body      : Body
deriving DecidableEq, Repr

/-- An acknowledgment on its way to the strand that posted the store or task message (R163, R197). -/
structure Ack where
  id       : Nat
  src      : Nat
  post     : Nat
  rejected : Bool
  task     : Bool
deriving DecidableEq, Repr

/-- A block for the Viterbi engine (R148). -/
structure EncOp where
  tile : Nat
  slot : Nat
  num  : Nat
  ta   : Nat
  da   : Nat
  ts   : Nat
  tv   : Nat
  live : Bool := true
deriving DecidableEq, Repr

/-- What came for a tile after its save instant (R323): a request to its home, the result of a strand's operation, an acknowledgment. -/
inductive Spilled where
  | request (m : Msg)
  | result (slot op : Nat)
  | ack (a : Ack)
deriving DecidableEq, Repr

/-- A tile's state (R16). -/
structure Tile where
  store     : Memory := []
  /-- the launch that holds the tile (R212) -/
  launch    : Option Nat := none
  xb        : Nat := 0
  scr       : Nat := 0
  race      : Bool := false
  slots     : Map OSlot := []
  banks     : Map (BitVec 32) := []
  hist      : Map (BitVec 32) := []
  hbase     : Map (BitVec 16) := []
  array     : List ArrayOp := []
  /-- the cycle before which the operation at the head of the queue does not complete (R138) -/
  arrayDue  : Nat := 0
  copyFrozen : Option Word := none
  l1        : List L1Line := []
  tlb       : List TlbEntry := []
  /-- phase P in bit 0 and arrival ARR in bit 1, per (lh, lw, id) (R200) -/
  halyard   : Map (BitVec 2) := []
  raceSeq   : BitVec 32 := 0
  /-- the `ln.go` message that has reserved the tile's slots (R199) -/
  lnGo      : Option Nat := none
  /-- one more than the cycle in which an `ln.go` last started its strand 0, and that of the last grant to a spawn (R218) -/
  lnGoAt    : Nat := 0
  spawnAt   : Nat := 0
  preempt   : Preempt := .running
  spill     : List Spilled := []
  /-- the blocks withdrawn from the encode queue while the tile is saved (R150) -/
  encodes   : List EncOp := []
deriving DecidableEq, Repr

/-- Where a task stands (R281). -/
inductive TaskState where
  | idle | queued | lent | running | retired
deriving DecidableEq, Repr

/-- A task at its home hoist: key of R282, pending gain (fp32 bits), pushed key, level 0 resident, 1 spilled, 2 overflowed. -/
structure Task where
  state  : TaskState := .idle
  key    : Nat := 0
  gain   : Nat := 0
  pushed : Option Nat := none
  level  : Nat := 0
  /-- the place of its entry in the spill area (R282) -/
  spillAt : Option Nat := none
  /-- marked by a reset of the tenant's VF (R327) -/
  killed : Bool := false
deriving DecidableEq, Repr

/-- A line of a memory-side cache bank (R2, R315): the physical address / 128, and whether it is newer than the memory behind it. -/
structure BankLine where
  line  : Nat
  dirty : Bool := false
deriving DecidableEq, Repr

/-- A handle-cache entry (R306). -/
structure HcEntry where
  tag   : Nat
  index : Nat
  entry : BitVec 256
  /-- it holds an uncorrectable word (R358) -/
  bad   : Bool := false
deriving DecidableEq, Repr

/-- A cluster's state: hoist, Viterbi engine, caches (R281, R148, R306, R310). -/
structure Cluster where
  tasks     : Map Task := []
  /-- the last published first resident key (R287); none before the first publication, `some none` for "none" -/
  published : Option (Option Nat) := none
  /-- one more than the epoch of the last publication; 0 before the first -/
  pubAt     : Nat := 0
  stealing  : Bool := false
  /-- the epoch of the last steal that was answered none (R288) -/
  refusedAt : Option Nat := none
  encoder   : List EncOp := []
  /-- the targets of the block in progress (R149) -/
  targets   : Option (List (BitVec 32)) := none
  tlb       : List TlbEntry := []
  handles   : List HcEntry := []
  retired   : Bool := false
  retiring  : Bool := false
  /-- its hoist's heap or residual holds an uncorrectable word (R358) -/
  bad       : Bool := false
deriving DecidableEq, Repr

/-- Termination of a task launch (R292): running; stopped, with the epoch whose combine decides once drained; closed. -/
inductive Term where
  | running
  | stopped (final : Option Nat)
  | closed
deriving DecidableEq, Repr

/-- A snapshot of one hoist's part of the residual (R291). -/
structure Snapshot where
  epoch   : Nat
  cluster : Nat
  part    : LongWord
deriving DecidableEq, Repr

/-- A running or starting launch (R212, R216, R334). -/
structure Launch where
  vf      : Nat := 0
  number  : BitVec 32 := 0
  ctx     : Nat := 0
  ox      : Nat := 0
  oy      : Nat := 0
  lw      : Nat := 0
  lh      : Nat := 0
  scr     : Nat := 0
  xb      : Nat := 0
  entry   : BitVec 32 := 0
  fmode   : Bool := false
  seed    : Word := 0
  tbr     : BitVec 32 := 0
  tolM    : Nat := 0
  tolE    : Int := 0
  /-- the task table's handle index, where the launch names one -/
  tasks   : Option Nat := none
  deadline : Bool := false
  race    : Bool := false
  table   : Bool := false
  started : Bool := false
  startAt : Nat := 0
  stall   : Nat := 0
  stalled : Bool := false
  faulted : Bool := false
  /-- it has ended; its parked strands stay readable until the tiles are next launched into (R219) -/
  ended   : Bool := false
  term    : Term := .running
  /-- combines up to this epoch no longer stop the launch (R292) -/
  skipTo  : Nat := 0
  snaps   : List Snapshot := []
  /-- a task message was under way at the snapshots of the epoch that decides, or has been issued since (R292, R299; log 35) -/
  touched : Bool := false
deriving DecidableEq, Repr

/-- A command running for a VF (R337). -/
structure Command where
  op   : Nat
  tile : Nat
  ctx  : Nat
  /-- its completion condition has been set up; the messages that a translation invalidation waits for -/
  wait : List Nat := []
deriving DecidableEq, Repr

/-- A reset of a VF in progress (R326): the DT at which the drain ends, and whether the state has been cleared. -/
structure VfReset where
  until_  : Word
  cleared : Bool
deriving DecidableEq, Repr

/-- A virtual function: its configuration (R303), launch queue, registers (R333) and commands (R337). -/
structure Vf where
  clusters : BitVec 64 := 0
  banks    : BitVec 384 := 0
  channels : BitVec 384 := 0
  viterbi  : BitVec 64 := 0
  fabric   : BitVec 96 := 0
  minima   : Map Nat := []
  defer    : Nat := 20000
  weight   : Nat := 16
  deficit  : Int := 0
  tableGen : Nat := 0
  launchNo : BitVec 32 := 0
  contexts : Map Nat := []
  targets  : Map Word := []
  groups   : Map (List Nat) := []
  lqbase   : Word := 0
  /-- the host port on which LQBASE was last written: 0 for A, 1 for B (R331) -/
  lqPort   : Nat := 0
  lqtail   : BitVec 32 := 0
  lqhead   : BitVec 32 := 0
  evq      : Word := 0
  log      : Word := 0
  ien      : Word := 0
  wctx     : Word := 0
  cmda     : Word := 0
  cmdb     : Word := 0
  cmdc     : Word := 0
  /-- a logged write has found the log full, and CODE 8 is posted for it (R329) -/
  logFull  : Bool := false
  cmdLost  : Bool := false
  cmdErr   : Bool := false
  command  : Option Command := none
  reset    : Option VfReset := none
  frozen   : Bool := false
  /-- an FLR has completed since the VF was frozen (R353) -/
  flrDone  : Bool := false
  /-- pooled channels to which its clusters issue copy elements at half rate (R317) -/
  halfRate : List Nat := []
  /-- MSI-X vector 0 raised so often (R333) -/
  interrupts : Nat := 0
deriving DecidableEq, Repr

/-- A Ghemal Link port (R338, R339). -/
structure LinkPort where
  down     : Bool := false
  frozen   : Bool := false
  /-- the sequence number of the next flit to deliver -/
  expect   : BitVec 8 := 0
  /-- how often in a row that flit has arrived with a bad CRC -/
  failures : Nat := 0
  /-- a retransmission has been asked for and its first flit has not come (R338) -/
  nak      : Bool := false
  delivered : List (BitVec 1920) := []
  /-- what requests of other devices were answered: the bytes read and the flags of an atomic, none where refused (R340) -/
  answers   : List (Option (List Byte × BitVec 5)) := []
  /-- the repair table retires it (R345) -/
  retired   : Bool := false
  /-- the sequence number of the next flit sent; the messages sent and not yet acknowledged, oldest first: the first 256 are in the replay
  buffer (R338) -/
  sendSeq   : BitVec 8 := 0
  out       : List (BitVec 8 × Nat) := []
  /-- how often in a row the oldest of them has had to be sent again, and when the port has retried (R338, R361) -/
  sendFails : Nat := 0
  retries   : List Word := []
deriving DecidableEq, Repr

/-- What the F4 answers over SPDM (R352). -/
inductive Spdm where
  /-- the versions, major and minor -/
  | version (versions : List (Nat × Nat))
  /-- the requests that are supported, by their codes -/
  | capabilities (requests : List Nat)
  /-- the algorithm chosen of those offered -/
  | algorithms (chosen : Option Algorithm)
  | digests (cert : BitVec 384)
  | certificate (slot : Nat) (chain : List Byte)
  | challengeAuth (slot : Nat) (nonce : BitVec 256) (signature : BitVec 768)
  | measurements (index : Nat) (blocks : List (Nat × List Byte)) (signature : BitVec 768)
  | unsupported (code : Nat)
deriving DecidableEq, Repr

/-- The trusted part of the machine (R345 to R361). -/
structure Trust where
  /-- the boot stage completed, 0 before stage 1 (R345) -/
  stage     : Nat := 0
  recovery  : Bool := false
  pfReady   : Bool := false
  flashA    : List Byte := []
  flashB    : List Byte := []
  /-- management firmware images offered at the management port and by the boot peer (R345) -/
  mgmtImage : List Byte := []
  peerImage : List Byte := []
  partHeader : List Byte := []
  fwHeader   : List Byte := []
  /-- blown thermometer bits and revoked slots per KIND (R348) -/
  fusedSvn  : Map Nat := []
  revoked   : Map (BitVec 4) := []
  secret    : BitVec 384 := 0
  repair    : List Failing := []
  repairMac : BitVec 384 := 0
  /-- the links of the mesh that this boot has left out of service (R361) -/
  meshDown  : BitVec 2048 := 0
  /-- Crivis reports the device as needing service (R361) -/
  needsService : Bool := false
  /-- the security core has failed: every master is frozen until power-on reset (R358) -/
  dead      : Bool := false
  ring      : Map (BitVec 256) := []
  seq       : Nat := 0
  frozenCores : BitVec 4 := 0
  /-- the instants of the last 24 hours' corrected errors per row, and uncorrectable words per channel or tile (R357, R360) -/
  corrected : Map (List Word) := []
  uncorrected : Map (List (Word × Scrub)) := []
  /-- when each link of the mesh has retried in the last 24 hours (R356, R361) -/
  meshRetries : Map (List Word) := []
  /-- entries of the corrected-error log with an uncorrectable mark (R357) -/
  scrubLog  : List Scrub := []
  responses : List Spdm := []
  readback  : List (Word × Bool) := []
  retryAt   : Word := 0
deriving DecidableEq, Repr

/-- A request for a lower clock that waits (R27): the die, the frequency, the DT at which it was made. -/
structure Throttle where
  die  : Nat
  mhz  : Nat
  at_  : Word
  hard : Bool
deriving DecidableEq, Repr

end Sys2Proof.Machine
end

