-- ==== Sys2Proof/Machine/State.lean ====
section
/-! DEFINITION. The state of the package, its reasons to stop (none) and its reset value. -/

namespace Sys2Proof.Machine

/-- Reasons for which the machine stops. The spec gives every behaviour of the F4 an effect (a trap, a parked strand, a freeze,
an event), so no meaning raises a fault and the type has no constructor: safe. -/
inductive Fault where
deriving DecidableEq, Repr

/-- Reasons for which an instruction has no meaning. -/
inductive Refusal where
  /-- An arm of `exec` that has no meaning yet, by the mnemonic of the opcode table; raised by `exec` only. Safe. -/
  | notModelled (mnemonic : String)
deriving DecidableEq, Repr

/-- The state of the whole package. -/
structure State where
  /-- arithmetic cycles since power-on (R17) -/
  cycle    : Nat := 0
  /-- device time in 1/36 ns (R25; log 5) -/
  dt36     : Nat := 0
  /-- the arithmetic clock in MHz (R26, R27) -/
  mhz      : Nat := 600
  /-- throttle requests waiting (R27) -/
  throttles : List Throttle := []
  /-- strands by tile × 8 + slot (R16) -/
  strands  : Map Strand := []
  /-- tiles by package index (R11, R16) -/
  tiles    : Map Tile := []
  clusters : Map Cluster := []
  /-- launches by a key of the model: VF × 2^32 + launch number (R216) -/
  launches : Map Launch := []
  vfs      : Map Vf := []
  /-- the VF last served by the launch engine (R316) -/
  served   : Nat := 95
  /-- device memory and the pool by physical address (R309) -/
  mem      : Memory := []
  /-- 8-byte words holding uncorrectable data or locked in a cache bank (R358): address / 8, with the violation kind -/
  badWords : Map Nat := []
  /-- the lines that the bank of each channel's memory-side cache holds, oldest first (R2, R315) -/
  banks    : Map (List BankLine) := []
  /-- channels that no longer serve (R361) and channels in the shared pool (R315) -/
  retired  : BitVec 384 := 0
  pooled   : BitVec 384 := 0
  /-- channels that were in the pool when they were retired (R318, R361) -/
  lostPool : BitVec 384 := 0
  /-- cache banks in the shared pool (R315) -/
  pooledBanks : BitVec 384 := 0
  /-- the mode of host port B: the pool's range is mapped in pool mode alone (R331, R332) -/
  portB    : PortMode := .off
  /-- port B's link to the pool is down (R332) -/
  poolDown : Bool := false
  /-- host memory by host port × 2^64 + IOVA, port A being 0 (R331, R333) -/
  hostMem  : Memory := []
  /-- results of host reads, newest last (R333) -/
  hostReads : List (List Byte) := []
  /-- remote devices' memory by device × 2^64 + virtual address as our requests name it (log 13) -/
  remote   : Memory := []
  net      : List Msg := []
  acks     : List Ack := []
  links    : Map LinkPort := []
  /-- id of this device on Ghemal Link (R333) -/
  linkId   : BitVec 16 := 0
  trust    : Trust := {}
  /-- the model's own: what the step in progress acts on (log 1) -/
  arg      : Args := {}
  /-- the model's own: the steps still to come before the default order resumes: steps of other agents, and turns of the strands, for
  which any other entry stands (log 1) -/
  agenda   : List (Instr × Args) := []
  /-- the model's own: the strand whose slot is at hand, tile × 8 + slot -/
  cur      : Nat := 0
  /-- the model's own: the first tile not yet visited in this cycle (log 1) -/
  cursor   : Nat := 0
  /-- the model's own: the number of the next message or operation (log 1) -/
  fresh    : Nat := 0
deriving DecidableEq, Repr

/-- The package right after power-on reset, before the boot of R345 has run. -/
def State.reset : State := {}

/-- The state with one strand changed. -/
def State.setStrand (s : State) (i : Nat) (r : Strand) : State := { s with strands := mapPut {} s.strands i r }
/-- The state with one tile changed. -/
def State.setTile (s : State) (i : Nat) (t : Tile) : State := { s with tiles := mapPut {} s.tiles i t }
def State.setCluster (s : State) (i : Nat) (c : Cluster) : State := { s with clusters := mapPut {} s.clusters i c }
def State.setLaunch (s : State) (i : Nat) (l : Launch) : State := { s with launches := mapPut {} s.launches i l }
def State.setVf (s : State) (i : Nat) (v : Vf) : State := { s with vfs := mapPut {} s.vfs i v }
def State.setLink (s : State) (i : Nat) (p : LinkPort) : State := { s with links := mapPut {} s.links i p }
def State.strand (s : State) (i : Nat) : Strand := mapGet {} s.strands i
def State.tile (s : State) (i : Nat) : Tile := mapGet {} s.tiles i
def State.cluster (s : State) (i : Nat) : Cluster := mapGet {} s.clusters i
def State.launch (s : State) (i : Nat) : Launch := mapGet {} s.launches i
def State.vf (s : State) (i : Nat) : Vf := mapGet {} s.vfs i
def State.link (s : State) (i : Nat) : LinkPort := mapGet {} s.links i

end Sys2Proof.Machine
end

