-- ==== Sys2Proof/Machine/Flags.lean ====
section
/-! DEFINITION. The floating-point flags and the STATUS register (R37 to R40, file 02). -/

namespace Sys2Proof.Machine

/-- Flags in the order of STATUS[4:0] (R37): NV 1, DZ 2, OF 4, UF 8, NX 16. -/
abbrev Flags := BitVec 5

def flagNV : Flags := 1
def flagDZ : Flags := 2
def flagOF : Flags := 4
def flagUF : Flags := 8
def flagNX : Flags := 16

/-- The flags of a list of results: the OR over all of them (R39). -/
def orFlags : List Flags → Flags
  | [] => 0
  | f :: r => f ||| orFlags r

/-- R39: flags are ORed into STATUS. -/
def statusOr (status : Word) (f : Flags) : Word := status ||| f.zeroExtend 64

/-- STATUS.LAOVF (R37, R48). -/
def statusLaOvf (status : Word) : Word := status ||| 0x800#64

/-- STATUS.RM. -/
def statusRm (status : Word) : Nat := (status.extractLsb' 8 3).toNat

/-- STATUS.FMODE (R34). -/
def statusFmode (status : Word) : Bool := status.getLsbD 7

/-- A STATUS with RM and FMODE and every sticky bit clear (R38). -/
def statusStart (rm : Nat) (fmode : Bool) : Word :=
  (BitVec.ofNat 64 (rm % 8) <<< 8) ||| (if fmode then 0x80#64 else 0#64)

/-- R40: code 111 takes the mode in STATUS.RM. -/
def resolveMode (status : Word) (rm : BitVec 3) : Nat := if rm = 7 then statusRm status else rm.toNat

/-- R37, R210: a write keeps reserved bits at zero, clears the W1C bits that it sets, and writes RM and FMODE; `none` where
RM would become 110 or 111. -/
def statusWrite (status value : Word) : Option Word :=
  if 6 ≤ (value.extractLsb' 8 3).toNat then none
  else some ((status &&& ~~~value &&& 0x81F#64) ||| (value &&& 0x780#64))

end Sys2Proof.Machine
end

