-- ==== Sys2Proof/Machine/Numbers.lean ====
section
/-! DEFINITION. Integer and floating formats, exact results, rounding and the random draw (R31 to R46, file 02). -/

namespace Sys2Proof.Machine

/-- The width in bits of a format code (R31, R33, R56). -/
def fmtWidth (c : Nat) : Nat :=
  if c = 0 ∨ c = 1 ∨ c = 13 ∨ c = 14 then 8
  else if c = 2 ∨ c = 3 ∨ c = 11 ∨ c = 12 ∨ c = 15 then 16
  else if c = 4 ∨ c = 5 ∨ c = 10 then 32
  else if c = 8 ∨ c = 9 then 4
  else 64

/-- Signed formats are the even integer codes (R31). -/
def fmtSigned (c : Nat) : Bool := c % 2 == 0

/-- A number's low `w` bits read in two's complement or as a natural. -/
def readInt (signed : Bool) (w v : Nat) : Int :=
  let u := v % 2 ^ w
  if signed && decide (2 ^ w ≤ 2 * u) then (u : Int) - (2 ^ w : Nat) else (u : Int)

/-- The low `w` bits of an exact integer. -/
def wrapInt (w : Nat) (i : Int) : Nat := (i % ((2 ^ w : Nat) : Int)).toNat

/-- R31: the limits of an integer format of width `w`. -/
def intMin (signed : Bool) (w : Nat) : Int := if signed then -((2 ^ (w - 1) : Nat) : Int) else 0
def intMax (signed : Bool) (w : Nat) : Int := if signed then ((2 ^ (w - 1) : Nat) : Int) - 1 else ((2 ^ w : Nat) : Int) - 1

/-- sat(x, fmt). -/
def satInt (signed : Bool) (w : Nat) (i : Int) : Int :=
  if i < intMin signed w then intMin signed w else if intMax signed w < i then intMax signed w else i

/-- A value read in an integer format code, or in tv, a 10-bit integer in its container (R56). -/
def readFmtInt (c v : Nat) : Int := if c = 15 then readInt true 10 v else readInt (fmtSigned c) (fmtWidth c) v

/-- An exact integer delivered in a format code: saturated under S, else its low bits (R32). -/
def deliverInt (c : Nat) (s : Bool) (i : Int) : Nat :=
  wrapInt (fmtWidth c) (if s then satInt (fmtSigned c) (fmtWidth c) i else i)

/-- A `w`-bit result extended into 64 bits (R99). -/
def extend64 (signed : Bool) (w v : Nat) : Word := BitVec.ofInt 64 (readInt signed w v)

/-- A floating value, or an exact result: `fin` is (−1)^neg × m × 2^e, plus something below 2^e when `sticky`. -/
inductive FVal where
  | nan
  | inf (neg : Bool)
  | fin (neg : Bool) (m : Nat) (e : Int) (sticky : Bool)
deriving DecidableEq, Repr

/-- A floating format (R33): mantissa width, bias, the bits of its greatest finite value, and whether it has infinities. -/
structure FFmt where
  width  : Nat
  mant   : Nat
  bias   : Nat
  maxFin : Nat
  infs   : Bool
  nanBits : Nat
deriving DecidableEq, Repr

/-- R33, R34: the format of a code under FMODE. -/
def ffmt (c : Nat) (fmode : Bool) : FFmt :=
  if c = 16 then ⟨64, 52, 1023, 0x7FEFFFFFFFFFFFFF, true, 0x7FF8000000000000⟩
  else if c = 10 then ⟨32, 23, 127, 0x7F7FFFFF, true, 0x7FC00000⟩
  else if c = 11 then ⟨16, 10, 15, 0x7BFF, true, 0x7E00⟩
  else if c = 12 then ⟨16, 7, 127, 0x7F7F, true, 0x7FC0⟩
  else if c = 14 then ⟨8, 2, 15, 0x7B, true, 0x7E⟩
  else if fmode then ⟨8, 3, 7, 0x77, true, 0x7F⟩
  else ⟨8, 3, 7, 0x7E, false, 0x7F⟩

/-- R33, R34: the value of a bit pattern. -/
def readFloat (F : FFmt) (bits : Nat) : FVal :=
  let v := bits % 2 ^ F.width
  let neg := decide (2 ^ (F.width - 1) ≤ v)
  let mag := v % 2 ^ (F.width - 1)
  let E := mag / 2 ^ F.mant
  let M := mag % 2 ^ F.mant
  if F.maxFin < mag then
    if F.infs && M == 0 then .inf neg else .nan
  else if E = 0 then .fin neg M (1 - (F.bias : Int) - F.mant) false
  else .fin neg (2 ^ F.mant + M) ((E : Int) - F.bias - F.mant) false

def readFmt (c : Nat) (fmode : Bool) (bits : Nat) : FVal := readFloat (ffmt c fmode) bits

def signBit (F : FFmt) (neg : Bool) : Nat := if neg then 2 ^ (F.width - 1) else 0

/-- The bits of ±∞ where the format has it. -/
def infBits (F : FFmt) : Nat := F.maxFin + 1

/-- R44: the 24 random bits of a draw. -/
def draw (seed srcnt : Word) (l : Nat) : Nat :=
  let z := seed ^^^ (srcnt * 0x9E3779B97F4A7C15#64) ^^^ (BitVec.ofNat 64 l * 0xC2B2AE3D27D4EB4F#64)
  let z := (z ^^^ (z >>> 29)) * 0xBF58476D1CE4E5B9#64
  let z := (z ^^^ (z >>> 32)) * 0x94D049BB133111EB#64
  let z := z ^^^ (z >>> 29)
  (z >>> 40).toNat

/-- Whether a mode rounds toward zero for the sign (R41). -/
def towardZero (mode : Nat) (neg : Bool) : Bool := mode == 1 || (mode == 2 && !neg) || (mode == 3 && neg)

/-- R40, R44: whether the magnitude moves to the upper neighbour. `n` is the kept part, `rem` the `s` discarded bits, `r` the draw. -/
def roundsUp (mode : Nat) (neg : Bool) (n rem s : Nat) (sticky : Bool) (r : Nat) : Bool :=
  let inexact := rem != 0 || sticky
  if mode = 0 then 2 ^ s < 2 * rem || (2 * rem == 2 ^ s && s != 0 && (sticky || n % 2 == 1))
  else if mode = 2 then neg && inexact
  else if mode = 3 then !neg && inexact
  else if mode = 4 then s != 0 && 2 ^ s ≤ 2 * rem
  else if mode = 5 then r < rem * 2 ^ 24 / 2 ^ s
  else false

/-- R39, R41: rounding a nonzero magnitude m × 2^e (plus `sticky`) to a format, with the flags. -/
def roundFin (F : FFmt) (mode : Nat) (s : Bool) (r : Nat) (neg : Bool) (m : Nat) (e : Int) (sticky : Bool) : Nat × Flags :=
  let E : Int := (Nat.log2 m : Int) + e
  let emin : Int := 1 - (F.bias : Int)
  let q : Int := (if E < emin then emin else E) - F.mant
  let sh : Nat := (q - e).toNat
  let m' := m * 2 ^ (e - q).toNat
  let n := m' / 2 ^ sh
  let rem := m' % 2 ^ sh
  let inexact := rem != 0 || sticky
  let n' := if roundsUp mode neg n rem sh sticky r then n + 1 else n
  let bits := ((q + F.mant + F.bias - 1) * ((2 ^ F.mant : Nat) : Int)).toNat + n'
  if F.maxFin < bits then
    let v := if towardZero mode neg || s then F.maxFin + signBit F neg
      else if F.infs then infBits F + signBit F neg else F.nanBits
    (v, flagOF ||| flagNX)
  else
    (bits + signBit F neg, (if inexact then flagNX else 0) ||| (if inexact && decide (E < emin) then flagUF else 0))

/-- R35, R41: an exact result delivered in a format. A NaN result is the default NaN with NV; an infinite one keeps its sign,
and where the format has none it is replaced, with NV alone. -/
def deliver (F : FFmt) (mode : Nat) (s : Bool) (r : Nat) (x : FVal) : Nat × Flags :=
  match x with
  | .nan => (F.nanBits, flagNV)
  | .inf neg =>
    if F.infs then (infBits F + signBit F neg, 0)
    else (if s then F.maxFin + signBit F neg else F.nanBits, flagNV)
  | .fin neg m e sticky => if m = 0 && !sticky then (signBit F neg, 0) else roundFin F mode s r neg m e sticky

/-- The sign of a value. -/
def FVal.isNeg : FVal → Bool
  | .nan => false
  | .inf neg => neg
  | .fin neg _ _ _ => neg

def FVal.isNan : FVal → Bool
  | .nan => true
  | _ => false

def FVal.isZero : FVal → Bool
  | .fin _ m _ sticky => m == 0 && !sticky
  | _ => false

/-- The sign inverted; a NaN stays one. -/
def FVal.negate : FVal → FVal
  | .nan => .nan
  | .inf neg => .inf (!neg)
  | .fin neg m e k => .fin (!neg) m e k

/-- A signed integer times a power of two. -/
def scaledInt (neg : Bool) (m : Nat) : Int := if neg then -(m : Int) else (m : Int)

/-- R36, R114: the exact sum; a zero sum of opposite signs is −0 in rdn and +0 in every other mode. -/
def addVal (mode : Nat) : FVal → FVal → FVal
  | .nan, _ => .nan
  | _, .nan => .nan
  | .inf a, .inf b => if a = b then .inf a else .nan
  | .inf a, _ => .inf a
  | _, .inf b => .inf b
  | .fin na ma ea _, .fin nb mb eb _ =>
    if ma = 0 && mb = 0 then .fin (if na = nb then na else mode == 2) 0 0 false
    else if ma = 0 then .fin nb mb eb false
    else if mb = 0 then .fin na ma ea false
    else
      let e := if ea < eb then ea else eb
      let t := scaledInt na (ma * 2 ^ (ea - e).toNat) + scaledInt nb (mb * 2 ^ (eb - e).toNat)
      if t = 0 then .fin (mode == 2) 0 0 false
      else .fin (decide (t < 0)) t.natAbs e false

/-- R36, R114: the exact product; 0 × ∞ is invalid. -/
def mulVal : FVal → FVal → FVal
  | .nan, _ => .nan
  | _, .nan => .nan
  | .inf a, .inf b => .inf (a != b)
  | .inf a, .fin nb mb _ _ => if mb = 0 then .nan else .inf (a != nb)
  | .fin na ma _ _, .inf b => if ma = 0 then .nan else .inf (na != b)
  | .fin na ma ea _, .fin nb mb eb _ => .fin (na != nb) (ma * mb) (ea + eb) false

/-- The bits that a quotient or a root is computed to, beyond the widest format's 53 and the 24 of R44. -/
def quotientBits : Nat := 90

/-- R114: the quotient, and DZ for a finite nonzero value over zero. A zero or infinite quotient has the sign of the exclusive OR of the operands' signs,
which the spec gives for products alone (log 57). -/
def divVal : FVal → FVal → FVal × Flags
  | .nan, _ => (.nan, 0)
  | _, .nan => (.nan, 0)
  | .inf _, .inf _ => (.nan, 0)
  | .inf a, .fin nb _ _ _ => (.inf (a != nb), 0)
  | .fin na _ _ _, .inf b => (.fin (na != b) 0 0 false, 0)
  | .fin na ma ea _, .fin nb mb eb _ =>
    if mb = 0 then (if ma = 0 then (.nan, 0) else (.inf (na != nb), flagDZ))
    else if ma = 0 then (.fin (na != nb) 0 0 false, 0)
    else
      let k := quotientBits + Nat.log2 mb + 1 - Nat.log2 ma
      let t := ma * 2 ^ k
      (.fin (na != nb) (t / mb) (ea - eb - k) (t % mb != 0), 0)

/-- The integer square root, by bits from the top. -/
def isqrtGo (n : Nat) : Nat → Nat → Nat
  | 0, r => r
  | b + 1, r => isqrtGo n b (if (r + 2 ^ b) * (r + 2 ^ b) ≤ n then r + 2 ^ b else r)

def isqrt (n : Nat) : Nat := isqrtGo n (Nat.log2 n / 2 + 1) 0

/-- R114: the square root; −0 gives −0, a value below −0 is invalid. -/
def sqrtVal : FVal → FVal
  | .nan => .nan
  | .inf neg => if neg then .nan else .inf false
  | .fin neg m e _ =>
    if m = 0 then .fin neg 0 0 false
    else if neg then .nan
    else
      let k := 2 * quotientBits + (if e % 2 = 0 then 0 else 1)
      let t := m * 2 ^ k
      let r := isqrt t
      .fin false r ((e - k) / 2) (r * r != t)

/-- Comparison of two values that are not NaN: −0 and +0 are equal (R116). -/
def cmpVal (a b : FVal) : Ordering :=
  match a, b with
  | .inf na, .inf nb => if na = nb then .eq else if na then .lt else .gt
  | .inf na, _ => if na then .lt else .gt
  | _, .inf nb => if nb then .gt else .lt
  | .fin na ma ea _, .fin nb mb eb _ =>
    let e := if ea < eb then ea else eb
    compare (scaledInt na (ma * 2 ^ (ea - e).toNat)) (scaledInt nb (mb * 2 ^ (eb - e).toNat))
  | _, _ => .eq

/-- R117, R121: −0 orders below +0. -/
def lessVal (a b : FVal) : Bool :=
  match cmpVal a b with
  | .lt => true
  | .eq => a.isZero && b.isZero && a.isNeg && !b.isNeg
  | .gt => false

/-- An integer as an exact value. -/
def intVal (i : Int) : FVal := .fin (decide (i < 0)) i.natAbs 0 false

/-- R42: conversion to an integer format of width `w`. -/
def floatToInt (signed : Bool) (w mode r : Nat) (x : FVal) : Int × Flags :=
  match x with
  | .nan => (0, flagNV)
  | .inf neg => (if neg then intMin signed w else intMax signed w, flagNV)
  | .fin neg m e sticky =>
    let sh := (-e).toNat
    let m' := m * 2 ^ e.toNat
    let n := m' / 2 ^ sh
    let rem := m' % 2 ^ sh
    let n' := if roundsUp mode neg n rem sh sticky r then n + 1 else n
    let i := scaledInt neg n'
    if i < intMin signed w then (intMin signed w, flagNV)
    else if intMax signed w < i then (intMax signed w, flagNV)
    else (i, if rem != 0 || sticky then flagNX else 0)

/-- R93, R116: the floating conditions by their code of R93. With a NaN only `ne` and `un` hold; NV is raised. -/
def floatCond (cc : Nat) (a b : FVal) : Bool × Flags :=
  if a.isNan || b.isNan then (cc == 1 || cc == 10, flagNV)
  else
    let o := cmpVal a b
    let t :=
      if cc = 0 then o == .eq
      else if cc = 1 then o != .eq
      else if cc = 2 then o == .lt
      else if cc = 3 then o != .lt
      else if cc = 6 then o != .gt
      else if cc = 7 then o == .gt
      else cc == 11
    (t, 0)

/-- R93, R108: the integer conditions by their code: eq ne lt ge lo hs le gt ls hi, on `w`-bit patterns. -/
def intCond (cc w a b : Nat) : Bool :=
  let sa := readInt true w a
  let sb := readInt true w b
  let ua := a % 2 ^ w
  let ub := b % 2 ^ w
  if cc = 0 then ua == ub
  else if cc = 1 then ua != ub
  else if cc = 2 then sa < sb
  else if cc = 3 then sb ≤ sa
  else if cc = 4 then ua < ub
  else if cc = 5 then ub ≤ ua
  else if cc = 6 then sa ≤ sb
  else if cc = 7 then sb < sa
  else if cc = 8 then ua ≤ ub
  else ub < ua

end Sys2Proof.Machine
end

