-- ==== Sys2Proof/Machine/Trellis.lean ====
section
/-! DEFINITION. The trellis code (R53 to R55) and the exact search of the Viterbi engine (R149). -/

namespace Sys2Proof.Machine

/-- Values of a map at `n` keys from `i` up, when no key below `i` is listed. -/
def denseFrom {α : Type} (dflt : α) : Map α → Nat → Nat → List α
  | _, _, 0 => []
  | [], i, n + 1 => dflt :: denseFrom dflt [] (i + 1) n
  | (k, v) :: r, i, n + 1 => if k = i then v :: denseFrom dflt r (i + 1) n else dflt :: denseFrom dflt ((k, v) :: r) (i + 1) n

/-- The values of `n` keys from `i` up. -/
def mapRange {α : Type} (dflt : α) (m : Map α) (i n : Nat) : List α :=
  denseFrom dflt (m.dropWhile fun p => decide (p.1 < i)) i n

/-- The canonical map that lists values from key `i` up. -/
def packFrom {α : Type} [DecidableEq α] (dflt : α) : Nat → List α → Map α
  | _, [] => []
  | i, v :: r => if v = dflt then packFrom dflt (i + 1) r else (i, v) :: packFrom dflt (i + 1) r

/-- A map with the values of the keys from `i` up replaced. -/
def mapSetRange {α : Type} [DecidableEq α] (dflt : α) (m : Map α) (i : Nat) (vs : List α) : Map α :=
  (m.filter fun p => decide (p.1 < i)) ++ packFrom dflt i vs ++ m.filter fun p => decide (i + vs.length ≤ p.1)

/-! The code. -/

/-- R53: the number of steps, the stream bytes and the bytes of a block. -/
def trellisSteps (v : Nat) : Nat := 256 / v
def streamBytes (s v : Nat) : Nat := 256 / v * s / 8
def blockBytes (s v : Nat) : Nat := streamBytes s v + 8

/-- R54: the window of step j; the stream wraps at its end. -/
def windowAt (stream s v j : Nat) : Nat :=
  stream * (2 ^ (trellisSteps v * s) + 1) / 2 ^ (j * s) % 2 ^ 16

/-- R55: value0 of a window. -/
def windowValue0 (w : Nat) : Int :=
  let m := (w * 0x00019E37 + 0x7F4A3C6D) % 2 ^ 32
  ((m % 256 + m / 256 % 256 : Nat) : Int) - ((m / 65536 % 256 + m / 16777216 : Nat) : Int)

/-- R55: value `sel` of a window; value 1 is of the window rotated left by 8. -/
def windowValue (w sel : Nat) : Int :=
  if sel = 0 then windowValue0 w else windowValue0 (w % 256 * 256 + w / 256 % 256)

/-- R54: the value of weight i, unscaled. -/
def weightValue (stream s v i : Nat) : Int := windowValue (windowAt stream s v (i / v)) (i % v)

/-- R55: a weight as an exact value: value × 2^(E − 135), zero for E = 0. -/
def scaledWeight (val : Int) (e : Nat) : FVal :=
  if e = 0 ∨ val = 0 then .fin false 0 0 false else .fin (decide (val < 0)) val.natAbs ((e : Int) - 135) false

/-! The encoder. Targets and weights are integers in units of 2^−149, costs in units of 2^−298. -/

/-- The target of a finite fp32 pattern in units of 2^−149. -/
def targetUnits (t : BitVec 32) : Option Int :=
  match readFmt 10 false t.toNat with
  | .fin neg m e _ => some (scaledInt neg (m * 2 ^ (e + 149).toNat))
  | _ => none

/-- R149 step 2. -/
def groupScale (targets : List Int) : Nat :=
  let m := targets.foldl (fun a t => Nat.max a t.natAbs) 0
  if m = 0 then 0
  else match (List.range 254).find? fun e => decide (m ≤ 510 * 2 ^ (e + 1 + 14)) with
    | some e => e + 1
    | none => 254

def groupScales (targets : List Int) : List Nat :=
  (List.range 8).map fun g => groupScale ((targets.drop (32 * g)).take 32)

/-- The cost of window w at step j. -/
def stepCost (targets : Array Int) (scales : Array Nat) (v j w : Nat) : Nat :=
  ((List.range v).map fun e =>
    let i := j * v + e
    let sc := scales.getD (i / 32) 0
    let x := if sc = 0 then 0 else windowValue w e * ((2 ^ (sc + 14) : Nat) : Int)
    let d := x - targets.getD i 0
    d.natAbs * d.natAbs).foldl (· + ·) 0

/-- The better of two ways into a state; the first wins a tie. -/
def betterWay (a b : Option (Nat × Nat)) : Option (Nat × Nat) :=
  match a, b with
  | none, b => b
  | a, none => a
  | some x, some y => if y.1 < x.1 then some y else some x

/-- R149 step 3: the least-cost way into state q at one step, from the costs before it: its cost and its window. Previous
states rise with the window's low bits, so the lower one wins a tie. -/
def bestInto (s : Nat) (cost : Nat → Nat) (before : Array (Option Nat)) (q : Nat) : Option (Nat × Nat) :=
  (List.range (2 ^ s)).foldl (fun best l =>
    let w := q * 2 ^ s + l
    betterWay best ((before.getD (w % 2 ^ (16 - s)) none).map fun c => (c + cost w, w))) none

/-- One pass: the costs after the last step, and the windows chosen into every state at each step, the last step first. -/
def viterbiPass (targets : Array Int) (scales : Array Nat) (s v : Nat) :
    List Nat → Array (Option Nat) → List (Array Nat) → Array (Option Nat) × List (Array Nat)
  | [], costs, chosen => (costs, chosen)
  | j :: rest, costs, chosen =>
    let ways := (List.range (2 ^ (16 - s))).map (bestInto s (stepCost targets scales v j) costs)
    viterbiPass targets scales s v rest (ways.map fun w => w.map fun p => p.1).toArray
      ((ways.map fun w => (w.map fun p => p.2).getD 0).toArray :: chosen)

/-- The path that ends in a state, last window first. -/
def tracePath (s : Nat) : List (Array Nat) → Nat → List Nat
  | [], _ => []
  | ws :: rest, q =>
    let w := ws.getD q 0
    w :: tracePath s rest (w % 2 ^ (16 - s))

/-- The least-cost state, the lowest index among equals. -/
def bestState (costs : Array (Option Nat)) : Nat :=
  ((List.range costs.size).foldl (fun best q => betterWay best ((costs.getD q none).map fun c => (c, q))) none).elim 0 fun p => p.2

/-- R149 steps 3 and 4: the windows of the constrained path in order, and its cost. -/
def encodePath (targets : List Int) (s v : Nat) : List Nat × Nat :=
  let ts := targets.toArray
  let sc := (groupScales targets).toArray
  let js := List.range (trellisSteps v)
  let n := 2 ^ (16 - s)
  let (c1, w1) := viterbiPass ts sc s v js (Array.replicate n (some 0)) []
  let sigma := (tracePath s w1 (bestState c1)).headD 0 / 2 ^ s
  let (c2, w2) := viterbiPass ts sc s v js ((List.range n).map fun q => if q = sigma then some 0 else none).toArray []
  ((tracePath s w2 sigma).reverse, (c2.getD sigma none).getD 0)

/-- R149 step 5: the stream number: bit k is bit (k mod S) of window ⌊k/S⌋. -/
def streamOf (s : Nat) : List Nat → Nat
  | [] => 0
  | w :: r => w % 2 ^ s + 2 ^ s * streamOf s r

/-- The block and the error that follows it, from the targets in units of 2^−149. -/
def encodeBlock (targets : List Int) (s v : Nat) : List Byte :=
  let (path, cost) := encodePath targets s v
  natToBytes (streamBytes s v) (streamOf s path) ++ (groupScales targets).map (BitVec.ofNat 8) ++
    natToBytes 8 (deliver (ffmt 16 false) 0 false 0 (.fin false cost (-298) false)).1

end Sys2Proof.Machine
end

