-- ==== Sys2Proof/Config.lean ====
section
/-! DEFINITION. What an F4 fixes: sizes of the spec, and what the spec leaves to the part, as constants with no value (log 11). -/

namespace Sys2Proof.Config

/-- Bytes of a local store (R16). -/
def localBytes : Nat := 327680
/-- Bytes of a memory channel and the number of channels (R309). -/
def channelBytes : Nat := 0xA0000000
def channelCount : Nat := 384
/-- Where the pool is seen, and how far it reaches (R309, R332). -/
def poolBase : Nat := 0x200000000000
def poolBytes : Nat := 2 ^ 45
/-- Lines of a memory-side cache bank: 512 KiB (R2). -/
def bankLines : Nat := 4096
/-- Bytes of a tile's save area (R324). -/
def saveBytes : Nat := 1376256
/-- Entries of the translation caches (R16, R310). -/
def tileTlbSets : Nat := 32
def tileTlbWays : Nat := 12
def clusterTlb : Nat := 8192
/-- The stall detector's limit in arithmetic cycles (R224). -/
def stallLimit : Nat := 2 ^ 20

/-! Cryptography and part contents: the spec names the algorithms, and the model keeps keys and contents as constants (log 11). -/

/-- The ECDSA P-384 public key of a ROM key slot: x and y (R346). -/
opaque ecdsaKey : Nat → Nat × Nat
/-- The LMS public key of a ROM key slot: identifier and root. -/
opaque lmsKey : Nat → List Byte × List Byte
/-- The signature of the ensign key that a device secret gives (R351). -/
opaque ensignSignature : BitVec 384 → List Byte → BitVec 768
/-- The certificate chain of slot 0 (R351). -/
opaque certificateChain : List Byte
/-- The MAC of a repair table under a key that the device secret gives (R359). -/
opaque repairMac : BitVec 384 → List Byte → BitVec 384
/-- The spare rows of a channel (R360). -/
opaque spareRows : Nat → Nat
/-- The contents of Crivis ROM (R352). -/
opaque romImage : List Byte
end Sys2Proof.Config
end

