-- ==== Sys2Proof/Machine/Operands.lean ====
section
/-! DEFINITION. Reading and writing operands: registers (R82), masks (R83), immediates (R84, R85), addresses (R87), vector
elements (R118) and stream ports (R119, R178). -/

namespace Sys2Proof.Machine

/-- R82: x0 reads 0. -/
def readX (r : Strand) (n : Nat) : Word := if n = 0 then 0 else mapGet 0 r.x n

/-- R82: a write to x0 is discarded. -/
def writeX (r : Strand) (n : Nat) (v : Word) : Strand := if n = 0 then r else { r with x := mapPut 0 r.x n v }

/-- R109: k0 reads as all ones. -/
def readK (r : Strand) (n : Nat) : Word := if n = 0 then BitVec.allOnes 64 else mapGet 0 r.k n

/-- R109: a write to k0 is discarded. -/
def writeK (r : Strand) (n : Nat) (v : Word) : Strand := if n = 0 then r else { r with k := mapPut 0 r.k n v }

def readV (r : Strand) (n : Nat) : VReg := mapGet 0 r.v n
def writeV (r : Strand) (n : Nat) (v : VReg) : Strand := { r with v := mapPut 0 r.v n v }
def readW (r : Strand) (n : Nat) : BitVec 16 := mapGet 0 r.w n
def writeW (r : Strand) (n : Nat) (v : BitVec 16) : Strand := { r with w := mapPut 0 r.w n v }

/-- R170: registers n and n + 1, the low half in n; n = 0 discards both halves. -/
def writeXPair (r : Strand) (n : Nat) (lo hi : Word) : Strand := if n = 0 then r else writeX (writeX r n lo) (n + 1) hi

/-- R84: the single immediate of the form, sign-extended to 64 bits. -/
def immOf (f : Fields) : Word :=
  match f.ext with
  | .none => f.imm10.signExtend 64
  | .imm32 v => v.signExtend 64
  | .imm64 v => v

/-- R85: the second operand of the r/i instructions. -/
def operandB (r : Strand) (f : Fields) : Word := readX r f.b.toNat + immOf f

/-- R86: the target of a direct branch. -/
def branchTarget (r : Strand) (f : Fields) : BitVec 32 := r.pc + ((immOf f).truncate 32 <<< 2)

/-- The address after the instruction. -/
def nextPc (r : Strand) (f : Fields) : BitVec 32 := r.pc + BitVec.ofNat 32 f.bytes

/-- R83: bit i is 1 where lane i is active. -/
def laneMask (r : Strand) (f : Fields) : Word := if f.kn then ~~~ readK r f.k.toNat else readK r f.k.toNat

/-- R87: the displacement of a memory operand: IMM10, IMM32, or IMM64[63:16] of a 128-bit form. -/
def displacement (f : Fields) : Word :=
  match f.ext with
  | .none => f.imm10.signExtend 64
  | .imm32 v => if f.h && f.hi then f.imm10.signExtend 64 else v.signExtend 64
  | .imm64 v => (v.extractLsb' 16 48).signExtend 64

/-- R87: the immediate handle index. -/
def immHandle (f : Fields) : Nat :=
  match f.ext with
  | .none => 0
  | .imm32 v => v.toNat % 65536
  | .imm64 v => v.toNat % 65536

/-- A memory operand (R87): the handle, if any, as an index or the whole register of a bad one, and the address or offset. -/
structure MemOperand where
  handle : Option (Except Word Nat)
  addr   : Nat
deriving Repr

/-- R87: the sums are modulo 2^32 without a handle and modulo 2^48 with one; `index` is the x[B] term where there is one. -/
def memOperand (r : Strand) (f : Fields) (index : Word) : MemOperand :=
  let sum := readX r f.a.toNat + index + displacement f
  if f.h then
    let h : Except Word Nat :=
      if f.hi then .ok (immHandle f)
      else
        let v := readX r f.c.toNat
        if v.toNat < 65536 then .ok v.toNat else .error v
    ⟨some h, sum.toNat % 2 ^ 48⟩
  else ⟨none, sum.toNat % 2 ^ 32⟩

/-! Vector elements (R118): element j of width b is bits [b·j + b − 1 : b·j]. -/

def elemAt (b : Nat) (v : VReg) (j : Nat) : Nat := (v.toNat >>> (b * j)) % 2 ^ b

/-- The number of elements of width `b`. -/
def elemCount (b : Nat) : Nat := 2048 / b

/-- The elements of a register from element 0 up. -/
def elems (b : Nat) (v : VReg) : List Nat := (List.range (elemCount b)).map (elemAt b v)

/-- The number whose digits of width `b` are the elements, element 0 lowest. -/
def packNat (b : Nat) : List Nat → Nat
  | [] => 0
  | e :: r => e % 2 ^ b + 2 ^ b * packNat b r

def packV (b : Nat) (es : List Nat) : VReg := BitVec.ofNat 2048 (packNat b es)

/-- R83: whether element j of width `b` is active: lane j, or lane ⌊j/2⌋ in packed 16-bit forms. -/
def elemActive (b : Nat) (m : Word) (j : Nat) : Bool := m.getLsbD (j * b / 32)

/-- R83: what an inactive element receives. -/
def inactive (zm : Bool) (old : Nat) : Nat := if zm then 0 else old

/-! Stream ports (R119, R178). -/

def readPort (r : Strand) (q : Nat) : Port := mapGet {} r.ports q
def writePort (r : Strand) (q : Nat) (p : Port) : Strand := { r with ports := mapPut {} r.ports q p }

/-- The number of elements of a pattern (R176). -/
def Port.total (p : Port) : Nat := p.n0 * p.n1

/-- R176: the byte shift of element i from BASE, i0 running fastest. -/
def Port.shift (p : Port) (i : Nat) : Int := ((i / p.n0 : Nat) : Int) * p.stride1 + ((i % p.n0 : Nat) : Int) * p.stride0

/-- Elements pushed to an output port and not yet written. -/
def undrained (r : Strand) (q : Nat) : Nat :=
  (r.drains.filter fun d => match d with
    | .elem p _ _ _ _ _ _ => p == q
    | .mark _ _ _ => false).length

/-- What naming a port does (R178): go on, hold the slot, or a fault with its code and BADADDR. -/
inductive PortCheck where
  | ok
  | hold
  | trap (code : Nat) (bad : Word) (info : Nat)
deriving DecidableEq, Repr

/-- A source port: held while its next element has not been fetched. Codes 6 bounds, 7 rights, 9 copy fault (R205), with INFO 0 (log 27). -/
def checkIn (r : Strand) (q : Nat) : PortCheck :=
  let p := readPort r q
  let name := BitVec.ofNat 64 (q + 32)
  if !p.isOpen || p.out then .trap 7 name 0
  else if p.total ≤ p.next then .trap 6 name 0
  else match p.buf with
    | [] => .hold
    | e :: _ => match e.bad with
      | some a => .trap 9 a 0
      | none => .ok

/-- A destination port: a push is held while four elements are undrained, also one past the end (R98, R178). -/
def checkOut (r : Strand) (q : Nat) : PortCheck :=
  let p := readPort r q
  let name := BitVec.ofNat 64 (q + 32)
  if !p.isOpen || !p.out then .trap 7 name 0
  else if 4 ≤ undrained r q then .hold
  else if p.total ≤ p.next then .trap 6 name 0
  else .ok

/-- The first of two checks that does not go on; a hold comes before a fault (R98). -/
def PortCheck.both : PortCheck → PortCheck → PortCheck
  | .hold, _ => .hold
  | _, .hold => .hold
  | .trap c b i, _ => .trap c b i
  | .ok, o => o

/-- R358: an element that a source field names and whose buffer is uncorrectable. -/
def spoiltSource (r : Strand) (n : Nat) : Bool := decide (32 ≤ n) && ((readPort r (n - 32)).buf.head?.any fun e => e.spoilt)

/-- The checks of every port that the source fields name, then of the destination (log 15). -/
def checkPorts (r : Strand) (srcs : List Nat) (dst : Option Nat) : PortCheck :=
  let ins := srcs.foldr (fun n acc => if n < 32 then acc else (checkIn r (n - 32)).both acc) .ok
  match dst with
  | some n => if n < 32 then ins else ins.both (checkOut r (n - 32))
  | none => ins

/-- A vector source operand: a register, or the element at the head of a port. -/
def readVP (r : Strand) (n : Nat) : VReg :=
  if n < 32 then readV r n
  else match (readPort r (n - 32)).buf with
    | [] => 0
    | e :: _ => e.data

/-- One pop of a port. -/
def popPort (r : Strand) (q : Nat) : Strand :=
  let p := readPort r q
  writePort r q { p with buf := p.buf.tail, next := p.next + 1 }

/-- R119: each named port is popped once, however many fields name it. -/
def popPorts (r : Strand) (srcs : List Nat) : Strand :=
  (srcs.dedup.filter (fun n => decide (32 ≤ n))).foldl (fun r n => popPort r (n - 32)) r

/-- What an instruction that keeps parts of its destination keeps: nothing of a port (R119). -/
def readDst (r : Strand) (n : Nat) : VReg := if n < 32 then readV r n else 0

/-- A vector destination: a register, or a push of the whole element (R119). -/
def writeVP (r : Strand) (n : Nat) (v : VReg) : Strand :=
  if n < 32 then writeV r n v
  else
    let p := readPort r (n - 32)
    let r := writePort r (n - 32) { p with next := p.next + 1 }
    { r with drains := r.drains ++ [.elem (n - 32) p.base (p.shift p.next) p.tag v 0] }

/-! Pending bits (R21): a register is pending while an outstanding operation will write it. -/

def Dest.coversX (d : Dest) (n : Nat) : Bool :=
  match d with
  | .x m => m == n
  | .xPair m => m == n || m + 1 == n
  | _ => false

def pendingX (r : Strand) (n : Nat) : Bool := n != 0 && r.longs.any fun o => o.dest.coversX n
def pendingV (r : Strand) (n : Nat) : Bool := r.longs.any fun o => o.dest == .v n
def pendingLa (r : Strand) : Bool := r.longs.any fun o => o.dest == .la

/-- Whether the register that a field names is pending. -/
def kindPending (kind : Kind) (r : Strand) (v : BitVec 6) : Bool :=
  match kind with
  | .x => pendingX r v.toNat
  | .xPair => pendingX r v.toNat || pendingX r (v.toNat + 1)
  | .v => pendingV r v.toNat
  | .vPort => v.toNat < 32 && pendingV r v.toNat
  | _ => false

/-- Whether an instruction uses LA (R134). -/
def usesLa : Instr → Bool
  | .laAdd _ | .laNorm _ | .laRd _ | .laClr _ | .laGetw _ | .laSetw _ => true
  | _ => false

/-- R191: the registers that a dispatch writes into a strand in `tk.wait`, x1 to x5. -/
def waitPending (i : Instr) (r : Strand) : Bool :=
  match i with
  | .tkWait _ => (List.range 6).any (pendingX r)
  | _ => false

/-- R21: some source or destination register is pending. The D of a copy into a slot is no register (R89), and
a pair at D = 0 is written nowhere (R170). -/
def regsPending (i : Instr) (r : Strand) : Bool :=
  match i.shape, i.fields with
  | some sh, some f =>
    let slotCopy := sh.maj == 0xAC && natBits f.ext.imm64Nat 43 42 == 1
    (!slotCopy && !(sh.d == .xPair && f.d == 0) && kindPending sh.d r f.d) || kindPending sh.a r f.a || kindPending sh.b r f.b ||
    kindPending (sh.kindC i.dataC f) r f.c || (usesLa i && pendingLa r) || waitPending i r
  | _, _ => false

end Sys2Proof.Machine
end

