-- ==== Sys2Proof/Machine/Ops.lean ====
section
/-! DEFINITION. The shared operations of the machine: places, device time, memory words, messages, events, parking and freezing,
taking a trap and returning from it, and issuing an instruction at its strand's slot. -/

namespace Sys2Proof.Machine

/-! Places (R11). -/

def tileX (t : Nat) : Nat := t % 32
def tileY (t : Nat) : Nat := t / 32 % 32
def tileAt (x y : Nat) : Nat := y * 32 + x
def dieOf (t : Nat) : Nat := tileY t / 16 * 2 + tileX t / 16
def clusterOf (t : Nat) : Nat := tileY t / 4 * 8 + tileX t / 4
def tileInCluster (t : Nat) : Nat := tileY t % 4 * 4 + tileX t % 4
/-- The tiles of a cluster by their number within it. -/
def clusterTile (c i : Nat) : Nat := tileAt (c % 8 * 4 + i % 4) (c / 8 * 4 + i / 4)
def clusterTiles (c : Nat) : List Nat := (List.range 16).map (clusterTile c)

/-- DT in ns (R25): the same on every tile and die at an instant, where the spec lets two tiles differ by 1 (log 5). -/
def State.dt (s : State) : Word := BitVec.ofNat 64 (s.dt36 / 36)

/-- The strand whose slot is at hand, its tile and its slot. -/
def State.me (s : State) : Strand := s.strand s.cur
def State.myTile (s : State) : Nat := s.cur / 8
def State.mySlot (s : State) : Nat := s.cur % 8
def State.setMe (s : State) (r : Strand) : State := s.setStrand s.cur r

/-- The launch that holds a tile, by its key. -/
def State.launchKeyOf (s : State) (tile : Nat) : Nat := (s.tile tile).launch.getD 0
def State.launchOf (s : State) (tile : Nat) : Launch := s.launch (s.launchKeyOf tile)

/-- The width and height of a launch's field, its tiles, and a tile's position in it (R212, R215). -/
def Launch.w (l : Launch) : Nat := 2 ^ l.lw
def Launch.h (l : Launch) : Nat := 2 ^ l.lh
def Launch.tiles (l : Launch) : List Nat :=
  (List.range l.h).flatMap fun y => (List.range l.w).map fun x => tileAt (l.ox + x) (l.oy + y)
def Launch.fx (l : Launch) (t : Nat) : Nat := tileX t - l.ox
def Launch.fy (l : Launch) (t : Nat) : Nat := tileY t - l.oy

/-- The translation tag of a launch's context (R303). -/
def Launch.tag (l : Launch) : Nat := l.vf * 8 + l.ctx

/-- The key of a launch in the state. -/
def launchKey (vf : Nat) (number : BitVec 32) : Nat := vf * 2 ^ 32 + number.toNat

/-- The strands of a tile, and of a launch's field. -/
def strandsOf (tile : Nat) : List Nat := (List.range 8).map fun i => tile * 8 + i
def Launch.strands (l : Launch) : List Nat := l.tiles.flatMap strandsOf

/-! Memory words. -/

def readNat (m : Memory) (a n : Nat) : Nat := bytesToNat (readBytes m a n)
def writeNat (m : Memory) (a n v : Nat) : Memory := writeBytes m a (natToBytes n v)

/-- Uncorrectable or locked words that an access of `n` bytes at a physical address meets (R358). -/
def badIn (bad : Map Nat) (a n : Nat) : Option Nat :=
  (bad.find? fun w => decide (w.1 * 8 < a + n) && decide (a < w.1 * 8 + 8)).map fun w => w.2

/-- The same with the address of the first byte met (R354). -/
def badFrom (bad : Map Nat) (a n : Nat) : Option (Nat × Nat) :=
  (bad.find? fun w => decide (w.1 * 8 < a + n) && decide (a < w.1 * 8 + 8)).map fun w => (w.2, Nat.max a (w.1 * 8))

/-- R358: a store that covers a whole locked word replaces it. -/
def clearBad (bad : Map Nat) (a n : Nat) : Map Nat :=
  bad.filter fun w => !(decide (a ≤ w.1 * 8) && decide (w.1 * 8 + 8 ≤ a + n))

/-- R361: whether an address of device memory lies in a channel that is retired and no longer serves. -/
def State.lostChannel (s : State) (a : Nat) : Bool := s.retired.getLsbD (a / Config.channelBytes)

/-- R358, R361: uncorrectable data among `n` bytes of device memory: its violation kind, and the address of the first byte of it (R354). -/
def State.lostAt (s : State) (a n : Nat) : Option (Nat × Nat) :=
  if s.lostChannel a || s.lostChannel (a + n - 1) then some (4, a) else badFrom s.badWords a n

/-- A write that a channel performs. -/
def State.putDevice (s : State) (a : Nat) (bytes : List Byte) : State :=
  { s with mem := writeBytes s.mem a bytes, badWords := clearBad s.badWords a bytes.length }

/-- A write to device memory; a retired channel takes none (R361). -/
def State.writeDevice (s : State) (a : Nat) (bytes : List Byte) : State :=
  { s with mem := if s.lostChannel a then s.mem else writeBytes s.mem a bytes
           badWords := if s.lostChannel a then s.badWords else clearBad s.badWords a bytes.length }

/-! Messages. -/

/-- A message leaves its source. -/
def State.sendMsg (s : State) (m : Msg) : State := { s with net := s.net ++ [{ m with id := s.fresh }], fresh := s.fresh + 1 }
def State.send (s : State) (src : Nat) (home : Home) (body : Body) : State :=
  s.sendMsg { id := 0, src := src, home := home, addr := 0, body := body }

/-- The homes of a message: that of its bytes, or of the bytes of each page that they lie in. -/
def Msg.homes (m : Msg) : List Home := m.home :: (m.cut.map fun c => c.2.home).toList

/-- The parts of `n` bytes at a place that go on elsewhere after some of them: place, place in the bytes, size. -/
def cutParts (p : Spot) (cut : Option (Nat × Spot)) (n : Nat) : List (Spot × Nat × Nat) :=
  match cut with
  | none => [(p, 0, n)]
  | some (k, q) => [(p, 0, Nat.min k n), (q, k, n - k)]
def Msg.spot (m : Msg) : Spot := { home := m.home, addr := m.addr, va := m.va, leaf := m.leaf, page := m.page }
def Msg.parts (m : Msg) (n : Nat) : List (Spot × Nat × Nat) := cutParts m.spot m.cut n

/-- R252: whether a message starts strands: it orders no access and follows none. -/
def Body.isStart : Body → Bool
  | .spawn _ _ _ _ _ _ _ _ _ | .lnGo _ _ _ _ _ _ _ _ _ _ _ => true
  | _ => false

/-- The earliest message from one source to one home is the one that home serves next (R160, R222). -/
def State.firstOf (s : State) (m : Msg) : Bool :=
  match s.net.find? fun n => n.src == m.src && !n.body.isStart && n.homes.any m.homes.contains with
  | some n => n.id == m.id
  | none => false

def State.message (s : State) (id : Nat) : Option Msg := s.net.find? fun m => m.id == id
def State.dropMessage (s : State) (id : Nat) : State := { s with net := s.net.filter fun m => m.id != id }

/-- A strand's outstanding operation changed by its number. -/
def Strand.onLong (r : Strand) (id : Nat) (g : LongOp → LongOp) : Strand :=
  { r with longs := r.longs.map fun o => if o.id = id then g o else o }
def State.onLong (s : State) (src id : Nat) (g : LongOp → LongOp) : State := s.setStrand src ((s.strand src).onLong id g)

/-! Events (R221, R319, R320). -/

/-- A 32-byte event record is written to the VF's queue, or LOST is incremented; with IEN an interrupt is raised (R333). Nothing is written where WR or
RD is uncorrectable (R361; log 45). The answer says whether it was written. -/
def State.postEvent (s : State) (vf : Nat) (item : Nat) : State × Bool :=
  let v := s.vf vf
  let q := v.evq.toNat
  let wr := readNat s.mem q 8
  let rd := readNat s.mem (q + 8) 8
  if (s.lostAt q 16).isSome then (s, false)
  else if (BitVec.ofNat 64 wr - BitVec.ofNat 64 rd).ult 4096#64 then
    let s := s.writeDevice (q + 64 + 32 * (wr % 4096)) (natToBytes 32 item)
    let s := s.writeDevice q (natToBytes 8 ((wr + 1) % 2 ^ 64))
    (if v.ien.getLsbD 0 then s.setVf vf { v with interrupts := v.interrupts + 1 } else s, true)
  else (s.writeDevice (q + 16) (natToBytes 8 ((readNat s.mem (q + 16) 8 + 1) % 2 ^ 64)), false)

/-- R320. -/
def State.event (s : State) (vf code : Nat) (data0 data1 : Word) : State :=
  (s.postEvent vf (s.dt.toNat * 2 ^ 192 + data0.toNat * 2 ^ 128 + data1.toNat * 2 ^ 64 + code * 2 ^ 56)).1

/-- R221: CODE 2, a strand of a launch was parked; its PC is that of the instruction that parked it (log 56). -/
def State.parkedEvent (s : State) (strand : Nat) : State :=
  let r := s.strand strand
  let l := s.launchOf (strand / 8)
  (s.postEvent l.vf (s.dt.toNat * 2 ^ 192 + r.cause.toNat * 2 ^ 128 + r.pc.toNat * 2 ^ 96 + l.number.toNat * 2 ^ 64 + 2 * 2 ^ 56 +
    strand % 8 * 2 ^ 13 + strand / 8 % 1024)).1

/-- R221: CODE 1, a launch ended. -/
def State.endedEvent (s : State) (l : Launch) (status : Nat) : State :=
  (s.postEvent l.vf (s.dt.toNat * 2 ^ 192 + l.number.toNat * 2 ^ 64 + 1 * 2 ^ 56 + status * 2 ^ 16 + tileAt l.ox l.oy)).1

/-! Tasks: the home of an id (R279). -/

/-- The number of a launch's clusters, and the package cluster of field-relative cluster `fc`. -/
def Launch.clusterCount (l : Launch) : Nat := l.w / 4 * (l.h / 4)
def Launch.cluster (l : Launch) (fc : Nat) : Nat := (l.oy / 4 + fc / (l.w / 4)) * 8 + l.ox / 4 + fc % (l.w / 4)
/-- The field-relative cluster of a tile. -/
def Launch.fc (l : Launch) (t : Nat) : Nat := l.fy t / 4 * (l.w / 4) + l.fx t / 4

/-- R292: a task message of a launch has been issued. -/
def State.touch (s : State) (k : Nat) : State :=
  if (s.launch k).touched then s else s.setLaunch k { s.launch k with touched := true }

/-- The end of a strand's current task goes to the task's home (R284). -/
def State.endTask (s : State) (strand : Nat) : State :=
  let r := s.strand strand
  match r.task with
  | none => s
  | some id =>
    let k := s.launchKeyOf (strand / 8)
    let l := s.launch k
    let s := s.setStrand strand { r with task := none }
    let s := s.touch k
    s.send strand (.hoist (l.cluster (id / 2 ^ 26))) (.taskEnd k (id % 2 ^ 26))

/-! Parking and freezing. -/

/-- CAUSE with its fields (R207). -/
def causeOf (info code : Nat) : Word := BitVec.ofNat 64 (info % 2 ^ 32 * 2 ^ 32 + 2 ^ 8 + code % 32)

/-- CAUSE.ACT. -/
def causeActive (c : Word) : Bool := c.getLsbD 8

/-- R206, R220, R278: the strand is parked with a cause; EPC and BADADDR stay as they were; the launch ends FAULT; one CODE 2 event; its current task ends (R284). -/
def State.park (s : State) (strand : Nat) (info : Nat) : State :=
  let r := s.strand strand
  let s := s.setStrand strand { r with run := .parked, cause := causeOf info 19, fence := none, hyIssue := none, walk := none }
  let k := s.launchKeyOf (strand / 8)
  let s := s.setLaunch k { s.launch k with faulted := true }
  (s.parkedEvent strand).endTask strand

/-- R354: a violation record. -/
def State.violation (s : State) (addr kind mclass mid vf : Nat) : State :=
  let t := s.trust
  let item := s.dt.toNat * 2 ^ 192 + addr % 2 ^ 64 * 2 ^ 128 + kind * 2 ^ 96 + mclass * 2 ^ 80 + mid % 2 ^ 16 * 2 ^ 64 +
    t.seq % 2 ^ 32 * 2 ^ 32 + vf % 128
  { s with trust := { t with ring := mapPut 0 t.ring (t.seq % 1024) (BitVec.ofNat 256 item), seq := t.seq + 1 } }

/-- Whether a strand has halted, or is parked or frozen. -/
def Run.ended : Run → Bool
  | .free => true
  | .parked => true
  | .frozen => true
  | _ => false

/-- R353: a strand is frozen: it counts as parked, with CODE 19 and INFO 0, EPC its PC, BADADDR unchanged, and a CODE 2 event. -/
def State.freezeStrand (s : State) (strand : Nat) : State :=
  let r := s.strand strand
  if r.run.ended then s
  else
    let s := s.setStrand strand { r with run := .frozen, cause := causeOf 0 19, epc := r.pc.zeroExtend 64,
                                         fence := none, hyIssue := none, walk := none }
    let k := s.launchKeyOf (strand / 8)
    let s := s.setLaunch k { s.launch k with faulted := true }
    (s.parkedEvent strand).endTask strand

/-- R353, R354: a strand is frozen, and a violation record is written. -/
def State.freeze (s : State) (strand kind addr : Nat) : State :=
  if (s.strand strand).run.ended then s
  else (s.freezeStrand strand).violation addr kind 0 strand (s.launchOf (strand / 8)).vf

/-! Keys of uncorrectable words beside device memory (R358): of operand slots, banks, a strand's registers, vectors first, and histogram counters. -/

def slotPa (tile slot off : Nat) : Nat := 2 ^ 57 + tile * 2 ^ 20 + slot * 2 ^ 14 + off
def bankPa (tile bank elem : Nat) : Nat := 2 ^ 58 + tile * 2 ^ 20 + bank * 2 ^ 16 + elem * 4
def regPa (strand off : Nat) : Nat := 2 ^ 59 + strand / 8 * 2 ^ 20 + strand % 8 * 2 ^ 14 + off
def histPa (tile bank counter : Nat) : Nat := 2 ^ 60 + tile * 2 ^ 20 + bank * 256 + counter * 4

/-- R358: an instruction that would deliver uncorrectable data of a slot, a bank, a register or a counter freezes its strand instead. -/
def State.unlessBad (s : State) (bad : Option Nat) (k : State) : State :=
  match bad with
  | some kind => s.freeze s.cur kind 0
  | none => k

/-- R353: a VF is frozen: every strand of it, its queue and its windows. -/
def State.freezeVf (s : State) (v kind addr : Nat) : State :=
  let s := s.setVf v { s.vf v with frozen := true, flrDone := false }
  let strands := (s.launches.filter fun p => p.2.vf == v && !p.2.ended).flatMap fun p => p.2.strands
  (strands.foldl (fun s i => if (s.launchOf (i / 8)).vf = v then s.freezeStrand i else s) s).violation addr kind 2 v v

/-! Traps (R205 to R208). -/

/-- R205: where a trap of a code goes; codes 11 and 12 go to the handler of span level `info`. -/
def trapVector (r : Strand) (code info : Nat) : BitVec 32 :=
  if code = 4 then r.ovh.truncate 32
  else if code = 11 ∨ code = 12 then (mapGet {} r.spans info).handler.truncate 32
  else r.tvb.truncate 32 + BitVec.ofNat 32 (64 * code)

/-- R206: taking a trap with the address EPC receives. With a handler active, a code other than 11 and 12 parks the strand. -/
def State.trapAt (s : State) (epc : BitVec 32) (code info : Nat) (bad : Word) : State :=
  let r := s.me
  if causeActive r.cause && code != 11 && code != 12 then s.park s.cur code
  else s.setMe { r with epc := epc.zeroExtend 64, cause := causeOf info code, badaddr := bad,
                        pc := trapVector r code info, fence := none, hyIssue := none, walk := none }

/-- R206: a trap at the instruction presented, which is not issued. -/
def State.takeTrap (s : State) (code info : Nat) (bad : Word) : State := s.trapAt s.me.pc code info bad

/-- R208: the return from a trap. -/
def Strand.eret (r : Strand) : Strand :=
  { r with pc := r.epc.truncate 32, cause := r.cause &&& ~~~0x100#64 }

/-! Issuing (R17 to R24, R98). -/

/-- An instruction that issues: the strand with the instruction's effect on its registers, at the next instruction. -/
def State.retire (s : State) (r : Strand) (f : Fields) : State :=
  s.setMe { r with pc := nextPc r f, issuedAt := s.cycle + 1 }

/-- An instruction that issues and sets the PC itself. -/
def State.retireTo (s : State) (r : Strand) (pc : BitVec 32) : State := s.setMe { r with pc := pc, issuedAt := s.cycle + 1 }

/-- R21: an instruction is held while a register it names is pending; its slot passes as a bubble and nothing changes. -/
def issue (i : Instr) (s : State) (k : Strand → State) : Host.Outcome State Fault Refusal :=
  .next (if regsPending i s.me then s else k s.me)

/-- A short-class instruction on the strand's own registers (R20). -/
def shortOp (i : Instr) (f : Fields) (s : State) (g : Strand → Strand) : Host.Outcome State Fault Refusal :=
  issue i s fun r => s.retire (g r) f

/-- R46: SRCNT counts an instruction that uses sr. -/
def countSr (r : Strand) (mode : Nat) : Strand := if mode = 5 then { r with srcnt := r.srcnt + 1 } else r

/-- Flags ORed into STATUS (R39). -/
def raise (r : Strand) (f : Flags) : Strand := { r with status := statusOr r.status f }

/-- R23: how many of the outstanding operations are long class, and how many are remote. -/
def longRoom (r : Strand) (remote : Bool) : Bool :=
  decide (r.longs.length < 8) && (!remote || decide ((r.longs.filter fun o => o.remote).length < 4))

/-- R21: a long-class instruction issues: its destination becomes pending until the result is written. -/
def State.startLong (s : State) (r : Strand) (f : Fields) (o : LongOp) : State :=
  { s.retire { r with longs := r.longs ++ [{ o with id := s.fresh }] } f with fresh := s.fresh + 1 }

/-- A long-class instruction whose result is computed from its operands at issue; held under R21 and R23. -/
def longOp (i : Instr) (f : Fields) (s : State) (dest : Dest) (g : Strand → Strand × VReg × Flags) :
    Host.Outcome State Fault Refusal :=
  issue i s fun r =>
    if longRoom r false then
      let (r', v, fl) := g r
      s.startLong r' f { id := 0, dest := dest, data := v, flags := fl }
    else s

/-- R161: later memory instructions are held while an acquire is outstanding. -/
def acquireHeld (r : Strand) : Bool := r.longs.any fun o => o.acquire.isSome

/-- A memory instruction: held also by an acquire. -/
def issueMem (i : Instr) (s : State) (k : Strand → State) : Host.Outcome State Fault Refusal :=
  .next (if regsPending i s.me || acquireHeld s.me then s else k s.me)

/-! Timelines (R181 to R183). -/

/-- R183: whether a record can still be read: failed and unreported, or followed by fewer than 64 numbers. -/
def TlRec.readable (last : Nat) (t : TlRec) : Bool := (t.state == 3 && !t.rep) || decide (last < t.num + 64)

/-- Whether a record is still held: it can be read, or its operation is pending, which a wait for its number must see (R182). -/
def TlRec.kept (last : Nat) (t : TlRec) : Bool := t.state == 1 || t.readable last

/-- The next number of a counter, with its record (R181). -/
def Timeline.next (t : Timeline) (item : TlRec) : Timeline :=
  let n := t.last + 1
  { last := n, recs := (t.recs ++ [{ item with num := n }]).filter (TlRec.kept n) }

/-- R181: at most 16 operations pending or failed and unreported. -/
def Timeline.full (t : Timeline) : Bool :=
  decide (16 ≤ (t.recs.filter fun x => x.state == 1 || (x.state == 3 && !x.rep)).length)

/-- A record changed; it is dropped if it is no longer kept. -/
def Timeline.on (t : Timeline) (n : Nat) (g : TlRec → TlRec) : Timeline :=
  { t with recs := (t.recs.map fun x => if x.num = n then g x else x).filter (TlRec.kept t.last) }

/-- A number completes with its flags, or fails with an address. -/
def Timeline.finish (t : Timeline) (n : Nat) (flags : Flags) : Timeline :=
  t.on n fun x => { x with state := 2, flags := flags }
def Timeline.fail (t : Timeline) (n : Nat) (flags : Flags) (addr : Word) : Timeline :=
  t.on n fun x => { x with state := 3, flags := flags, addr := addr }

/-- What is read of a number (R183): its record, or state 10 and nothing else when older, pending or not, or 00 when not issued. -/
def Timeline.record (t : Timeline) (n : Nat) : TlRec :=
  match t.recs.find? fun x => x.num == n && x.readable t.last with
  | some x => x
  | none => if 1 ≤ n ∧ n ≤ t.last then { num := n, state := 2 } else { num := n, state := 0 }

def Strand.timeline (r : Strand) : Counter → Timeline
  | .tlc => r.tlc
  | .tlm => r.tlm
  | .tle => r.tle
  | .tlg => r.tlg

def Strand.setTimeline (r : Strand) (c : Counter) (t : Timeline) : Strand :=
  match c with
  | .tlc => { r with tlc := t }
  | .tlm => { r with tlm := t }
  | .tle => { r with tle := t }
  | .tlg => { r with tlg := t }

end Sys2Proof.Machine
end

