-- ==== Sys2Proof/Machine/Slot.lean ====
section
/-! DEFINITION. What a strand does at its slot: the deadline check (R228), the fetch and the decode checks (R98), and the passing of
one cycle (R17, R25, R224). -/

namespace Sys2Proof.Machine

/-- R226: the deadline of a level; a sum beyond 2^64 − 1 is never reached. -/
def Span.expired (p : Span) (t : Word) : Bool :=
  decide (p.openAt.toNat + p.maximum.toNat < 2 ^ 64) && decide (p.openAt.toNat + p.maximum.toNat ≤ t.toNat)

/-- R226, R231: whether a strand has an open level; one that is parked or frozen keeps its levels. -/
def Strand.spanOpen (r : Strand) : Bool := r.run != .free && decide (0 < r.depth)

/-- R228: the lowest open level whose deadline has passed. -/
def expiredLevel (r : Strand) (t : Word) : Option Nat :=
  (List.range r.depth).find? fun d => (mapGet {} r.spans d).expired t

/-- What happens at a slot. -/
inductive SlotAct where
  /-- the slot passes as a bubble -/
  | idle
  /-- a step that takes the slot before any fetch, or at step 1, 2 or 4 of R98 -/
  | event (i : Instr)
  /-- a trap of steps 3, 5 or 6 of R98 -/
  | trap (code info : Nat) (bad : Word)
  /-- uncorrectable data in the fetch (R358) -/
  | freeze (kind addr : Nat)
  | run (i : Instr)
deriving DecidableEq, Repr

/-- A key for local-store addresses beside the 46-bit physical ones, for uncorrectable words and records. -/
def localPa (tile offset : Nat) : Nat := 2 ^ 46 + tile * 2 ^ 20 + offset

/-- The 16 bytes from an address of a tile's local store. -/
def fetchBytes (t : Tile) (pc : Nat) : List Byte := readBytes t.store pc 16

/-- R98: the fetch at the strand's PC and steps 1 to 6. An uncorrectable parcel, the first or a later one, freezes the strand before the checks of
its word (R358; the model's order, log 54). -/
def fetchAct (s : State) : SlotAct :=
  let r := s.me
  let t := s.tile s.myTile
  let pc := r.pc.toNat
  if t.xb ≤ pc then .event .overlayFetch
  else
    let bytes := fetchBytes t pc
    let first := bytesToNat (bytes.take 4)
    match badIn s.badWords (localPa s.myTile pc) ((lengthOf (bytes.headD 0)).getD 4) with
    | some kind => .freeze kind 0
    | none =>
      match decodeAt pc bytes with
      | .ok i => .run i
      | .error .unassigned => .event .illegalInstruction
      | .error .straddle => .trap 3 0 (BitVec.ofNat 64 pc)
      | .error .field => .trap 1 first 0
      | .error .format => .trap 2 first 0

/-- The halyard bits of a barrier at a tile: P in bit 0, ARR in bit 1 (R200). -/
def halyardKey (lw lh id : Nat) : Nat := (lh * 8 + lw) * 4 + id
def halyardBits (t : Tile) (key : Nat) : BitVec 2 := mapGet 0 t.halyard key
def halyardArrived (t : Tile) (key : Nat) : Bool := (halyardBits t key).getLsbD 1

/-- The barrier that a size register and an id name (R200). -/
def sizeKey (size : Word) (id : Nat) : Nat := halyardKey (natBits size.toNat 2 0) (natBits size.toNat 6 4) id

/-- R201: a held `hy.wait` whose phase is not complete and whose timeout has passed. -/
def hyTimedOut (s : State) (i : Instr) : Bool :=
  match i, s.me.hyIssue with
  | .hyWait f, some t0 =>
    !s.me.hyPassed && decide (t0.toNat + (readX s.me f.b.toNat).toNat ≤ s.dt.toNat)
  | _, _ => false

/-- Whether a tile's strands present instructions (R233, R323). -/
def Preempt.runs : Preempt → Bool
  | .running => true
  | .deferring _ => true
  | _ => false

/-- Whether what comes for a tile is diverted (R323): from the save instant to the restore. -/
def Preempt.diverts : Preempt → Bool
  | .saving => true
  | .saved => true
  | _ => false

/-- R228: the deadline check precedes every other decision about a slot; then the strand's own state (R18); then the fetch. -/
def slotAct (s : State) : SlotAct :=
  let r := s.me
  let t := s.tile s.myTile
  if r.run = .free ∨ r.run = .parked ∨ r.run = .frozen ∨ !t.preempt.runs ∨ (s.vf (s.launchOf s.myTile).vf).reset.isSome then .idle
  else if r.broken then .event .spanBroken
  else match expiredLevel r s.dt with
    | some d =>
      if !r.hp.getLsbD d then .event .spanOverrun
      else if d > 0 then .event .spanEscalation
      else .event .spanHandlerPark
    | none =>
      if r.run = .waiting ∨ r.startedAt = s.cycle + 1 then .idle
      else match fetchAct s with
        | .run i => if hyTimedOut s i then .event .hyWaitTimeout else .run i
        | a => a

/-- The next strand of this cycle's slot from the cursor up that is not free (R17). -/
def nextStrand (s : State) : Option Nat :=
  (s.strands.find? fun p => p.1 % 8 == s.cycle % 8 && decide (s.cursor ≤ p.1 / 8) && p.2.run != .free).map fun p => p.1

/-- R224: what the stall count of a launch does in a cycle. A far copy counts while it is pending. The launch's own cycle counts, and a poll sets
the count to 0 (log 56). DESIGN CHOICE (log 36): a tile is being pre-empted for this count from the expiry of its deferral limit on, which comes before the
save instant; while it defers its strands run and the count moves. -/
def stallCount (s : State) (l : Launch) : Nat :=
  let rs := l.strands.map s.strand
  if rs.any fun r => r.issuedAt == s.cycle + 1 then 0
  else if (rs.any fun r => r.run != .parked && r.run != .frozen && r.run != .free && decide (0 < r.depth)) ||
      (l.tiles.any fun t => !(s.tile t).preempt.runs) ||
      (rs.any fun r => r.copies.any fun c => c.far) then l.stall
  else l.stall + 1

/-- One arithmetic cycle passes: DT advances by 36,000 / f in units of 1/36 ns (R25, R27), and stall counts move. -/
def passCycle (s : State) : State :=
  { s with
    launches := s.launches.map fun p => (p.1, if p.2.started && !p.2.stalled then { p.2 with stall := stallCount s p.2 } else p.2)
    cycle := s.cycle + 1
    dt36 := s.dt36 + 36000 / s.mhz
    cursor := 0 }

/-- Steps that belong to a strand's slot (R98, R201, R228, R234): no other agent takes them. -/
def slotStep : Instr → Bool
  | .illegalInstruction | .overlayFetch | .spanOverrun | .spanEscalation | .spanHandlerPark | .spanBroken | .hyWaitTimeout => true
  | _ => false

/-- Whether a row of the opcode table is a step of another agent; any other entry of the agenda stands for the strands' turn. -/
def externalStep (i : Instr) : Bool := i.fields.isNone && !slotStep i

end Sys2Proof.Machine
end

