-- ==== Sys2Proof/Machine/Scalar.lean ====
section
/-! DEFINITION. Scalar, address and control instructions (R99 to R117, file 05). -/

namespace Sys2Proof.Machine

/-- R102: an operation of width w on x[A] and Bv; `e` is the exact result from a, b, the count n and w. -/
def intOp (i : Instr) (f : Fields) (s : State) (e : Int → Int → Nat → Nat → Int) : Host.Outcome State Fault Refusal :=
  shortOp i f s fun r =>
    let c := f.fmt.toNat
    let w := fmtWidth c
    let a := readFmtInt c (readX r f.a.toNat).toNat
    let bv := (operandB r f).toNat
    writeX r f.d.toNat (extend64 (fmtSigned c) w (deliverInt c f.s (e a (readFmtInt c bv) (bv % 64 % w) w)))

/-- The w-bit pattern of an integer. -/
def pattern (w : Nat) (a : Int) : Nat := wrapInt w a

/-- A pattern rotated left by n. -/
def rotl (w v n : Nat) : Nat := (v * 2 ^ n + v / 2 ^ (w - n)) % 2 ^ w

def execNop (f : Fields) (s : State) : Host.Outcome State Fault Refusal := shortOp (.nop f) f s id

def execAdd (f : Fields) (s : State) : Host.Outcome State Fault Refusal := intOp (.add f) f s fun a b _ _ => a + b
def execSub (f : Fields) (s : State) : Host.Outcome State Fault Refusal := intOp (.sub f) f s fun a b _ _ => a - b
def execMul (f : Fields) (s : State) : Host.Outcome State Fault Refusal := intOp (.mul f) f s fun a b _ _ => a * b
def execMulh (f : Fields) (s : State) : Host.Outcome State Fault Refusal :=
  intOp (.mulh f) f s fun a b _ w => a * b / ((2 ^ w : Nat) : Int)
def execMin (f : Fields) (s : State) : Host.Outcome State Fault Refusal :=
  intOp (.min f) f s fun a b _ _ => if a < b then a else b
def execMax (f : Fields) (s : State) : Host.Outcome State Fault Refusal :=
  intOp (.max f) f s fun a b _ _ => if a < b then b else a
def execAnd (f : Fields) (s : State) : Host.Outcome State Fault Refusal :=
  intOp (.and f) f s fun a b _ w => ((pattern w a &&& pattern w b : Nat) : Int)
def execOr (f : Fields) (s : State) : Host.Outcome State Fault Refusal :=
  intOp (.or f) f s fun a b _ w => ((pattern w a ||| pattern w b : Nat) : Int)
def execXor (f : Fields) (s : State) : Host.Outcome State Fault Refusal :=
  intOp (.xor f) f s fun a b _ w => ((pattern w a ^^^ pattern w b : Nat) : Int)
def execAndn (f : Fields) (s : State) : Host.Outcome State Fault Refusal :=
  intOp (.andn f) f s fun a b _ w => ((pattern w a &&& (2 ^ w - 1 - pattern w b) : Nat) : Int)
def execShl (f : Fields) (s : State) : Host.Outcome State Fault Refusal :=
  intOp (.shl f) f s fun a _ n _ => a * ((2 ^ n : Nat) : Int)
def execShr (f : Fields) (s : State) : Host.Outcome State Fault Refusal :=
  intOp (.shr f) f s fun a _ n _ => a / ((2 ^ n : Nat) : Int)
def execRot (f : Fields) (s : State) : Host.Outcome State Fault Refusal :=
  intOp (.rot f) f s fun a _ n w => ((rotl w (pattern w a) n : Nat) : Int)

/-- R103: quotient toward zero and remainder with the sign of the dividend; −1 or all ones, and the dividend, for a zero divisor. -/
def quotRem (c : Nat) (a b : Int) : Int × Int :=
  if b = 0 then (if fmtSigned c then -1 else intMax false (fmtWidth c), a) else (Int.tdiv a b, a - b * Int.tdiv a b)

/-- R103: the value `div` or `rem` writes. -/
def divValue (c : Nat) (s : Bool) (a b : Int) : Word :=
  extend64 (fmtSigned c) (fmtWidth c) (deliverInt c s (quotRem c a b).1)
def remValue (c : Nat) (a b : Int) : Word :=
  extend64 (fmtSigned c) (fmtWidth c) (deliverInt c false (quotRem c a b).2)

/-- A long-class operation that writes x[D]; with D = 0 the result is discarded and nothing is pending (R82). -/
def destX (f : Fields) : Dest := if f.d = 0 then .none else .x f.d.toNat

def execDiv (f : Fields) (s : State) : Host.Outcome State Fault Refusal :=
  longOp (.div f) f s (destX f) fun r =>
    let c := f.fmt.toNat
    (r, (divValue c f.s (readFmtInt c (readX r f.a.toNat).toNat) (readFmtInt c (operandB r f).toNat)).zeroExtend 2048, 0)
def execRem (f : Fields) (s : State) : Host.Outcome State Fault Refusal :=
  longOp (.rem f) f s (destX f) fun r =>
    let c := f.fmt.toNat
    (r, (remValue c (readFmtInt c (readX r f.a.toNat).toNat) (readFmtInt c (operandB r f).toNat)).zeroExtend 2048, 0)

/-- The number of one bits in the low `w` bits. -/
def onesIn : Nat → Nat → Nat
  | 0, _ => 0
  | w + 1, v => v % 2 + onesIn w (v / 2)

/-- Zero bits above the highest one of a w-bit value, w for zero (R104). -/
def leadingZeros (w v : Nat) : Nat := if v = 0 then w else w - 1 - Nat.log2 v

/-- Zero bits below the lowest one, w for zero (R104). -/
def trailingZeros : Nat → Nat → Nat
  | 0, _ => 0
  | w + 1, v => if v % 2 = 1 then 0 else 1 + trailingZeros w (v / 2)

/-- R104: an operation on Bv[w−1:0]. -/
def bitCountOp (i : Instr) (f : Fields) (s : State) (g : Nat → Nat → Nat) : Host.Outcome State Fault Refusal :=
  shortOp i f s fun r =>
    let w := fmtWidth f.fmt.toNat
    writeX r f.d.toNat (BitVec.ofNat 64 (g w ((operandB r f).toNat % 2 ^ w)))

def execClz (f : Fields) (s : State) : Host.Outcome State Fault Refusal := bitCountOp (.clz f) f s leadingZeros
def execCtz (f : Fields) (s : State) : Host.Outcome State Fault Refusal := bitCountOp (.ctz f) f s trailingZeros
def execPopc (f : Fields) (s : State) : Host.Outcome State Fault Refusal := bitCountOp (.popc f) f s onesIn

def execSext (f : Fields) (s : State) : Host.Outcome State Fault Refusal :=
  shortOp (.sext f) f s fun r =>
    writeX r f.d.toNat (extend64 (fmtSigned f.fmt.toNat) (fmtWidth f.fmt.toNat) (operandB r f).toNat)

/-- R105: the field descriptor in Bv: position and length; a length of 0 or above 64 selects nothing. -/
def fieldPos (bv : Word) : Nat := natBits bv.toNat 5 0
def fieldLen (bv : Word) : Nat := if natBits bv.toNat 12 6 ≤ 64 then natBits bv.toNat 12 6 else 0

/-- R105. -/
def bextValue (sx : Bool) (a bv : Word) : Word :=
  if fieldLen bv = 0 then 0 else extend64 sx (fieldLen bv) (a.toNat / 2 ^ fieldPos bv)

/-- R105: bits of x[A] that would land above 63 are dropped. -/
def binsValue (d a bv : Word) : Word :=
  let m : Word := BitVec.ofNat 64 ((2 ^ fieldLen bv - 1) * 2 ^ fieldPos bv)
  (d &&& ~~~ m) ||| ((a <<< fieldPos bv) &&& m)

def execBext (f : Fields) (s : State) : Host.Outcome State Fault Refusal :=
  shortOp (.bext f) f s fun r => writeX r f.d.toNat (bextValue f.s (readX r f.a.toNat) (operandB r f))
def execBins (f : Fields) (s : State) : Host.Outcome State Fault Refusal :=
  shortOp (.bins f) f s fun r => writeX r f.d.toNat (binsValue (readX r f.d.toNat) (readX r f.a.toNat) (operandB r f))

def execLi (f : Fields) (s : State) : Host.Outcome State Fault Refusal :=
  shortOp (.li f) f s fun r => writeX r f.d.toNat (immOf f)

/-- R106: the remote address of a field-relative tile. -/
def leaValue (a bv : Word) : Word :=
  BitVec.ofNat 64 (0x40000000 + natBits a.toNat 12 8 * 2 ^ 25 + natBits a.toNat 4 0 * 2 ^ 20 + natBits bv.toNat 19 0)

def execLea (f : Fields) (s : State) : Host.Outcome State Fault Refusal :=
  shortOp (.lea f) f s fun r => writeX r f.d.toNat (leaValue (readX r f.a.toNat) (operandB r f))
def execMov (f : Fields) (s : State) : Host.Outcome State Fault Refusal :=
  shortOp (.mov f) f s fun r => writeX r f.d.toNat (readX r f.a.toNat)
def execSel (f : Fields) (s : State) : Host.Outcome State Fault Refusal :=
  shortOp (.sel f) f s fun r =>
    writeX r f.d.toNat (if readX r f.c.toNat ≠ 0 then readX r f.a.toNat else readX r f.b.toNat)

/-- R108: the condition of code `cc` between x[A] and Bv. -/
def setOp (i : Instr) (cc : Nat) (f : Fields) (s : State) : Host.Outcome State Fault Refusal :=
  shortOp i f s fun r =>
    writeX r f.d.toNat (if intCond cc 64 (readX r f.a.toNat).toNat (operandB r f).toNat then 1 else 0)

def execSetEq (f : Fields) (s : State) : Host.Outcome State Fault Refusal := setOp (.setEq f) 0 f s
def execSetNe (f : Fields) (s : State) : Host.Outcome State Fault Refusal := setOp (.setNe f) 1 f s
def execSetLt (f : Fields) (s : State) : Host.Outcome State Fault Refusal := setOp (.setLt f) 2 f s
def execSetGe (f : Fields) (s : State) : Host.Outcome State Fault Refusal := setOp (.setGe f) 3 f s
def execSetLo (f : Fields) (s : State) : Host.Outcome State Fault Refusal := setOp (.setLo f) 4 f s
def execSetHs (f : Fields) (s : State) : Host.Outcome State Fault Refusal := setOp (.setHs f) 5 f s
def execSetLe (f : Fields) (s : State) : Host.Outcome State Fault Refusal := setOp (.setLe f) 6 f s
def execSetGt (f : Fields) (s : State) : Host.Outcome State Fault Refusal := setOp (.setGt f) 7 f s
def execSetLs (f : Fields) (s : State) : Host.Outcome State Fault Refusal := setOp (.setLs f) 8 f s
def execSetHi (f : Fields) (s : State) : Host.Outcome State Fault Refusal := setOp (.setHi f) 9 f s

/-! Mask registers (R109). -/

def execKmov (f : Fields) (s : State) : Host.Outcome State Fault Refusal :=
  shortOp (.kmov f) f s fun r => writeK r f.d.toNat (readX r f.a.toNat)
def execKget (f : Fields) (s : State) : Host.Outcome State Fault Refusal :=
  shortOp (.kget f) f s fun r => writeX r f.d.toNat (readK r f.a.toNat)

/-- R109: k[D] := k[A] op k[B]. -/
def kopOp (i : Instr) (f : Fields) (s : State) (g : Word → Word → Word) : Host.Outcome State Fault Refusal :=
  shortOp i f s fun r => writeK r f.d.toNat (g (readK r f.a.toNat) (readK r f.b.toNat))

def execKopAnd (f : Fields) (s : State) : Host.Outcome State Fault Refusal := kopOp (.kopAnd f) f s fun a b => a &&& b
def execKopOr (f : Fields) (s : State) : Host.Outcome State Fault Refusal := kopOp (.kopOr f) f s fun a b => a ||| b
def execKopXor (f : Fields) (s : State) : Host.Outcome State Fault Refusal := kopOp (.kopXor f) f s fun a b => a ^^^ b
def execKopAndn (f : Fields) (s : State) : Host.Outcome State Fault Refusal := kopOp (.kopAndn f) f s fun a b => a &&& ~~~ b
def execKopNot (f : Fields) (s : State) : Host.Outcome State Fault Refusal := kopOp (.kopNot f) f s fun a _ => ~~~ a

def execKpop (f : Fields) (s : State) : Host.Outcome State Fault Refusal :=
  shortOp (.kpop f) f s fun r => writeX r f.d.toNat (BitVec.ofNat 64 (onesIn 64 (readK r f.a.toNat).toNat))

/-- R109: 2^n − 1 with n := min(x[A], 64). -/
def kfillValue (a : Word) : Word := BitVec.ofNat 64 (2 ^ (Nat.min a.toNat 64) - 1)

def execKfill (f : Fields) (s : State) : Host.Outcome State Fault Refusal :=
  shortOp (.kfill f) f s fun r => writeK r f.d.toNat (kfillValue (readX r f.a.toNat))

/-! Branches, calls and loops (R110, R111). -/

def execBr (f : Fields) (s : State) : Host.Outcome State Fault Refusal :=
  issue (.br f) s fun r => s.retireTo r (branchTarget r f)

/-- R110: `b.cc` on x[A] and x[B]. -/
def branchOp (i : Instr) (cc : Nat) (f : Fields) (s : State) : Host.Outcome State Fault Refusal :=
  issue i s fun r =>
    s.retireTo r (if intCond cc 64 (readX r f.a.toNat).toNat (readX r f.b.toNat).toNat then branchTarget r f else nextPc r f)

def execBEq (f : Fields) (s : State) : Host.Outcome State Fault Refusal := branchOp (.bEq f) 0 f s
def execBNe (f : Fields) (s : State) : Host.Outcome State Fault Refusal := branchOp (.bNe f) 1 f s
def execBLt (f : Fields) (s : State) : Host.Outcome State Fault Refusal := branchOp (.bLt f) 2 f s
def execBGe (f : Fields) (s : State) : Host.Outcome State Fault Refusal := branchOp (.bGe f) 3 f s
def execBLo (f : Fields) (s : State) : Host.Outcome State Fault Refusal := branchOp (.bLo f) 4 f s
def execBHs (f : Fields) (s : State) : Host.Outcome State Fault Refusal := branchOp (.bHs f) 5 f s
def execBLe (f : Fields) (s : State) : Host.Outcome State Fault Refusal := branchOp (.bLe f) 6 f s
def execBGt (f : Fields) (s : State) : Host.Outcome State Fault Refusal := branchOp (.bGt f) 7 f s
def execBLs (f : Fields) (s : State) : Host.Outcome State Fault Refusal := branchOp (.bLs f) 8 f s
def execBHi (f : Fields) (s : State) : Host.Outcome State Fault Refusal := branchOp (.bHi f) 9 f s

/-- R111: the target in x[A][31:0] must be a multiple of 4, else the alignment fault with BADADDR the target. -/
def jumpOp (i : Instr) (f : Fields) (s : State) (g : Strand → Strand) : Host.Outcome State Fault Refusal :=
  issue i s fun r =>
    let t : BitVec 32 := (readX r f.a.toNat).truncate 32
    if t.toNat % 4 ≠ 0 then s.takeTrap 5 0 (t.zeroExtend 64) else s.retireTo (g r) t

def execJr (f : Fields) (s : State) : Host.Outcome State Fault Refusal := jumpOp (.jr f) f s id
def execRet (f : Fields) (s : State) : Host.Outcome State Fault Refusal := jumpOp (.ret f) f s id
def execCallr (f : Fields) (s : State) : Host.Outcome State Fault Refusal :=
  jumpOp (.callr f) f s fun r => writeX r f.d.toNat ((nextPc r f).zeroExtend 64)
def execCall (f : Fields) (s : State) : Host.Outcome State Fault Refusal :=
  issue (.call f) s fun r => s.retireTo (writeX r f.d.toNat ((nextPc r f).zeroExtend 64)) (branchTarget r f)
def execLoop (f : Fields) (s : State) : Host.Outcome State Fault Refusal :=
  issue (.loop f) s fun r =>
    let n := readX r f.d.toNat - 1
    s.retireTo (writeX r f.d.toNat n) (if n ≠ 0 then branchTarget r f else nextPc r f)

/-! Device time (R112, R113). -/

def execDtRd (f : Fields) (s : State) : Host.Outcome State Fault Refusal :=
  shortOp (.dtRd f) f s fun r => writeX r f.d.toNat s.dt

/-- R113: before x[A] the instruction issues and is presented again; at or after it, it completes. -/
def execDtUntil (f : Fields) (s : State) : Host.Outcome State Fault Refusal :=
  issue (.dtUntil f) s fun r =>
    if s.dt.toNat < (readX r f.a.toNat).toNat then s.retireTo r r.pc
    else s.retire (writeX r f.d.toNat s.dt) f

/-! Scalar floating point (R100, R114 to R117). -/

/-- The format of the instruction under the strand's FMODE (R34). -/
def strandFmt (r : Strand) (c : Nat) : FFmt := ffmt c (statusFmode r.status)

/-- R100: a source from the low bits of its register. -/
def readFX (r : Strand) (c n : Nat) : FVal := readFloat (strandFmt r c) (readX r n).toNat

/-- R100, R45: an exact result rounded once into x[D], with L = 0. -/
def roundX (r : Strand) (f : Fields) (c : Nat) (x : FVal) (fl : Flags) : Nat × Flags :=
  let (bits, g) := deliver (strandFmt r c) (resolveMode r.status f.rm) f.s (draw r.seed r.srcnt 0) x
  (bits, g ||| fl)

/-- A short-class floating operation (R114): flags into STATUS, SRCNT counted. -/
def floatOp (i : Instr) (f : Fields) (s : State) (g : Strand → Nat → FVal) : Host.Outcome State Fault Refusal :=
  shortOp i f s fun r =>
    let mode := resolveMode r.status f.rm
    let (bits, fl) := roundX r f f.fmt.toNat (g r mode) 0
    countSr (raise (writeX r f.d.toNat (BitVec.ofNat 64 bits)) fl) mode

/-- A long-class floating operation. -/
def floatLong (i : Instr) (f : Fields) (s : State) (g : Strand → FVal × Flags) : Host.Outcome State Fault Refusal :=
  longOp i f s (destX f) fun r =>
    let x := g r
    let (bits, fl) := roundX r f f.fmt.toNat x.1 x.2
    (countSr r (resolveMode r.status f.rm), BitVec.ofNat 2048 bits, fl)

def execFAdd (f : Fields) (s : State) : Host.Outcome State Fault Refusal :=
  floatOp (.fAdd f) f s fun r mode => addVal mode (readFX r f.fmt.toNat f.a.toNat) (readFX r f.fmt.toNat f.b.toNat)
def execFSub (f : Fields) (s : State) : Host.Outcome State Fault Refusal :=
  floatOp (.fSub f) f s fun r mode => addVal mode (readFX r f.fmt.toNat f.a.toNat) (readFX r f.fmt.toNat f.b.toNat).negate
def execFMul (f : Fields) (s : State) : Host.Outcome State Fault Refusal :=
  floatOp (.fMul f) f s fun r _ => mulVal (readFX r f.fmt.toNat f.a.toNat) (readFX r f.fmt.toNat f.b.toNat)
def execFFma (f : Fields) (s : State) : Host.Outcome State Fault Refusal :=
  floatOp (.fFma f) f s fun r mode =>
    addVal mode (mulVal (readFX r f.fmt.toNat f.a.toNat) (readFX r f.fmt.toNat f.b.toNat)) (readFX r f.fmt.toNat f.c.toNat)
def execFDiv (f : Fields) (s : State) : Host.Outcome State Fault Refusal :=
  floatLong (.fDiv f) f s fun r => divVal (readFX r f.fmt.toNat f.a.toNat) (readFX r f.fmt.toNat f.b.toNat)
def execFSqrt (f : Fields) (s : State) : Host.Outcome State Fault Refusal :=
  floatLong (.fSqrt f) f s fun r => (sqrtVal (readFX r f.fmt.toNat f.a.toNat), 0)

/-- A source of a conversion: an integer or a floating value (R115, R125). -/
def convSource (c : Nat) (fmode : Bool) (bits : Nat) : FVal :=
  if isFloatFmt c then readFmt c fmode bits else intVal (readFmtInt c bits)

/-- R115: IMM10 is the destination format. -/
def execFCvt (f : Fields) (s : State) : Host.Outcome State Fault Refusal :=
  shortOp (.fCvt f) f s fun r =>
    let mode := resolveMode r.status f.rm
    let (bits, fl) := roundX r f f.imm10.toNat (convSource f.fmt.toNat (statusFmode r.status) (readX r f.a.toNat).toNat) 0
    countSr (raise (writeX r f.d.toNat (BitVec.ofNat 64 bits)) fl) mode
def execFCvti (f : Fields) (s : State) : Host.Outcome State Fault Refusal :=
  shortOp (.fCvti f) f s fun r =>
    let mode := resolveMode r.status f.rm
    let c := f.imm10.toNat
    let (v, fl) := floatToInt (fmtSigned c) (fmtWidth c) mode (draw r.seed r.srcnt 0) (readFX r f.fmt.toNat f.a.toNat)
    countSr (raise (writeX r f.d.toNat (BitVec.ofInt 64 v)) fl) mode

/-- R116. -/
def fcmpOp (i : Instr) (cc : Nat) (f : Fields) (s : State) : Host.Outcome State Fault Refusal :=
  shortOp i f s fun r =>
    let (t, fl) := floatCond cc (readFX r f.fmt.toNat f.a.toNat) (readFX r f.fmt.toNat f.b.toNat)
    raise (writeX r f.d.toNat (if t then 1 else 0)) fl

def execFCmpEq (f : Fields) (s : State) : Host.Outcome State Fault Refusal := fcmpOp (.fCmpEq f) 0 f s
def execFCmpNe (f : Fields) (s : State) : Host.Outcome State Fault Refusal := fcmpOp (.fCmpNe f) 1 f s
def execFCmpLt (f : Fields) (s : State) : Host.Outcome State Fault Refusal := fcmpOp (.fCmpLt f) 2 f s
def execFCmpGe (f : Fields) (s : State) : Host.Outcome State Fault Refusal := fcmpOp (.fCmpGe f) 3 f s
def execFCmpLe (f : Fields) (s : State) : Host.Outcome State Fault Refusal := fcmpOp (.fCmpLe f) 6 f s
def execFCmpGt (f : Fields) (s : State) : Host.Outcome State Fault Refusal := fcmpOp (.fCmpGt f) 7 f s
def execFCmpUn (f : Fields) (s : State) : Host.Outcome State Fault Refusal := fcmpOp (.fCmpUn f) 10 f s
def execFCmpOrd (f : Fields) (s : State) : Host.Outcome State Fault Refusal := fcmpOp (.fCmpOrd f) 11 f s

/-- R117, R121: the lesser or greater of two values; a NaN operand gives NaN. -/
def minVal (a b : FVal) : FVal := if a.isNan || b.isNan then .nan else if lessVal a b then a else b
def maxVal (a b : FVal) : FVal := if a.isNan || b.isNan then .nan else if lessVal a b then b else a

/-- R117: the sign cleared. -/
def absVal : FVal → FVal
  | .nan => .nan
  | .inf _ => .inf false
  | .fin _ m e k => .fin false m e k

/-- R117: an operation that does not round. -/
def exactOp (i : Instr) (f : Fields) (s : State) (g : FVal → FVal → FVal) : Host.Outcome State Fault Refusal :=
  shortOp i f s fun r =>
    let (bits, fl) := deliver (strandFmt r f.fmt.toNat) 0 false 0
      (g (readFX r f.fmt.toNat f.a.toNat) (readFX r f.fmt.toNat f.b.toNat))
    raise (writeX r f.d.toNat (BitVec.ofNat 64 bits)) fl

def execFMin (f : Fields) (s : State) : Host.Outcome State Fault Refusal := exactOp (.fMin f) f s minVal
def execFMax (f : Fields) (s : State) : Host.Outcome State Fault Refusal := exactOp (.fMax f) f s maxVal
def execFAbs (f : Fields) (s : State) : Host.Outcome State Fault Refusal := exactOp (.fAbs f) f s fun a _ => absVal a
def execFNeg (f : Fields) (s : State) : Host.Outcome State Fault Refusal := exactOp (.fNeg f) f s fun a _ => a.negate

end Sys2Proof.Machine
end

