-- ==== Sys2Proof/Machine/Transcendental.lean ====
section
/-! DEFINITION. The real functions of R123, computed in fixed point far beyond the bits that rounding reads (log 8), with their
exact cases. -/

namespace Sys2Proof.Machine

/-- Fraction bits of the working precision. -/
def fixBits : Nat := 512
/-- Fraction bits of π and of the argument reduction, enough for an argument below 2^128. -/
def piBits : Nat := 768
/-- Low bits of a computed value that its error may reach; they are dropped. -/
def guardBits : Nat := 40

/-- Σ t(n)/(2n+1) with t(n+1) = t(n) / d, all terms of one sign: the series of atanh(1/√d) times √d. -/
def atanhRecip (d : Nat) : Nat → Nat → Nat → Nat
  | 0, _, _ => 0
  | fuel + 1, t, n => if t = 0 then 0 else t / (2 * n + 1) + atanhRecip d fuel (t / d) (n + 1)

/-- The same with alternating signs: the terms added less those subtracted. -/
def atanRecip (d : Nat) : Nat → Nat → Nat → Int
  | 0, _, _ => 0
  | fuel + 1, t, n =>
    if t = 0 then 0
    else (if n % 2 = 0 then 1 else -1) * ((t / (2 * n + 1) : Nat) : Int) + atanRecip d fuel (t / d) (n + 1)

/-- ln 2 = 2 atanh(1/3), in `fixBits` fraction bits. -/
def lnTwo : Nat := atanhRecip 9 400 (2 ^ (fixBits + 1 + 64) / 3) 0 / 2 ^ 64

/-- π/2 = 8 atan(1/5) − 2 atan(1/239), in `piBits` fraction bits. -/
def halfPi : Nat :=
  (8 * atanRecip 25 400 (2 ^ (piBits + 64) / 5) 0 - 2 * atanRecip 57121 400 (2 ^ (piBits + 64) / 239) 0).toNat / 2 ^ 64

/-- Σ yⁿ/n! from term n on; y and t in `fixBits` fraction bits. -/
def expSeries (y : Nat) : Nat → Nat → Nat → Nat
  | 0, _, _ => 0
  | fuel + 1, t, n => if t = 0 then 0 else t + expSeries y fuel (t * y / 2 ^ fixBits / (n + 1)) (n + 1)

/-- e^y for 0 ≤ y < 1. -/
def expFix (y : Nat) : Nat := expSeries y 200 (2 ^ fixBits) 0

/-- e^t for t ≥ 0 in `fixBits` fraction bits: e^(t − i·ln 2) × 2^i. -/
def expPos (t : Nat) : Nat := expFix (t - t / lnTwo * lnTwo) * 2 ^ (t / lnTwo)

/-- Alternating Taylor series of sine (from t = y, n = 1) and cosine (from t = 1, n = 0): y2 is y². -/
def trigSeries (y2 : Nat) : Nat → Nat → Nat → Int
  | 0, _, _ => 0
  | fuel + 1, t, n =>
    if t = 0 then 0 else (t : Int) - trigSeries y2 fuel (t * y2 / 2 ^ fixBits / ((n + 1) * (n + 2))) (n + 2)

def sinFix (y : Nat) : Int := trigSeries (y * y / 2 ^ fixBits) 200 y 1
def cosFix (y : Nat) : Int := trigSeries (y * y / 2 ^ fixBits) 200 (2 ^ fixBits) 0

/-- Σ z^(2n+1)/(2n+1): atanh z. -/
def atanhSeries (z2 : Nat) : Nat → Nat → Nat → Nat
  | 0, _, _ => 0
  | fuel + 1, t, n => if t = 0 then 0 else t / (2 * n + 1) + atanhSeries z2 fuel (t * z2 / 2 ^ fixBits) (n + 1)

/-- A computed magnitude as an exact result: its guard bits dropped, something below the rest. -/
def fixVal (neg : Bool) (v : Nat) : FVal := .fin neg (v / 2 ^ guardBits) ((guardBits : Int) - fixBits) true

/-- Just above and just below m × 2^e. -/
def justAbove (neg : Bool) (m : Nat) (e : Int) : FVal := .fin neg (m * 2 ^ 100) (e - 100) true
def justBelow (neg : Bool) (m : Nat) (e : Int) : FVal := .fin neg (m * 2 ^ 100 - 1) (e - 100) true

/-- m × 2^e in `fixBits` fraction bits, rounded down. -/
def toFix (m : Nat) (e : Int) : Nat :=
  if 0 ≤ e + fixBits then m * 2 ^ (e + fixBits).toNat else m / 2 ^ (-(e + fixBits)).toNat

/-- The exponent of the leading bit. -/
def leadExp (m : Nat) (e : Int) : Int := (Nat.log2 m : Int) + e

/-- 2^a. -/
def exp2Val : FVal → FVal
  | .nan => .nan
  | .inf neg => if neg then .fin false 0 0 false else .inf false
  | .fin neg m e _ =>
    if m = 0 then .fin false 1 0 false
    else if leadExp m e < -110 then (if neg then justBelow false 1 0 else justAbove false 1 0)
    else if 9 < leadExp m e then (if neg then .fin false 1 (-600) true else .fin false 1 600 true)
    else
      let t := toFix m e
      let i := t / 2 ^ fixBits
      let fr := t % 2 ^ fixBits
      if fr = 0 then .fin false 1 (if neg then -(i : Int) else (i : Int)) false
      else
        -- a negative argument −(i + fr) is −(i + 1) + (1 − fr)
        let y := if neg then 2 ^ fixBits - fr else fr
        let k : Int := if neg then -(i : Int) - 1 else (i : Int)
        match fixVal false (expFix (y * lnTwo / 2 ^ fixBits)) with
        | .fin n m' e' st => .fin n m' (e' + k) st
        | v => v

/-- log2 a; DZ at ±0. -/
def log2Val : FVal → FVal × Flags
  | .nan => (.nan, 0)
  | .inf neg => (if neg then .nan else .inf false, 0)
  | .fin neg m e _ =>
    if m = 0 then (.inf true, flagDZ)
    else if neg then (.nan, 0)
    else
      let E := leadExp m e
      -- f = m / 2^log2 m in [1, 2), halved when above 1.4375
      let f0 := m * 2 ^ fixBits / 2 ^ Nat.log2 m
      let big := decide (23 * 2 ^ fixBits < 16 * f0)
      let E := if big then E + 1 else E
      let f := if big then f0 / 2 else f0
      if f = 2 ^ fixBits then (intVal E, 0)
      else
        let below := decide (f < 2 ^ fixBits)
        let d := if below then 2 ^ fixBits - f else f - 2 ^ fixBits
        let z := d * 2 ^ fixBits / (f + 2 ^ fixBits)
        let l := 2 * atanhSeries (z * z / 2 ^ fixBits) 400 z 0 * 2 ^ fixBits / lnTwo
        let t : Int := E * ((2 ^ fixBits : Nat) : Int) + (if below then -(l : Int) else (l : Int))
        (fixVal (decide (t < 0)) t.natAbs, 0)

/-- The quadrant of |a| and the distance from it: |a| = q·π/2 ± r with r ≤ π/4; r in `fixBits` fraction bits. -/
def reduceArg (m : Nat) (e : Int) : Nat × Bool × Nat :=
  let x := if 0 ≤ e + piBits then m * 2 ^ (e + piBits).toNat else m / 2 ^ (-(e + piBits)).toNat
  let q := (x + halfPi / 2) / halfPi
  let below := decide (x < q * halfPi)
  let r := if below then q * halfPi - x else x - q * halfPi
  (q, below, r / 2 ^ (piBits - fixBits))

/-- An integer in `fixBits` fraction bits as an exact result. -/
def fixInt (neg : Bool) (t : Int) : FVal := fixVal (neg != decide (t < 0)) t.natAbs

def sinVal : FVal → FVal
  | .nan => .nan
  | .inf _ => .nan
  | .fin neg m e _ =>
    if m = 0 then .fin neg 0 0 false
    else if leadExp m e < -60 then justBelow neg m e
    else
      let (q, below, r) := reduceArg m e
      let sr : Int := if below then -(sinFix r) else sinFix r
      fixInt neg (match q % 4 with
        | 0 => sr
        | 1 => cosFix r
        | 2 => -sr
        | _ => -(cosFix r))

def cosVal : FVal → FVal
  | .nan => .nan
  | .inf _ => .nan
  | .fin _ m e _ =>
    if m = 0 then .fin false 1 0 false
    else if leadExp m e < -60 then justBelow false 1 0
    else
      let (q, below, r) := reduceArg m e
      let sr : Int := if below then -(sinFix r) else sinFix r
      fixInt false (match q % 4 with
        | 0 => cosFix r
        | 1 => -sr
        | 2 => -(cosFix r)
        | _ => sr)

def tanhVal : FVal → FVal
  | .nan => .nan
  | .inf neg => .fin neg 1 0 false
  | .fin neg m e _ =>
    if m = 0 then .fin neg 0 0 false
    else if leadExp m e < -60 then justBelow neg m e
    else if 6 < leadExp m e then justBelow neg 1 0
    else
      let p := expPos (2 * toFix m e)
      fixVal neg ((p - 2 ^ fixBits) * 2 ^ fixBits / (p + 2 ^ fixBits))

/-- 1 / (1 + e^−a). -/
def sigVal : FVal → FVal
  | .nan => .nan
  | .inf neg => if neg then .fin false 0 0 false else .fin false 1 0 false
  | .fin neg m e _ =>
    if m = 0 then .fin false 1 (-1) false
    else if leadExp m e < -110 then (if neg then justBelow false 1 (-1) else justAbove false 1 (-1))
    else if 7 < leadExp m e then (if neg then .fin false 1 (-300) true else justBelow false 1 0)
    else
      let p := expPos (toFix m e)
      fixVal false (if neg then 2 ^ (2 * fixBits) / (2 ^ fixBits + p) else p * 2 ^ fixBits / (p + 2 ^ fixBits))

/-- 1 / a. -/
def rcpVal (x : FVal) : FVal × Flags := divVal (.fin false 1 0 false) x

/-- 1 / √a; DZ at ±0 with the sign of a. -/
def rsqVal : FVal → FVal × Flags
  | .nan => (.nan, 0)
  | .inf neg => (if neg then .nan else .fin false 0 0 false, 0)
  | .fin neg m e _ =>
    if m = 0 then (.inf neg, flagDZ)
    else if neg then (.nan, 0)
    else
      -- a = m' × 2^e' with e' even
      let m' := if e % 2 = 0 then m else 2 * m
      let e' := if e % 2 = 0 then e else e - 1
      let k := quotientBits + Nat.log2 m'
      let q := isqrt (2 ^ (2 * k) / m')
      (.fin false q (-(e' / 2) - k) (m' * q * q != 2 ^ (2 * k)), 0)

end Sys2Proof.Machine
end

