-- ==== Sys2Proof/Machine/Vector.lean ====
section
/-! DEFINITION. Vector instructions (R118 to R134, file 06) and the long accumulator (R47, R48). -/

namespace Sys2Proof.Machine

/-- The draw of rounding L under sr (R45). -/
def drawFor (r : Strand) (mode l : Nat) : Nat := if mode = 5 then draw r.seed r.srcnt l else 0

/-- R178: the element that a failed refill marked is discarded by the instruction that pops it. -/
def discardFailed (r : Strand) (srcs : List Nat) : Strand :=
  match srcs.find? (fun n => decide (32 ≤ n) && (match checkIn r (n - 32) with
    | .trap 9 _ _ => true
    | _ => false)) with
  | some n => popPort r (n - 32)
  | none => r

/-- A vector instruction issues: pending registers, its own holds and ports first (R21, R98, R178), then the trap that its chapter
puts before the ports', the ports', the freeze of an element that its port's buffer has lost (R358; log 40), and its effect on the strand, from the values of its sources and the strand after the
pops (R119). -/
def vecIssue (i : Instr) (s : State) (held : Bool) (first : Option (Nat × Word)) (srcs : List Nat) (dst : Option Nat)
    (k : Strand → List VReg → Strand → State) : Host.Outcome State Fault Refusal :=
  issue i s fun r =>
    if held then s
    else match checkPorts r srcs dst, first with
    | .hold, _ => s
    | _, some (code, bad) => s.takeTrap code 0 bad
    | .trap code bad info, none => (if code = 9 then s.setMe (discardFailed r srcs) else s).takeTrap code info bad
    | .ok, none => if srcs.any (spoiltSource r) then s.freeze s.cur 3 0 else k r (srcs.map (readVP r)) (popPorts r srcs)

/-- A short-class instruction with a vector destination: value and flags from the strand, the sources and the destination's old
contents. `mode` is the rounding mode that SRCNT counts (0 where nothing rounds). -/
def vecOp (i : Instr) (f : Fields) (s : State) (srcs : List Nat) (mode : Strand → Nat)
    (g : Strand → List VReg → VReg → VReg × Flags) : Host.Outcome State Fault Refusal :=
  vecIssue i s false none srcs (some f.d.toNat) fun r vs r1 =>
    let (v, fl) := g r vs (readDst r f.d.toNat)
    s.retire (countSr (raise (writeVP r1 f.d.toNat v) fl) (mode r)) f

/-- A long-class vector instruction: the destination becomes pending (R21). -/
def vecLong (i : Instr) (f : Fields) (s : State) (srcs : List Nat) (g : Strand → List VReg → VReg → VReg × Flags) :
    Host.Outcome State Fault Refusal :=
  vecIssue i s (!longRoom s.me false) none srcs none fun r vs r1 =>
    let (v, fl) := g r vs (readV r f.d.toNat)
    s.startLong (countSr r1 (resolveMode r.status f.rm)) f { id := 0, dest := .v f.d.toNat, data := v, flags := fl }

/-- R83, R121: each active element receives its result, an inactive one keeps its value or becomes 0; flags of active ones. -/
def mapElems (b : Nat) (m : Word) (zm : Bool) (old : VReg) (g : Nat → Nat × Flags) : VReg × Flags :=
  let rs := (List.range (elemCount b)).map fun j =>
    if elemActive b m j then g j else (inactive zm (elemAt b old j), 0)
  (packV b (rs.map fun p => p.1), orFlags (rs.map fun p => p.2))

/-- The operand at a position of the sources. -/
def src (vs : List VReg) (n : Nat) : VReg := vs.getD n 0

def modeOf (f : Fields) (r : Strand) : Nat := resolveMode r.status f.rm
def noMode (_ : Strand) : Nat := 0

/-- The rounding mode of a form: only the floating forms round (R118). -/
def floatMode (f : Fields) (r : Strand) : Nat := if isFloatFmt f.fmt.toNat then modeOf f r else 0

/-- R121: a floating result of element j, rounded once with L = j. -/
def roundElem (r : Strand) (f : Fields) (j : Nat) (x : FVal × Flags) : Nat × Flags :=
  let mode := modeOf f r
  let (bits, fl) := deliver (strandFmt r f.fmt.toNat) mode f.s (drawFor r mode j) x.1
  (bits, fl ||| x.2)

/-- A floating result that is exact in the format (R117, R121). -/
def exactElem (r : Strand) (f : Fields) (x : FVal) : Nat × Flags := deliver (strandFmt r f.fmt.toNat) 0 false 0 x

/-- R121, R122: an elementwise operation of two sources, floating or integer by FMT. -/
def arith (i : Instr) (f : Fields) (s : State) (gf : Nat → FVal → FVal → FVal) (gi : Int → Int → Int) :
    Host.Outcome State Fault Refusal :=
  vecOp i f s [f.a.toNat, f.b.toNat] (floatMode f) fun r vs old =>
    let c := f.fmt.toNat
    let b := fmtWidth c
    let F := strandFmt r c
    mapElems b (laneMask r f) f.zm old fun j =>
      let x := elemAt b (src vs 0) j
      let y := elemAt b (src vs 1) j
      if isFloatFmt c then roundElem r f j (gf (modeOf f r) (readFloat F x) (readFloat F y), 0)
      else (deliverInt c f.s (gi (readFmtInt c x) (readFmtInt c y)), 0)

/-- R121: an elementwise floating operation of three sources. -/
def arith3 (i : Instr) (f : Fields) (s : State) (g : Nat → FVal → FVal → FVal → FVal) : Host.Outcome State Fault Refusal :=
  vecOp i f s [f.a.toNat, f.b.toNat, f.c.toNat] (modeOf f) fun r vs old =>
    let b := fmtWidth f.fmt.toNat
    let F := strandFmt r f.fmt.toNat
    mapElems b (laneMask r f) f.zm old fun j =>
      roundElem r f j (g (modeOf f r) (readFloat F (elemAt b (src vs 0) j)) (readFloat F (elemAt b (src vs 1) j))
        (readFloat F (elemAt b (src vs 2) j)), 0)

/-- R117, R121, R122: an elementwise operation that rounds nothing. -/
def arithExact (i : Instr) (f : Fields) (s : State) (srcs : List Nat) (gf : FVal → FVal → FVal) (gi : Int → Int → Int) :
    Host.Outcome State Fault Refusal :=
  vecOp i f s srcs noMode fun r vs old =>
    let c := f.fmt.toNat
    let b := fmtWidth c
    let F := strandFmt r c
    mapElems b (laneMask r f) f.zm old fun j =>
      let x := elemAt b (src vs 0) j
      let y := elemAt b (src vs 1) j
      if isFloatFmt c then exactElem r f (gf (readFloat F x) (readFloat F y))
      else (deliverInt c f.s (gi (readFmtInt c x) (readFmtInt c y)), 0)

/-- R121, R123: a long-class elementwise function. -/
def vecFn (i : Instr) (f : Fields) (s : State) (srcs : List Nat) (g : FVal → FVal → FVal × Flags) : Host.Outcome State Fault Refusal :=
  vecLong i f s srcs fun r vs old =>
    let b := fmtWidth f.fmt.toNat
    let F := strandFmt r f.fmt.toNat
    mapElems b (laneMask r f) f.zm old fun j =>
      roundElem r f j (g (readFloat F (elemAt b (src vs 0) j)) (readFloat F (elemAt b (src vs 1) j)))

def execVAdd (f : Fields) (s : State) : Host.Outcome State Fault Refusal :=
  arith (.vAdd f) f s addVal fun a b => a + b
def execVSub (f : Fields) (s : State) : Host.Outcome State Fault Refusal :=
  arith (.vSub f) f s (fun m a b => addVal m a b.negate) fun a b => a - b
def execVMul (f : Fields) (s : State) : Host.Outcome State Fault Refusal :=
  arith (.vMul f) f s (fun _ a b => mulVal a b) fun a b => a * b
def execVFma (f : Fields) (s : State) : Host.Outcome State Fault Refusal :=
  arith3 (.vFma f) f s fun m a b c => addVal m (mulVal a b) c
def execVFms (f : Fields) (s : State) : Host.Outcome State Fault Refusal :=
  arith3 (.vFms f) f s fun m a b c => addVal m (mulVal a b) c.negate
def execVFnma (f : Fields) (s : State) : Host.Outcome State Fault Refusal :=
  arith3 (.vFnma f) f s fun m a b c => addVal m (mulVal a b).negate c
def execVMin (f : Fields) (s : State) : Host.Outcome State Fault Refusal :=
  arithExact (.vMin f) f s [f.a.toNat, f.b.toNat] minVal fun a b => if a < b then a else b
def execVMax (f : Fields) (s : State) : Host.Outcome State Fault Refusal :=
  arithExact (.vMax f) f s [f.a.toNat, f.b.toNat] maxVal fun a b => if a < b then b else a
def execVAbs (f : Fields) (s : State) : Host.Outcome State Fault Refusal :=
  arithExact (.vAbs f) f s [f.a.toNat] (fun a _ => absVal a) fun a _ => (a.natAbs : Int)
def execVNeg (f : Fields) (s : State) : Host.Outcome State Fault Refusal :=
  arithExact (.vNeg f) f s [f.a.toNat] (fun a _ => a.negate) fun a _ => -a
def execVDiv (f : Fields) (s : State) : Host.Outcome State Fault Refusal :=
  vecFn (.vDiv f) f s [f.a.toNat, f.b.toNat] divVal
def execVSqrt (f : Fields) (s : State) : Host.Outcome State Fault Refusal :=
  vecFn (.vSqrt f) f s [f.a.toNat] fun a _ => (sqrtVal a, 0)
def execVRcp (f : Fields) (s : State) : Host.Outcome State Fault Refusal :=
  vecFn (.vRcp f) f s [f.a.toNat] fun a _ => rcpVal a
def execVRsq (f : Fields) (s : State) : Host.Outcome State Fault Refusal :=
  vecFn (.vRsq f) f s [f.a.toNat] fun a _ => rsqVal a
def execVExp2 (f : Fields) (s : State) : Host.Outcome State Fault Refusal :=
  vecFn (.vExp2 f) f s [f.a.toNat] fun a _ => (exp2Val a, 0)
def execVLog2 (f : Fields) (s : State) : Host.Outcome State Fault Refusal :=
  vecFn (.vLog2 f) f s [f.a.toNat] fun a _ => log2Val a
def execVSin (f : Fields) (s : State) : Host.Outcome State Fault Refusal :=
  vecFn (.vSin f) f s [f.a.toNat] fun a _ => (sinVal a, 0)
def execVCos (f : Fields) (s : State) : Host.Outcome State Fault Refusal :=
  vecFn (.vCos f) f s [f.a.toNat] fun a _ => (cosVal a, 0)
def execVTanh (f : Fields) (s : State) : Host.Outcome State Fault Refusal :=
  vecFn (.vTanh f) f s [f.a.toNat] fun a _ => (tanhVal a, 0)
def execVSig (f : Fields) (s : State) : Host.Outcome State Fault Refusal :=
  vecFn (.vSig f) f s [f.a.toNat] fun a _ => (sigVal a, 0)

/-! Conversions (R125). -/

/-- The number of parts per lane of a format (R118). -/
def partsOf (c : Nat) : Nat := 32 / fmtWidth c

/-- Part p of lane i. -/
def partAt (c : Nat) (v : VReg) (i p : Nat) : Nat := elemAt (fmtWidth c) v (i * partsOf c + p % partsOf c)

/-- A lane with one part replaced. -/
def setPart (c : Nat) (lane p v : Nat) : Nat :=
  let b := fmtWidth c
  let q := p % partsOf c
  lane - (lane / 2 ^ (b * q) % 2 ^ b) * 2 ^ (b * q) + v % 2 ^ b * 2 ^ (b * q)

/-- R125: one value per lane, from part P of its lane to part P of the destination's lane. -/
def convert (i : Instr) (f : Fields) (s : State) (mode : Strand → Nat) (g : Strand → Nat → Nat → Nat → Nat × Flags) :
    Host.Outcome State Fault Refusal :=
  vecOp i f s [f.a.toNat] mode fun r vs old =>
    let sf := f.fmt.toNat
    let df := f.imm10.toNat % 32
    let p := f.imm10.toNat / 32
    mapElems 32 (laneMask r f) f.zm old fun l =>
      let (v, fl) := g r df l (partAt sf (src vs 0) l p)
      (setPart df (elemAt 32 old l) p v, fl)

def execVCvt (f : Fields) (s : State) : Host.Outcome State Fault Refusal :=
  convert (.vCvt f) f s (modeOf f) fun r df l bits =>
    let mode := modeOf f r
    deliver (strandFmt r df) mode f.s (drawFor r mode l) (convSource f.fmt.toNat (statusFmode r.status) bits)
def execVCvti (f : Fields) (s : State) : Host.Outcome State Fault Refusal :=
  convert (.vCvti f) f s (floatMode f) fun r df l bits =>
    let mode := modeOf f r
    if isFloatFmt f.fmt.toNat then
      let (v, fl) := floatToInt (fmtSigned df) (fmtWidth df) mode (drawFor r mode l) (readFmt f.fmt.toNat (statusFmode r.status) bits)
      (wrapInt (fmtWidth df) v, fl)
    else (deliverInt df true (readFmtInt f.fmt.toNat bits), 0)

/-! Comparison, selection, logic and shifts (R124). -/

/-- A 64-bit mask from one bit per lane, lane 0 lowest. -/
def packMask : List Bool → Nat
  | [] => 0
  | b :: r => (if b then 1 else 0) + 2 * packMask r

/-- R124: all 64 lanes are compared; the row of conditions follows FMT. -/
def vcmpOp (i : Instr) (cc : Nat) (f : Fields) (s : State) : Host.Outcome State Fault Refusal :=
  vecIssue i s false none [f.a.toNat, f.b.toNat] none fun r vs r1 =>
    let F := strandFmt r f.fmt.toNat
    let rs := (List.range 64).map fun l =>
      let x := elemAt 32 (src vs 0) l
      let y := elemAt 32 (src vs 1) l
      if isFloatFmt f.fmt.toNat then floatCond cc (readFloat F x) (readFloat F y) else (intCond cc 32 x y, 0)
    s.retire (raise (writeK r1 f.d.toNat (BitVec.ofNat 64 (packMask (rs.map fun p => p.1)))) (orFlags (rs.map fun p => p.2))) f

def execVCmpEq (f : Fields) (s : State) : Host.Outcome State Fault Refusal := vcmpOp (.vCmpEq f) 0 f s
def execVCmpNe (f : Fields) (s : State) : Host.Outcome State Fault Refusal := vcmpOp (.vCmpNe f) 1 f s
def execVCmpLt (f : Fields) (s : State) : Host.Outcome State Fault Refusal := vcmpOp (.vCmpLt f) 2 f s
def execVCmpGe (f : Fields) (s : State) : Host.Outcome State Fault Refusal := vcmpOp (.vCmpGe f) 3 f s
def execVCmpLo (f : Fields) (s : State) : Host.Outcome State Fault Refusal := vcmpOp (.vCmpLo f) 4 f s
def execVCmpHs (f : Fields) (s : State) : Host.Outcome State Fault Refusal := vcmpOp (.vCmpHs f) 5 f s
def execVCmpLe (f : Fields) (s : State) : Host.Outcome State Fault Refusal := vcmpOp (.vCmpLe f) 6 f s
def execVCmpGt (f : Fields) (s : State) : Host.Outcome State Fault Refusal := vcmpOp (.vCmpGt f) 7 f s
def execVCmpLs (f : Fields) (s : State) : Host.Outcome State Fault Refusal := vcmpOp (.vCmpLs f) 8 f s
def execVCmpHi (f : Fields) (s : State) : Host.Outcome State Fault Refusal := vcmpOp (.vCmpHi f) 9 f s
def execVCmpUn (f : Fields) (s : State) : Host.Outcome State Fault Refusal := vcmpOp (.vCmpUn f) 10 f s
def execVCmpOrd (f : Fields) (s : State) : Host.Outcome State Fault Refusal := vcmpOp (.vCmpOrd f) 11 f s

def execVSel (f : Fields) (s : State) : Host.Outcome State Fault Refusal :=
  vecOp (.vSel f) f s [f.a.toNat, f.b.toNat] noMode fun r vs _ =>
    mapElems 32 (laneMask r f) false (src vs 1) fun l => (elemAt 32 (src vs 0) l, 0)

/-- R124: a bitwise operation on lanes. -/
def logic (i : Instr) (f : Fields) (s : State) (g : VReg → VReg → VReg) : Host.Outcome State Fault Refusal :=
  vecOp i f s [f.a.toNat, f.b.toNat] noMode fun r vs old =>
    let v := g (src vs 0) (src vs 1)
    mapElems 32 (laneMask r f) f.zm old fun l => (elemAt 32 v l, 0)

def execVAnd (f : Fields) (s : State) : Host.Outcome State Fault Refusal :=
  logic (.vAnd f) f s fun a b => a &&& b
def execVOr (f : Fields) (s : State) : Host.Outcome State Fault Refusal :=
  logic (.vOr f) f s fun a b => a ||| b
def execVXor (f : Fields) (s : State) : Host.Outcome State Fault Refusal :=
  logic (.vXor f) f s fun a b => a ^^^ b
def execVAndn (f : Fields) (s : State) : Host.Outcome State Fault Refusal :=
  logic (.vAndn f) f s fun a b => a &&& ~~~ b

/-- R124: as R102 per element; the count is elem(B, j) as a natural, mod b. -/
def vshift (i : Instr) (f : Fields) (s : State) (srcs : List Nat) (g : Int → Nat → Nat → Int) : Host.Outcome State Fault Refusal :=
  vecOp i f s srcs noMode fun r vs old =>
    let c := f.fmt.toNat
    let b := fmtWidth c
    mapElems b (laneMask r f) f.zm old fun j =>
      (deliverInt c f.s (g (readFmtInt c (elemAt b (src vs 0) j)) (elemAt b (src vs 1) j % b) b), 0)

def execVShl (f : Fields) (s : State) : Host.Outcome State Fault Refusal :=
  vshift (.vShl f) f s [f.a.toNat, f.b.toNat] fun a n _ => a * ((2 ^ n : Nat) : Int)
def execVShr (f : Fields) (s : State) : Host.Outcome State Fault Refusal :=
  vshift (.vShr f) f s [f.a.toNat, f.b.toNat] fun a n _ => a / ((2 ^ n : Nat) : Int)
def execVRot (f : Fields) (s : State) : Host.Outcome State Fault Refusal :=
  vshift (.vRot f) f s [f.a.toNat, f.b.toNat] fun a n b => ((rotl b (pattern b a) n : Nat) : Int)
def execVClz (f : Fields) (s : State) : Host.Outcome State Fault Refusal :=
  vshift (.vClz f) f s [f.a.toNat] fun a _ b => ((leadingZeros b (pattern b a) : Nat) : Int)

/-! Integer dot products (R126). -/

/-- R126: the dot product of the parts of a lane, added exactly to the i32 accumulator, then wrapped or saturated. -/
def dotOp (i : Instr) (f : Fields) (s : State) : Host.Outcome State Fault Refusal :=
  vecOp i f s [f.a.toNat, f.b.toNat, f.c.toNat] noMode fun r vs old =>
    let ca := f.fmt.toNat
    let cb := f.imm10.toNat
    mapElems 32 (laneMask r f) f.zm old fun l =>
      let t := (List.range (partsOf ca)).foldl
        (fun acc e => acc + readFmtInt ca (partAt ca (src vs 0) l e) * readFmtInt cb (partAt cb (src vs 1) l e))
        (readInt true 32 (elemAt 32 (src vs 2) l))
      (deliverInt 4 f.s t, 0)

def execVDot4 (f : Fields) (s : State) : Host.Outcome State Fault Refusal :=
  dotOp (.vDot4 f) f s
def execVDot8 (f : Fields) (s : State) : Host.Outcome State Fault Refusal :=
  dotOp (.vDot8 f) f s

/-! Reductions and scans (R127 to R129). -/

/-- A partial result of a tree: the bits of a floating value, or an exact integer. -/
abbrev Partial := Int

/-- R127: a node passes its one present operand, and combines two by its number. -/
def node (g : Nat → Partial → Partial → Partial × Flags) (n : Nat) : Option Partial → Option Partial → Option Partial × Flags
  | none, y => (y, 0)
  | x, none => (x, 0)
  | some x, some y => let (v, fl) := g n x y; (some v, fl)

/-- One level of the tree; its nodes are numbered from `base`. -/
def treeLevel (g : Nat → Partial → Partial → Partial × Flags) : Nat → List (Option Partial) → List (Option Partial) × Flags
  | base, x :: y :: r =>
    let (v, fl) := node g base x y
    let (vs, fls) := treeLevel g (base + 1) r
    (v :: vs, fl ||| fls)
  | _, _ => ([], 0)

/-- R127: the levels of the tree from the leaves up; a 64-leaf tree has 6 more, a 128-leaf tree 7. -/
def treeLevels (g : Nat → Partial → Partial → Partial × Flags) : Nat → Nat → List (Option Partial) → List (List (Option Partial)) × Flags
  | 0, _, leaves => ([leaves], 0)
  | k + 1, base, leaves =>
    let (up, fl) := treeLevel g base leaves
    let (rest, fls) := treeLevels g k (base + up.length) up
    (leaves :: rest, fl ||| fls)

/-- R129: the prefixes P(0), P(1), … built from the nodes; `done` holds those below j. -/
def prefixes (g : Nat → Partial → Partial → Partial × Flags) (levels : List (List (Option Partial))) (n : Nat) :
    Nat → Nat → List (Option Partial) → Flags → List (Option Partial) × Flags
  | 0, _, done, fl => (done, fl)
  | fuel + 1, j, done, fl =>
    let t := trailingZeros 8 (j + 1)
    let block := (levels.getD t []).getD ((j + 1) / 2 ^ t - 1) none
    let (p, f1) := if j + 1 = 2 ^ t then (block, 0) else node g (n - 1 + j) (done.getD (j - 2 ^ t) none) block
    prefixes g levels n fuel (j + 1) (done ++ [p]) (fl ||| f1)

/-- The operations of a reduction: 0 add, 1 min, 2 max, 3 and, 4 or, 5 xor. -/
def combine (r : Strand) (f : Fields) (op : Nat) (l : Nat) (x y : Partial) : Partial × Flags :=
  let c := f.fmt.toNat
  if isFloatFmt c then
    let F := strandFmt r c
    let a := readFloat F x.toNat
    let b := readFloat F y.toNat
    let mode := modeOf f r
    let (v, fl) :=
      if op = 0 then deliver F mode f.s (drawFor r mode l) (addVal mode a b)
      else deliver F 0 false 0 (if op = 1 then minVal a b else maxVal a b)
    ((v : Int), fl)
  else
    let w := fmtWidth c
    let px := pattern w x
    let py := pattern w y
    (if op = 0 then x + y
      else if op = 1 then (if x < y then x else y)
      else if op = 2 then (if x < y then y else x)
      else if op = 3 then ((px &&& py : Nat) : Int)
      else if op = 4 then ((px ||| py : Nat) : Int)
      else ((px ^^^ py : Nat) : Int), 0)

/-- R128: what an absent root or prefix delivers. -/
def absentValue (r : Strand) (f : Fields) (op : Nat) : Nat :=
  let c := f.fmt.toNat
  let w := fmtWidth c
  if isFloatFmt c then
    let F := strandFmt r c
    if op = 0 then 0 else if op = 1 then infBits F else infBits F + signBit F true
  else if op = 1 then wrapInt w (intMax (fmtSigned c) w)
  else if op = 2 then wrapInt w (intMin (fmtSigned c) w)
  else if op = 3 then 2 ^ w - 1
  else 0

/-- A root or prefix as the element it delivers. A lone NaN that the nodes pass through is delivered as the default NaN (R35; log 17). -/
def deliverPartial (r : Strand) (f : Fields) (op : Nat) : Option Partial → Nat
  | none => absentValue r f op
  | some v =>
    if isFloatFmt f.fmt.toNat then
      let F := strandFmt r f.fmt.toNat
      if (readFloat F v.toNat).isNan then F.nanBits else v.toNat
    else deliverInt f.fmt.toNat f.s v

/-- R127: the leaves; a masked-off element is absent. -/
def leaves (r : Strand) (f : Fields) (v : VReg) : List (Option Partial) :=
  let c := f.fmt.toNat
  let b := fmtWidth c
  (List.range (elemCount b)).map fun j =>
    if elemActive b (laneMask r f) j then
      some (if isFloatFmt c then (elemAt b v j : Int) else readFmtInt c (elemAt b v j))
    else none

/-- R35: a NaN among the elements that a reduction or scan receives raises invalid, also where no node combines it (log 17). -/
def leafFlags (r : Strand) (f : Fields) (ls : List (Option Partial)) : Flags :=
  if isFloatFmt f.fmt.toNat && ls.any fun p => p.any fun v => (readFloat (strandFmt r f.fmt.toNat) v.toNat).isNan then flagNV else 0

/-- log2 of the number of leaves. -/
def treeHeight (f : Fields) : Nat := if fmtWidth f.fmt.toNat = 32 then 6 else 7

/-- R128: the root goes to every element of the destination. -/
def reduce (i : Instr) (op : Nat) (f : Fields) (s : State) : Host.Outcome State Fault Refusal :=
  vecOp i f s [f.a.toNat] (if op = 0 then floatMode f else noMode) fun r vs _ =>
    let b := fmtWidth f.fmt.toNat
    let ls := leaves r f (src vs 0)
    let (levels, fl) := treeLevels (combine r f op) (treeHeight f) 0 ls
    let root := (levels.getLastD []).headD none
    (packV b (List.replicate (elemCount b) (deliverPartial r f op root)), fl ||| leafFlags r f ls)

/-- R129: element j receives P(j), or P(j − 1) in an exclusive form. -/
def scan (i : Instr) (op : Nat) (exclusive : Bool) (f : Fields) (s : State) : Host.Outcome State Fault Refusal :=
  vecOp i f s [f.a.toNat] (if op = 0 then floatMode f else noMode) fun r vs old =>
    let b := fmtWidth f.fmt.toNat
    let n := elemCount b
    let ls := leaves r f (src vs 0)
    let (levels, fl) := treeLevels (combine r f op) (treeHeight f) 0 ls
    let (ps, fls) := prefixes (combine r f op) levels n n 0 [] 0
    let (v, _) := mapElems b (laneMask r f) f.zm old fun j =>
      (deliverPartial r f op (if exclusive then (if j = 0 then none else ps.getD (j - 1) none) else ps.getD j none), 0)
    (v, fl ||| fls ||| leafFlags r f ls)

def execVRedAdd (f : Fields) (s : State) : Host.Outcome State Fault Refusal := reduce (.vRedAdd f) 0 f s
def execVRedMin (f : Fields) (s : State) : Host.Outcome State Fault Refusal := reduce (.vRedMin f) 1 f s
def execVRedMax (f : Fields) (s : State) : Host.Outcome State Fault Refusal := reduce (.vRedMax f) 2 f s
def execVRedAnd (f : Fields) (s : State) : Host.Outcome State Fault Refusal := reduce (.vRedAnd f) 3 f s
def execVRedOr (f : Fields) (s : State) : Host.Outcome State Fault Refusal := reduce (.vRedOr f) 4 f s
def execVRedXor (f : Fields) (s : State) : Host.Outcome State Fault Refusal := reduce (.vRedXor f) 5 f s
def execVScanAdd (f : Fields) (s : State) : Host.Outcome State Fault Refusal := scan (.vScanAdd f) 0 false f s
def execVScanMin (f : Fields) (s : State) : Host.Outcome State Fault Refusal := scan (.vScanMin f) 1 false f s
def execVScanMax (f : Fields) (s : State) : Host.Outcome State Fault Refusal := scan (.vScanMax f) 2 false f s
def execVScanXadd (f : Fields) (s : State) : Host.Outcome State Fault Refusal := scan (.vScanXadd f) 0 true f s
def execVScanXmin (f : Fields) (s : State) : Host.Outcome State Fault Refusal := scan (.vScanXmin f) 1 true f s
def execVScanXmax (f : Fields) (s : State) : Host.Outcome State Fault Refusal := scan (.vScanXmax f) 2 true f s

/-! Moving lanes and elements (R130). -/

/-- R130: idx := (x[B] + imm) mod n. -/
def elemIndex (r : Strand) (f : Fields) : Nat := (readX r f.b.toNat + immOf f).toNat % elemCount (fmtWidth f.fmt.toNat)

def execVPerm (f : Fields) (s : State) : Host.Outcome State Fault Refusal :=
  vecOp (.vPerm f) f s [f.a.toNat, f.b.toNat] noMode fun r vs old =>
    let b := fmtWidth f.fmt.toNat
    mapElems b (laneMask r f) f.zm old fun j => (elemAt b (src vs 0) (elemAt b (src vs 1) j % elemCount b), 0)
def execVBcast (f : Fields) (s : State) : Host.Outcome State Fault Refusal :=
  vecOp (.vBcast f) f s [f.a.toNat] noMode fun r vs old =>
    let b := fmtWidth f.fmt.toNat
    mapElems b (laneMask r f) f.zm old fun _ => (elemAt b (src vs 0) (elemIndex r f), 0)
def execVSplat (f : Fields) (s : State) : Host.Outcome State Fault Refusal :=
  vecOp (.vSplat f) f s [] noMode fun r _ old =>
    mapElems (fmtWidth f.fmt.toNat) (laneMask r f) f.zm old fun _ => ((readX r f.a.toNat).toNat, 0)
def execVExt (f : Fields) (s : State) : Host.Outcome State Fault Refusal :=
  vecIssue (.vExt f) s false none [f.a.toNat] none fun r vs r1 =>
    let c := f.fmt.toNat
    let e := elemAt (fmtWidth c) (src vs 0) (elemIndex r f)
    s.retire (writeX r1 f.d.toNat (extend64 (!isFloatFmt c && fmtSigned c) (fmtWidth c) e)) f
def execVIns (f : Fields) (s : State) : Host.Outcome State Fault Refusal :=
  vecOp (.vIns f) f s [] noMode fun r _ old =>
    let b := fmtWidth f.fmt.toNat
    (packV b ((List.range (elemCount b)).map fun j =>
      if j = elemIndex r f then (readX r f.a.toNat).toNat else elemAt b old j), 0)
def execVIota (f : Fields) (s : State) : Host.Outcome State Fault Refusal :=
  vecOp (.vIota f) f s [] noMode fun r _ old =>
    mapElems (fmtWidth f.fmt.toNat) (laneMask r f) f.zm old fun j => ((readX r f.a.toNat + BitVec.ofNat 64 j * immOf f).toNat, 0)
def execVMov (f : Fields) (s : State) : Host.Outcome State Fault Refusal :=
  vecOp (.vMov f) f s [f.a.toNat] noMode fun r vs old =>
    mapElems 32 (laneMask r f) f.zm old fun l => (elemAt 32 (src vs 0) l, 0)

/-- The lanes of a mask in ascending order. -/
def activeLanes (m : Word) : List Nat := (List.range 64).filter fun l => m.getLsbD l

def execVCpr (f : Fields) (s : State) : Host.Outcome State Fault Refusal :=
  vecOp (.vCpr f) f s [f.a.toNat] noMode fun r vs _ =>
    (packV 32 ((activeLanes (laneMask r f)).map (elemAt 32 (src vs 0))), 0)
def execVExpd (f : Fields) (s : State) : Host.Outcome State Fault Refusal :=
  vecOp (.vExpd f) f s [f.a.toNat] noMode fun r vs old =>
    mapElems 32 (laneMask r f) f.zm old fun l =>
      (elemAt 32 (src vs 0) ((activeLanes (laneMask r f)).filter fun k => decide (k < l)).length, 0)

/-! Exponent histograms (R51, R131). -/

/-- R51: the bin of a value in format `c` under the bank's exponent base. -/
def histBin (c : Nat) (fmode : Bool) (base : BitVec 16) (bits : Nat) : Nat :=
  let clamp (e : Int) : Nat :=
    let v := e - base.toInt + 1
    if v < 1 then 1 else if 61 < v then 61 else v.toNat
  if isFloatFmt c then
    match readFmt c fmode bits with
    | .fin _ m e _ =>
      if m = 0 then 0
      else if m < 2 ^ (ffmt c fmode).mant then 62
      else clamp (leadExp m e)
    | _ => 63
  else
    let v := readFmtInt c bits
    if v = 0 then 0 else clamp (Nat.log2 v.natAbs)

/-- R51: one counter is incremented and stays at 2^32 − 1. -/
def histBump (h : Map (BitVec 32)) (bank bin : Nat) : Map (BitVec 32) :=
  let c := mapGet 0 h (bank * 64 + bin)
  if c = BitVec.allOnes 32 then h else mapPut 0 h (bank * 64 + bin) (c + 1)

/-- R358: an uncorrectable counter that the recording of a value would change. -/
def State.histBad (s : State) (tile bank c : Nat) (fmode : Bool) (bits : Nat) : Option Nat :=
  badIn s.badWords (histPa tile bank (histBin c fmode (mapGet 0 (s.tile tile).hbase bank) bits)) 4

/-- Recording a value of a format in a tile's bank (R51, R52). -/
def recordValue (t : Tile) (bank c : Nat) (fmode : Bool) (bits : Nat) : Tile :=
  { t with hist := histBump t.hist bank (histBin c fmode (mapGet 0 t.hbase bank) bits) }

def execVHist (f : Fields) (s : State) : Host.Outcome State Fault Refusal :=
  vecIssue (.vHist f) s false none [f.a.toNat] none fun r vs r1 =>
    let c := f.fmt.toNat
    let es := elems (fmtWidth c) (src vs 0)
    let t := es.foldl (fun t e => recordValue t f.d.toNat c (statusFmode r.status) e) (s.tile s.myTile)
    s.unlessBad (es.findSome? fun e => s.histBad s.myTile f.d.toNat c (statusFmode r.status) e) ((s.setTile s.myTile t).retire r1 f)
def execVHistGet (f : Fields) (s : State) : Host.Outcome State Fault Refusal :=
  vecIssue (.vHistGet f) s false none [] (some f.d.toNat) fun r _ _ =>
    let t := s.tile s.myTile
    let bank := f.a.toNat
    let v := packV 32 ((List.range 64).map fun c => (mapGet 0 t.hist (bank * 64 + c)).toNat)
    let h := (List.range 64).foldl (fun h c => mapPut 0 h (bank * 64 + c) 0) t.hist
    s.unlessBad (badIn s.badWords (histPa s.myTile bank 0) 256) ((s.setTile s.myTile { t with hist := h }).retire (writeVP r f.d.toNat v) f)

/-! Sampling (R132, R133). -/

/-- A value at or above zero that is not NaN; −0 counts as zero. -/
def FVal.nonNeg : FVal → Bool
  | .nan => false
  | .inf neg => !neg
  | .fin neg m _ _ => m == 0 || !neg

/-- R132: the decision for one lane from p, q and the draw r. -/
def acceptLane (p q : FVal) (r : Nat) : Bool × Flags :=
  if !p.nonNeg then (false, flagNV)
  else if p.isZero then (false, 0)
  else
    let u : FVal := .fin false r (-24) false
    match q with
    | .nan => (!lessVal p u, 0)
    | .inf _ => (false, flagNV)
    | .fin _ _ _ _ => if q.nonNeg then (cmpVal (mulVal u q) p != .gt, 0) else (false, flagNV)

def execVAccept (f : Fields) (s : State) : Host.Outcome State Fault Refusal :=
  vecIssue (.vAccept f) s false none [f.a.toNat, f.b.toNat] none fun r vs r1 =>
    let F := strandFmt r 10
    let rs := (List.range 64).map fun l =>
      acceptLane (readFloat F (elemAt 32 (src vs 0) l)) (readFloat F (elemAt 32 (src vs 1) l)) (draw r.seed r.srcnt l)
    let r2 := raise (writeK r1 f.d.toNat (BitVec.ofNat 64 (packMask (rs.map fun p => p.1)))) (orFlags (rs.map fun p => p.2))
    s.retire { r2 with srcnt := r2.srcnt + 1 } f

/-- R133: finite and not below −0. -/
def FVal.mass : FVal → Bool
  | .fin neg m _ _ => m == 0 || !neg
  | _ => false

/-- R133: the largest i with m_i > 0 and e_i ≤ t, where t = r × 2^−24 × (e_63 + m_63). -/
def drawIndex (es ms : List FVal) (r : Nat) : Option Nat :=
  let t := mulVal (.fin false r (-24) false) (addVal 0 (es.getLastD .nan) (ms.getLastD .nan))
  ((List.range 64).filter fun i =>
    !(ms.getD i .nan).isZero && cmpVal (es.getD i .nan) t != .gt).getLast?

def execVDraw (f : Fields) (s : State) : Host.Outcome State Fault Refusal :=
  vecIssue (.vDraw f) s false none [f.a.toNat, f.b.toNat] none fun r vs r1 =>
    let F := strandFmt r 10
    let es := (elems 32 (src vs 0)).map (readFloat F)
    let ms := (elems 32 (src vs 1)).map (readFloat F)
    let bad := es.any (fun x => !x.mass) || ms.any (fun x => !x.mass)
    let v : Word := if bad then BitVec.allOnes 64
      else match drawIndex es ms (draw r.seed r.srcnt 0) with
        | some i => BitVec.ofNat 64 i
        | none => BitVec.allOnes 64
    let r2 := raise (writeX r1 f.d.toNat v) (if bad then flagNV else 0)
    s.retire { r2 with srcnt := r2.srcnt + 1 } f

/-! The long accumulator (R47, R48, R134). -/

/-- Word j of LA and its carry count C_j, for j from 1 to 5. -/
def laWord (la : LongWord) (j : Nat) : Nat := natBits la.toNat (64 * j + 63) (64 * j)
def laCount (c : BitVec 80) (j : Nat) : Int := readInt true 16 (c.toNat / 2 ^ (16 * (j - 1)))
def laPutWord (la : LongWord) (j v : Nat) : LongWord :=
  BitVec.ofNat 384 (la.toNat - laWord la j * 2 ^ (64 * j) + v % 2 ^ 64 * 2 ^ (64 * j))
def laPutCount (c : BitVec 80) (j : Nat) (v : Int) : BitVec 80 :=
  BitVec.ofNat 80 (c.toNat - natBits c.toNat (16 * (j - 1) + 15) (16 * (j - 1)) * 2 ^ (16 * (j - 1)) + wrapInt 16 v * 2 ^ (16 * (j - 1)))

/-- The carry counts' weight in units of 2^−200. -/
def laCounts (c : BitVec 80) : Int :=
  (List.range 5).foldl (fun acc j => acc + laCount c (j + 1) * ((2 ^ (64 * (j + 1)) : Nat) : Int)) 0

/-- R47: the value of LA in units of 2^−200, read in its range. -/
def laValue (la : LongWord) (c : BitVec 80) : Int := (la + BitVec.ofInt 384 (laCounts c)).toInt

/-- R48: a carry enters the count of word j; a count that would leave its range is resolved into its word, and the carry out
goes on. Above word 5 it is dropped. -/
def laCarryIn : Nat → Nat → Int → LongWord × BitVec 80 → LongWord × BitVec 80
  | 0, _, _, p => p
  | fuel + 1, j, v, (la, c) =>
    if v = 0 ∨ 5 < j then (la, c)
    else
      let n := laCount c j + v
      if -32768 ≤ n ∧ n ≤ 32767 then (la, laPutCount c j n)
      else
        let t := (laWord la j : Int) + n
        laCarryIn fuel (j + 1) (t / ((2 ^ 64 : Nat) : Int)) (laPutWord la j (wrapInt 64 t), laPutCount c j 0)

/-- R48: adding v × 2^−200 changes the words from the lowest to the highest set bit of |v| and the count above (log 9). -/
def laAddInt (v : Int) (la : LongWord) (c : BitVec 80) : LongWord × BitVec 80 :=
  if v = 0 then (la, c)
  else
    let lo := trailingZeros 1024 v.natAbs / 64
    let hi := Nat.min 5 (Nat.log2 v.natAbs / 64)
    let cur := natBits la.toNat (64 * hi + 63) (64 * lo)
    let t := (cur : Int) + v / ((2 ^ (64 * lo) : Nat) : Int)
    let n := 64 * (hi + 1 - lo)
    let la' := BitVec.ofNat 384 (la.toNat - cur * 2 ^ (64 * lo) + wrapInt n t * 2 ^ (64 * lo))
    laCarryIn 6 (hi + 1) (t / ((2 ^ n : Nat) : Int)) (la', c)

/-- Whether an exact sum leaves the range of R47. -/
def laOverflows (v : Int) (la : LongWord) (c : BitVec 80) : Bool :=
  let t := laValue la c + v
  decide (t < -((2 ^ 383 : Nat) : Int)) || decide (((2 ^ 383 : Nat) : Int) ≤ t)

/-- LA and its counts as one register value, with a bit that says the addition overflowed. -/
def laPack (la : LongWord) (c : BitVec 80) (ovf : Bool) : VReg :=
  BitVec.ofNat 2048 (la.toNat + c.toNat * 2 ^ 384 + (if ovf then 2 ^ 464 else 0))

/-- A finite value in units of 2^−200: every admitted one is a whole number of them (R48). -/
def laUnits (x : FVal) : Int :=
  match x with
  | .fin neg m e _ => scaledInt neg (m * 2 ^ (e + 200).toNat)
  | _ => 0

def execLaAdd (f : Fields) (s : State) : Host.Outcome State Fault Refusal :=
  longOp (.laAdd f) f s .la fun r =>
    let c := f.fmt.toNat
    let x : FVal := if isFloatFmt c then readFX r c f.a.toNat else intVal (readFmtInt c (readX r f.a.toNat).toNat)
    match x with
    | .fin _ _ _ _ =>
      let v := laUnits x
      let (la, k) := laAddInt v r.la r.laCarry
      (r, laPack la k (laOverflows v r.la r.laCarry), 0)
    | _ => (r, laPack r.la r.laCarry false, flagNV)
def execLaNorm (f : Fields) (s : State) : Host.Outcome State Fault Refusal :=
  longOp (.laNorm f) f s .la fun r => (r, laPack (BitVec.ofInt 384 (laValue r.la r.laCarry)) 0 false, 0)
def execLaRd (f : Fields) (s : State) : Host.Outcome State Fault Refusal :=
  longOp (.laRd f) f s (destX f) fun r =>
    let v := laValue r.la r.laCarry
    let (bits, fl) := roundX r f f.fmt.toNat (.fin (decide (v < 0)) v.natAbs (-200) false) 0
    (countSr r (modeOf f r), BitVec.ofNat 2048 bits, fl)
def execLaClr (f : Fields) (s : State) : Host.Outcome State Fault Refusal :=
  shortOp (.laClr f) f s fun r => { r with la := 0, laCarry := 0 }
def execLaGetw (f : Fields) (s : State) : Host.Outcome State Fault Refusal :=
  shortOp (.laGetw f) f s fun r =>
    let j := f.imm10.toNat
    writeX r f.d.toNat (if j < 6 then BitVec.ofNat 64 (laWord r.la j) else BitVec.ofInt 64 (laCount r.laCarry (j - 5)))
def execLaSetw (f : Fields) (s : State) : Host.Outcome State Fault Refusal :=
  shortOp (.laSetw f) f s fun r =>
    let j := f.imm10.toNat
    let v := readX r f.a.toNat
    if j < 6 then { r with la := laPutWord r.la j v.toNat } else { r with laCarry := laPutCount r.laCarry (j - 5) (readInt true 16 v.toNat) }

/-- R97: a defined no-operation; none of its fields matters. -/
def execVHint (n : BitVec 4) (f : Fields) (s : State) : Host.Outcome State Fault Refusal := shortOp (.vHint n f) f s id

end Sys2Proof.Machine
end

