-- ==== Sys2Proof/Machine/Matrix.lean ====
section
/-! DEFINITION. Operand slots, the matrix array and trellis windows (R135 to R147, file 07). -/

namespace Sys2Proof.Machine

/-! Operand slots. -/

def slotAt (t : Tile) (n : Nat) : OSlot := mapGet {} t.slots n
def setSlot (t : Tile) (n : Nat) (o : OSlot) : Tile := { t with slots := mapPut {} t.slots n o }

/-- The slots that an array operation reads or writes, and the bank it writes (R137, R145). -/
def ArrayKind.slots : ArrayKind → List Nat
  | .multiply _ _ _ oa ob _ _ _ _ => [oa, ob]
  | .compress _ d a => [d, a]
  | .zero _ => []
  | .write _ _ _ => []
def ArrayKind.bank : ArrayKind → Option Nat
  | .multiply _ _ _ _ _ cb _ _ _ => some cb
  | .compress _ _ _ => none
  | .zero b => some b
  | .write b _ _ => some b

/-- Copies into a slot that have not completed, of every strand of the tile. -/
def State.slotCopies (s : State) (tile n : Nat) : Nat :=
  ((strandsOf tile).map fun i => ((s.strand i).copies.filter fun c => c.dst == .slot n).length).foldl (· + ·) 0

/-- Array operations that name a slot and have not completed. -/
def slotOps (t : Tile) (n : Nat) : Nat := (t.array.filter fun o => o.kind.slots.contains n).length

/-- R135: PEND. -/
def State.slotPend (s : State) (tile n : Nat) : Nat := s.slotCopies tile n + slotOps (s.tile tile) n

/-- R135: STATE of a slot as strand `slot` sees it: 0 free, 1 own, 2 owned by another, 3 released and pending. -/
def State.slotState (s : State) (tile slot n : Nat) : Nat :=
  let o := slotAt (s.tile tile) n
  match o.owner with
  | some w => if w = slot then 1 else 2
  | none => if o.release && decide (0 < s.slotPend tile n) then 3 else 0

/-- R136: a release: free at once, or when the slot has no pending operation. -/
def OSlot.released (o : OSlot) : OSlot := { o with owner := none, release := true }

/-- R136: a strand's slots released at its halt. -/
def Tile.releaseSlots (t : Tile) (slot : Nat) : Tile :=
  (List.range 8).foldl (fun t n => if (slotAt t n).owner = some slot then setSlot t n (slotAt t n).released else t) t

/-- R136: the lowest of the slots named that the issuer does not own. -/
def State.unclaimed (s : State) (names : List Nat) : Option Nat :=
  (List.range 8).find? fun n => names.contains n && (slotAt (s.tile s.myTile) n).owner != some s.mySlot

/-- R136: the unclaimed-slot fault, or what follows. -/
def State.needSlots (s : State) (names : List Nat) (k : State) : State :=
  match s.unclaimed names with
  | some n => s.takeTrap 15 0 (BitVec.ofNat 64 n)
  | none => k

def execOClaim (f : Fields) (s : State) : Host.Outcome State Fault Refusal :=
  issue (.oClaim f) s fun r =>
    let n := f.a.toNat
    if 2 ≤ s.slotState s.myTile s.mySlot n then s.retire (writeX r f.d.toNat 1) f
    else
      let t := s.tile s.myTile
      (s.setTile s.myTile (setSlot t n { slotAt t n with owner := some s.mySlot, release := false })).retire (writeX r f.d.toNat 0) f
def execORel (f : Fields) (s : State) : Host.Outcome State Fault Refusal :=
  issue (.oRel f) s fun r =>
    let n := f.a.toNat
    let t := s.tile s.myTile
    s.needSlots [n] ((s.setTile s.myTile (setSlot t n (slotAt t n).released)).retire r f)

/-- R135: the state word of a slot. -/
def slotWord (state pend owner : Nat) : Word :=
  BitVec.ofNat 64 (state + (if state = 2 then owner * 16 else 0) + Nat.min pend 255 * 256)

def execOTst (f : Fields) (s : State) : Host.Outcome State Fault Refusal :=
  shortOp (.oTst f) f s fun r =>
    let n := f.a.toNat
    writeX r f.d.toNat
      (slotWord (s.slotState s.myTile s.mySlot n) (s.slotPend s.myTile n) ((slotAt (s.tile s.myTile) n).owner.getD 0))

/-! The array queue. -/

/-- R138: the array cycles of an operation. -/
def ArrayKind.cycles : ArrayKind → Nat
  | .multiply form _ _ _ _ _ _ _ _ => if form = 1 then 64 else 128
  | .compress _ _ _ => 32
  | .zero _ => 8
  | .write _ _ _ => 2

/-- R138: an operation joins the queue with the next TLM number. -/
def State.pushArray (s : State) (r : Strand) (f : Fields) (o : ArrayOp) : State :=
  let t := s.tile s.myTile
  let o := { o with slot := s.mySlot, num := r.tlm.last + 1 }
  let due := if t.array.isEmpty then s.cycle + o.kind.cycles else t.arrayDue
  (s.setTile s.myTile { t with array := t.array ++ [o], arrayDue := due }).retire { r with tlm := r.tlm.next { num := 0, state := 1 } } f

/-- R137, R138: whether an array operation is held: 16 are queued, or a copy into one of its slots has not completed. -/
def State.arrayHeld (s : State) (k : ArrayKind) : Bool :=
  decide (16 ≤ (s.tile s.myTile).array.length) || k.slots.any fun n => decide (0 < s.slotCopies s.myTile n)

/-- An array operation: its holds, its slots, a further check, and its place in the queue with what the strand had at issue. -/
def arrayOp (i : Instr) (f : Fields) (s : State) (kind : ArrayKind) (mode : Nat) (check : Option Word) :
    Host.Outcome State Fault Refusal :=
  issue i s fun r =>
    if s.arrayHeld kind then s
    else s.needSlots kind.slots
      (match check with
        | some bad => s.takeTrap 14 0 bad
        | none => s.pushArray (countSr r mode) f
            { slot := 0, num := 0, kind := kind, mode := mode, sat := f.s, fmode := statusFmode r.status, seed := r.seed, srcnt := r.srcnt })

/-- The matrix descriptor of R88. -/
def matrixKind (form : Nat) (f : Fields) : ArrayKind :=
  let v := f.ext.imm64Nat
  .multiply form f.fmt.toNat (natBits v 12 8) (natBits v 2 0) (natBits v 5 3) (natBits v 6 6) (natBits v 7 7 == 1)
    (natBits v 14 13) (natBits v 15 15 + 1)

/-- The bytes of a slot from an offset. -/
def slotBytes (t : Tile) (n off len : Nat) : List Byte := mapRange 0 (slotAt t n).mem off len

/-- R143: the offset of the lowest scale byte of 255 among the 512 of a trellis B. -/
def badScale (t : Tile) (ob ts tv : Nat) : Option Nat :=
  let bb := blockBytes ts tv
  let m := (slotAt t ob).mem
  ((List.range 512).map fun j => j / 8 * bb + streamBytes ts tv + j % 8).find? fun o => readByte m o == 255

/-- BADADDR of a trellis-scale fault (R143, R147). -/
def scaleAddr (slot off : Nat) : Word := BitVec.ofNat 64 (slot * 2 ^ 14 + off)

def execMMma (f : Fields) (s : State) : Host.Outcome State Fault Refusal :=
  arrayOp (.mMma f) f s (matrixKind 0 f) (floatMode f s.me) none
def execMMms (f : Fields) (s : State) : Host.Outcome State Fault Refusal :=
  arrayOp (.mMms f) f s (matrixKind 1 f) (floatMode f s.me) none
/-- Whether an `m.cmp` into a slot is queued. -/
def State.compressing (s : State) (n : Nat) : Bool :=
  (s.tile s.myTile).array.any fun o => match o.kind with
    | .compress _ d _ => d == n
    | _ => false

/-- R137, R143: held while an earlier `m.cmp` into B's slot has not completed, since the check of B's scales reads the slot at issue (log 19). -/
def execMMmt (f : Fields) (s : State) : Host.Outcome State Fault Refusal :=
  let v := f.ext.imm64Nat
  let ob := natBits v 5 3
  if s.compressing ob then .next s
  else arrayOp (.mMmt f) f s (matrixKind 2 f) (modeOf f s.me)
    ((badScale (s.tile s.myTile) ob (natBits v 14 13) (natBits v 15 15 + 1)).map (scaleAddr ob))
def execMCmp (f : Fields) (s : State) : Host.Outcome State Fault Refusal :=
  arrayOp (.mCmp f) f s (.compress f.fmt.toNat f.d.toNat f.a.toNat) 0 none
def execMZero (f : Fields) (s : State) : Host.Outcome State Fault Refusal :=
  arrayOp (.mZero f) f s (.zero f.d.toNat) 0 none

/-- R145: the half-row that x[B] + IMM10 names. -/
def halfRow (r : Strand) (f : Fields) : Nat := (readX r f.b.toNat + immOf f).toNat % 256

/-- A bank element's key: bank, row, column. -/
def bankKey (bank row col : Nat) : Nat := bank * 16384 + row * 128 + col

/-- The first element of a half-row. -/
def halfKey (bank idx : Nat) : Nat := bankKey bank (idx / 2) (64 * (idx % 2))

def execMRd (f : Fields) (s : State) : Host.Outcome State Fault Refusal :=
  let t := s.tile s.myTile
  vecIssue (.mRd f) s (t.array.any fun o => o.kind.bank == some f.a.toNat) none [] (some f.d.toNat) fun r _ _ =>
    s.unlessBad (badIn s.badWords (bankPa s.myTile 0 (halfKey f.a.toNat (halfRow r f))) 256) <| s.retire (writeVP r f.d.toNat
      (packV 32 ((mapRange 0 t.banks (halfKey f.a.toNat (halfRow r f)) 64).map fun e => e.toNat))) f
def execMWr (f : Fields) (s : State) : Host.Outcome State Fault Refusal :=
  vecIssue (.mWr f) s (s.arrayHeld (.zero 0)) none [f.a.toNat] none fun r vs r1 =>
    s.unlessBad (if f.a < 32 then badIn s.badWords (regPa s.cur (256 * f.a.toNat)) 256 else none) <| s.pushArray r1 f { slot := 0, num := 0, kind := .write f.d.toNat (halfRow r f) (src vs 0) }

/-! What the array computes (R49, R141, R143). -/

/-- R49: the exact sum of a group; a zero sum is +0. -/
def groupSum (products : List FVal) : FVal :=
  let t := products.foldl (addVal 0) (.fin false 0 0 false)
  if t.isZero then .fin false 0 0 false else t

/-- A group's sum times 2^k. -/
def FVal.scale (x : FVal) (k : Int) : FVal :=
  match x with
  | .fin neg m e t => .fin neg m (e + k) t
  | x => x

/-- An element of a slot: FMT code and byte offset, as a floating value or an integer. -/
def slotFloat (bytes : Array Byte) (c : Nat) (fmode : Bool) (off : Nat) : FVal :=
  readFmt c fmode (if fmtWidth c = 16 then (bytes.getD off 0).toNat + 256 * (bytes.getD (off + 1) 0).toNat else (bytes.getD off 0).toNat)
def slotInt (bytes : Array Byte) (c off : Nat) : Int := readFmtInt c (bytes.getD off 0).toNat

/-- R141: the nibble of quad q and column c. -/
def nibbleAt (bytes : Array Byte) (q c : Nat) : Nat :=
  let n := q * 128 + c
  (bytes.getD (8192 + n / 2) 0).toNat / 16 ^ (n % 2) % 16

/-- R141, R143: the (A offset, B offset) pairs in elements that a group multiplies; A in row `row`. -/
def groupPairs (form K : Nat) (b : Array Byte) (row col g : Nat) : List (Nat × Nat) :=
  if form = 1 then
    (List.range 8).flatMap fun j =>
      let q := 8 * g + j
      let n := nibbleAt b q col
      [(row * K + 4 * q + n % 4, 2 * q * 128 + col), (row * K + 4 * q + n / 4, (2 * q + 1) * 128 + col)]
  else (List.range 32).map fun j => (row * K + 32 * g + j, (32 * g + j) * 128 + col)

/-- R141: the B values of a trellis slot by column × 128 + k, unscaled, and the scale of each group of 32. -/
def trellisValues (bytes : List Byte) (ts tv : Nat) : Array Int × Array Nat :=
  let bb := blockBytes ts tv
  let blocks := (List.range 64).map fun t => (bytes.drop (t * bb)).take bb
  (((blocks.flatMap fun bl =>
      let stream := bytesToNat (bl.take (streamBytes ts tv))
      (List.range 256).map fun i => weightValue stream ts tv i)).toArray,
    ((blocks.flatMap fun bl => (bl.drop (streamBytes ts tv)).map fun e => e.toNat)).toArray)

/-- R143: one element of a floating form: its groups added to the accumulator in order. -/
def foldGroups (o : ArrayOp) (groups : List FVal) (L : Nat) (acc : Nat) : Nat × Flags :=
  let F := ffmt 10 false
  groups.zipIdx.foldl (fun (acc, fl) (g, k) =>
    let (v, f1) := deliver F o.mode o.sat (if o.mode = 5 then draw o.seed o.srcnt (L + 16384 * k) else 0)
      (addVal o.mode (readFloat F acc) g)
    (v, fl ||| f1)) (acc, 0)

/-- R143: the new contents of a bank, element by element, and the flags. -/
def multiplyBank (t : Tile) (o : ArrayOp) (form fa fb oa ob cb : Nat) (clr : Bool) (ts tv : Nat) : List (BitVec 32) × Flags :=
  let K := if fmtWidth fa = 16 then 64 else 128
  let b := fmtWidth fa / 8
  let ba := (slotBytes t oa 0 16384).toArray
  let bb := (slotBytes t ob 0 16384).toArray
  let old := (mapRange 0 t.banks (bankKey cb 0 0) 16384).toArray
  let (tvals, tscales) := if form = 2 then trellisValues (slotBytes t ob 0 (64 * blockBytes ts tv)) ts tv else (#[], #[])
  let rs := (List.range 16384).map fun rc =>
    let row := rc / 128
    let col := rc % 128
    let acc := if clr then 0 else (old.getD rc 0).toNat
    let gs := List.range (K / 32)
    if isFloatFmt fa then
      foldGroups o (gs.map fun g =>
        if form = 2 then
          let e := tscales.getD (col * 4 + g) 0
          (groupSum ((List.range 32).map fun j =>
            mulVal (slotFloat ba fa o.fmode (row * K + 32 * g + j))
              (intVal (if e = 0 then 0 else tvals.getD (col * 128 + 32 * g + j) 0)))).scale ((e : Int) - 135)
        else groupSum ((groupPairs form K bb row col g).map fun p =>
          mulVal (slotFloat ba fa o.fmode (p.1 * b)) (slotFloat bb fb o.fmode (p.2 * b)))) rc acc
    else
      ((gs.foldl (fun acc g =>
        deliverInt 4 o.sat (readInt true 32 acc +
          ((groupPairs form K bb row col g).map fun p => slotInt ba fa p.1 * slotInt bb fb p.2).foldl (· + ·) 0)) acc), 0)
  (rs.map fun p => BitVec.ofNat 32 p.1, orFlags (rs.map fun p => p.2))

/-- R144: the rank of an element: NaN above infinity above every finite magnitude. -/
def rankOf (c : Nat) (fmode : Bool) (b : Byte) : Nat :=
  if isFloatFmt c then
    match readFmt c fmode b.toNat with
    | .nan => 512
    | .inf _ => 256
    | .fin _ _ _ _ => b.toNat % 128
  else (readFmtInt c b.toNat).natAbs

/-- R144: the indices of the two elements kept of a quad, ascending; the lower index wins a tie. -/
def keptPair (ranks : List Nat) : Nat × Nat :=
  let top (skip : Nat) : Nat :=
    (List.range 4).foldl (fun best i =>
      if i = skip then best
      else if best = 4 then i
      else if ranks.getD best 0 < ranks.getD i 0 then i else best) 4
  let a := top 4
  let b := top a
  if a < b then (a, b) else (b, a)

/-- R141, R144: the 2:4 layout of a dense slot. -/
def compressBytes (c : Nat) (fmode : Bool) (a : List Byte) : List Byte :=
  let ba := a.toArray
  let kept := ((List.range 4096).map fun n =>
    keptPair ((List.range 4).map fun i => rankOf c fmode (ba.getD ((4 * (n / 128) + i) * 128 + n % 128) 0))).toArray
  let pair (q col : Nat) : Nat × Nat := kept.getD (q * 128 + col) (0, 0)
  ((List.range 8192).map fun off =>
    let q := off / 256
    let col := off % 128
    let i := if off / 128 % 2 = 0 then (pair q col).1 else (pair q col).2
    ba.getD ((4 * q + i) * 128 + col) 0) ++
  ((List.range 2048).map fun j =>
    let nib (n : Nat) : Nat := let p := kept.getD n (0, 0); p.1 + 4 * p.2
    BitVec.ofNat 8 (nib (2 * j) + 16 * nib (2 * j + 1)))

/-- R141: the bytes of slot B that a multiplication reads: dense, 2:4 with its metadata, or the 64 blocks of a trellis. -/
def operandBytes (form ts tv : Nat) : Nat := if form = 1 then 10240 else if form = 2 then 64 * blockBytes ts tv else 16384

/-- R358: uncorrectable data that an array operation reads. -/
def arrayBad (bad : Map Nat) (tile : Nat) : ArrayKind → Option Nat
  | .multiply form _ _ oa ob cb clr ts tv =>
    ((badIn bad (slotPa tile oa 0) 16384).orElse fun _ => badIn bad (slotPa tile ob 0) (operandBytes form ts tv)).orElse fun _ =>
      if clr then none else badIn bad (bankPa tile cb 0) 65536
  | .compress _ _ a => badIn bad (slotPa tile a 0) 16384
  | .zero _ => none
  | .write _ _ _ => none

/-- R358: the uncorrectable words without those that an operation writes whole. -/
def arrayMends (bad : Map Nat) (tile : Nat) : ArrayKind → Map Nat
  | .multiply _ _ _ _ _ cb _ _ _ => clearBad bad (bankPa tile cb 0) 65536
  | .compress _ d _ => clearBad bad (slotPa tile d 0) 16384
  | .zero b => clearBad bad (bankPa tile b 0) 65536
  | .write b idx _ => clearBad bad (bankPa tile 0 (halfKey b idx)) 256

/-- What an operation leaves in the tile, and its flags. -/
def runArray (t : Tile) (o : ArrayOp) : Tile × Flags :=
  match o.kind with
  | .multiply form fa fb oa ob cb clr ts tv =>
    let (vs, fl) := multiplyBank t o form fa fb oa ob cb clr ts tv
    ({ t with banks := mapSetRange 0 t.banks (bankKey cb 0 0) vs }, fl)
  | .compress c d a =>
    (setSlot t d { slotAt t d with mem := packFrom 0 0 (compressBytes c o.fmode (slotBytes t a 0 16384)) }, 0)
  | .zero b => ({ t with banks := mapSetRange 0 t.banks (bankKey b 0 0) (List.replicate 16384 0) }, 0)
  | .write b idx data =>
    ({ t with banks := mapSetRange 0 t.banks (halfKey b idx) ((elems 32 data).map (BitVec.ofNat 32)) }, 0)

/-- R39, R138: a TLM number completes; its flags go to STATUS unless its strand has halted since. -/
def Strand.finishTlm (r : Strand) (num : Nat) (live : Bool) (fl : Flags) : Strand :=
  let r := { r with tlm := r.tlm.finish num fl }
  if live then raise r fl else r

/-- R138: the operation at the head of a tile's queue completes, not before its array cycles have passed. With uncorrectable
data its elements are discarded and its strand is frozen (R358). Acts on `tile`. -/
def execArrayOperationComplete (s : State) : Host.Outcome State Fault Refusal :=
  let tile := s.arg.tile
  let t := s.tile tile
  match t.array with
  | [] => .next s
  | o :: rest =>
    if s.cycle < t.arrayDue then .next s
    else
      let due := match rest with
        | [] => 0
        | p :: _ => s.cycle + p.kind.cycles
      let who := tile * 8 + o.slot
      match arrayBad s.badWords tile o.kind with
      | some kind =>
        let s := s.setTile tile { t with array := rest, arrayDue := due }
        let s := s.setStrand who ((s.strand who).finishTlm o.num false 0)
        .next (if o.live then s.freeze who kind 0 else s)
      | none =>
        let (t1, fl) := runArray t o
        let s := { s.setTile tile { t1 with array := rest, arrayDue := due } with badWords := arrayMends s.badWords tile o.kind }
        .next (s.setStrand who ((s.strand who).finishTlm o.num o.live fl))

/-! Trellis windows (R146). -/

def execWSet (f : Fields) (s : State) : Host.Outcome State Fault Refusal :=
  shortOp (.wSet f) f s fun r => writeW r f.d.toNat ((readX r f.a.toNat).truncate 16)

/-- R146: the window moved on by s stream bits. -/
def stepWindow (w n bits : Nat) : Nat := w / 2 ^ n + bits % 2 ^ n * 2 ^ (16 - n)

def execWStep (f : Fields) (s : State) : Host.Outcome State Fault Refusal :=
  shortOp (.wStep f) f s fun r =>
    writeW r f.d.toNat (BitVec.ofNat 16 (stepWindow (readW r f.d.toNat).toNat f.imm10.toNat (readX r f.a.toNat).toNat))
def execWVal (f : Fields) (s : State) : Host.Outcome State Fault Refusal :=
  shortOp (.wVal f) f s fun r =>
    let w := readW r f.a.toNat
    writeX r f.d.toNat (if f.imm10 = 2 then w.zeroExtend 64 else BitVec.ofInt 64 (windowValue w.toNat f.imm10.toNat))

/-! Decoding to vectors (R147). -/

/-- R147: the offsets of the scale bytes that active elements read, element by element. -/
def decodeScales (m : Word) (bv ts tv : Nat) : List Nat :=
  ((List.range 64).filter fun j => elemActive 32 m j).map fun j =>
    bv % 64 * blockBytes ts tv + streamBytes ts tv + (bv / 256 + j) % 256 / 32

/-- R147: the lowest scale byte of 255 that an active element reads. -/
def decodeBad (t : Tile) (f : Fields) (m : Word) (bv ts tv : Nat) : Option Nat :=
  if f.fmt = 15 then none
  else (((decodeScales m bv ts tv).dedup.filter fun o => (slotBytes t f.a.toNat o 1).headD 0 == 255).mergeSort fun a b => decide (a ≤ b)).head?

/-- R147: the value of an element. -/
def decodeElem (t : Tile) (f : Fields) (bv ts tv : Nat) : Nat → Nat :=
  let base := bv % 64 * blockBytes ts tv
  let stream := bytesToNat (slotBytes t f.a.toNat base (streamBytes ts tv))
  let scales := slotBytes t f.a.toNat (base + streamBytes ts tv) 8
  fun j =>
    let i := (bv / 256 + j) % 256
    let val := weightValue stream ts tv i
    if f.fmt = 15 then wrapInt 16 val
    else (deliver (ffmt 10 false) 0 false 0 (scaledWeight val (scales.getD (i / 32) 0).toNat)).1

/-- R137: a `v.tdec` is held behind earlier writes of its slot: copies, and `m.cmp` operations that are queued (log 19). -/
def State.decodeHeld (s : State) (n : Nat) : Bool :=
  decide (0 < s.slotCopies s.myTile n) || s.compressing n

/-- R358: uncorrectable data among the bytes that a `v.tdec` reads. -/
def State.decodeLost (s : State) (f : Fields) (m : Word) (bv ts tv : Nat) : Option Nat :=
  let base := slotPa s.myTile f.a.toNat (bv % 64 * blockBytes ts tv)
  if m = 0 then none
  else (badIn s.badWords base (streamBytes ts tv)).orElse fun _ => if f.fmt = 15 then none else badIn s.badWords (base + streamBytes ts tv) 8

def execVTdec (f : Fields) (s : State) : Host.Outcome State Fault Refusal :=
  let t := s.tile s.myTile
  let n := f.a.toNat
  let ts := f.imm10.toNat % 4
  let tv := f.imm10.toNat / 4 + 1
  let bv := natBits (readX s.me f.b.toNat).toNat 15 0
  let trap := ((s.unclaimed [n]).map fun k => (15, BitVec.ofNat 64 k)).orElse fun _ =>
    (decodeBad t f (laneMask s.me f) bv ts tv).map fun o => (14, scaleAddr n o)
  vecIssue (.vTdec f) s (s.decodeHeld n) trap [] (some f.d.toNat) fun r _ _ =>
    let e := decodeElem t f bv ts tv
    let (v, _) := mapElems (if f.fmt = 15 then 16 else 32) (laneMask r f) f.zm (readDst r f.d.toNat) fun j => (e j, 0)
    s.unlessBad (s.decodeLost f (laneMask r f) bv ts tv) (s.retire (writeVP r f.d.toNat v) f)

end Sys2Proof.Machine
end

