-- ==== Sys2Proof/Machine/Access.lean ====
section
/-! DEFINITION. Where an access goes (R152 to R155), handles and translation (R305 to R310), the L1 (R164), and the messages that
loads, stores and atomics send (R160, R163, R242). -/

namespace Sys2Proof.Machine

/-! Local-store addresses (R152). -/

/-- A trap: code, INFO, BADADDR. -/
abbrev TrapInfo := Nat × Nat × Word

/-- The first byte of the race ring, at the top of scratch. -/
def Tile.ringBase (t : Tile) : Nat := t.xb + t.scr - 4096

/-- Whether `z` bytes at an offset touch the ring. -/
def Tile.inRing (t : Tile) (o z : Nat) : Bool := t.race && decide (t.ringBase < o + z) && decide (o < t.xb + t.scr)

/-- R152: the checks within the target tile; every tile of a field has the issuing tile's XB and SCR. -/
def offsetTrap (t : Tile) (addr : Word) (o z : Nat) : Option TrapInfo :=
  if o < t.xb then some (7, 0, addr)
  else if t.xb + t.scr < o + z then some (6, 0, addr)
  else if t.inRing o z then some (7, 0, addr)
  else none

/-- R152: the tile and the offset of a local-store address, or its fault. -/
def State.localTarget (s : State) (tile : Nat) (a z : Nat) : Except TrapInfo (Nat × Nat) :=
  let t := s.tile tile
  let l := s.launchOf tile
  let o := a % 2 ^ 20
  let addr := BitVec.ofNat 64 a
  let place : Option Nat :=
    if natBits a 31 30 = 0 then (if natBits a 29 20 = 0 then some tile else none)
    else if natBits a 31 30 = 1 then
      (if natBits a 24 20 < l.w ∧ natBits a 29 25 < l.h then some (tileAt (l.ox + natBits a 24 20) (l.oy + natBits a 29 25)) else none)
    else none
  match place with
  | none => .error (6, 0, addr)
  | some p => match offsetTrap t addr o z with
    | some e => .error e
    | none => .ok (p, o)

/-- R152: an area that must lie in the issuing tile's program scratch: bytes below XB or in the ring, then other bytes outside. -/
def areaTrap (t : Tile) (a z : Nat) (bad : Word) : Option TrapInfo :=
  if a < t.xb ∨ t.inRing a z then some (7, 0, bad)
  else if t.xb + t.scr < a + z then some (6, 0, bad)
  else none

/-! Handles (R153, R304 to R308). -/

/-- The 64-byte descriptor of a context (R304; its place is log 12). -/
def State.descriptor (s : State) (vf ctx : Nat) : Nat := readNat s.mem (mapGet 0 (s.vf vf).contexts ctx) 64

/-- R304, R305, R308: the address of the table entry of an index: handle entries below 65,536, then object entries; none above HTN or OTN. -/
def State.tablePlace (s : State) (vf ctx index : Nat) : Option Nat :=
  let d := s.descriptor vf ctx
  if index < 65536 then
    if natBits d 466 451 < index then none else some (natBits d 191 128 + 32 * index)
  else
    if natBits d 482 467 < index - 65536 then none else some (natBits d 255 192 + 32 * (index - 65536))

/-- The table entry of an index as memory holds it. An index above HTN or OTN reads as an invalid entry (R305). -/
def State.tableEntry (s : State) (vf ctx index : Nat) : BitVec 256 :=
  match s.tablePlace vf ctx index with
  | some a => BitVec.ofNat 256 (readNat s.mem a 32)
  | none => 0

/-- R358, R361: uncorrectable data that a look-up in a table in memory meets: in the descriptor's words for it, then in the entry (log 40). -/
def State.tableLost (s : State) (vf ctx index : Nat) : Option (Nat × Nat) :=
  let d := mapGet 0 (s.vf vf).contexts ctx
  ((s.lostAt (d + 56) 8).orElse fun _ => s.lostAt (d + if index < 65536 then 16 else 24) 8).orElse fun _ =>
    (s.tablePlace vf ctx index).bind fun a => s.lostAt a 32

/-- R306: an entry through the cluster's handle cache. -/
def State.cachedEntry (s : State) (cluster tag index : Nat) : BitVec 256 :=
  match (s.cluster cluster).handles.find? fun e => !e.bad && e.tag == tag && e.index == index with
  | some e => e.entry
  | none => s.tableEntry (tag / 8) (tag % 8) index

/-- R358, R361: uncorrectable data that a look-up through the cluster's handle cache meets in memory. -/
def State.cachedLost (s : State) (cluster tag index : Nat) : Option (Nat × Nat) :=
  if (s.cluster cluster).handles.any fun e => !e.bad && e.tag == tag && e.index == index then none else s.tableLost (tag / 8) (tag % 8) index

/-- R306: the cache holds the entry afterwards (log 14); an uncorrectable one is dropped and fetched again (R358). -/
def State.fillHandle (s : State) (cluster tag index : Nat) : State :=
  let c := s.cluster cluster
  if c.handles.any fun e => !e.bad && e.tag == tag && e.index == index then s
  else s.setCluster cluster { c with handles := (c.handles.filter fun e => !(e.tag == tag && e.index == index)) ++
    [⟨tag, index, s.tableEntry (tag / 8) (tag % 8) index, false⟩] }

def entryValid (e : BitVec 256) : Bool := e.getLsbD 128
def entryBase (e : BitVec 256) : Nat := natBits e.toNat 48 0
def entryLen (e : BitVec 256) : Nat := natBits e.toNat 112 64
def entrySpace (e : BitVec 256) : Nat := natBits e.toNat 131 130
def entryRd (e : BitVec 256) : Bool := e.getLsbD 132
def entryWr (e : BitVec 256) : Bool := e.getLsbD 133
def entryCached (e : BitVec 256) : Bool := e.getLsbD 134
/-- HBANK where it is valid. -/
def entryBank (e : BitVec 256) : Option Nat := if e.getLsbD 137 then some (natBits e.toNat 136 135) else none
def entryTarget (e : BitVec 256) : Nat := natBits e.toNat 159 144
/-- The virtual address of an offset. -/
def entryVa (e : BitVec 256) (o : Nat) : Nat := (entryBase e + o) % 2 ^ 49

/-- R308: the object entry of a tile where OV = 1. -/
def objectIndex (l : Launch) (tile : Nat) (e : BitVec 256) : Nat := 65536 + natBits e.toNat 207 192 + l.fy tile * l.w + l.fx tile

/-- The entry that a handle index names at a tile, through OV and the object table. -/
def State.entryOf (s : State) (tile index : Nat) : BitVec 256 :=
  let l := s.launchOf tile
  let e := s.cachedEntry (clusterOf tile) l.tag index
  if entryValid e && e.getLsbD 208 then s.cachedEntry (clusterOf tile) l.tag (objectIndex l tile e) else e

/-- R358, R361: uncorrectable data that the look-up of a handle at a tile meets in memory. -/
def State.entryLost (s : State) (tile index : Nat) : Option (Nat × Nat) :=
  let l := s.launchOf tile
  let e := s.cachedEntry (clusterOf tile) l.tag index
  (s.cachedLost (clusterOf tile) l.tag index).orElse fun _ =>
    if entryValid e && e.getLsbD 208 then s.cachedLost (clusterOf tile) l.tag (objectIndex l tile e) else none

/-- R353, R358: a strand that would use uncorrectable data of a table in memory is frozen instead. -/
def State.unlessLost (s : State) (lost : Option (Nat × Nat)) (k : State) : State :=
  match lost with
  | some (kind, addr) => s.freeze s.cur kind addr
  | none => k

/-- The caches after a handle is used. -/
def State.useHandle (s : State) (tile index : Nat) : State :=
  let l := s.launchOf tile
  let e := s.cachedEntry (clusterOf tile) l.tag index
  let s := s.fillHandle (clusterOf tile) l.tag index
  if entryValid e && e.getLsbD 208 then s.fillHandle (clusterOf tile) l.tag (objectIndex l tile e) else s

/-- What an access needs (R153). -/
inductive Need where
  | load | store | atomic | copySource | copyDest | portIn | portOut
deriving DecidableEq, Repr

/-- The fabric target entry of an index, where it may be used (R340). -/
def fabricTarget (v : Vf) (index : Nat) : Option Word :=
  if 256 ≤ index then none
  else
    let e := mapGet 0 v.targets index
    if e.getLsbD 0 then some e else none

/-- The members of a replica group that may be used (R343). -/
def replicaMembers (v : Vf) (group : Nat) : Option (List Word) :=
  if 64 ≤ group then none
  else match (mapGet [] v.groups group).map (fabricTarget v) with
    | [] => none
    | ms => if ms.all fun m => m.isSome then some (ms.filterMap id) else none

/-- R153, R339, R340: whether an entry's space and rights admit an access. -/
def admits (v : Vf) (e : BitVec 256) (need : Need) : Bool :=
  let right := match need with
    | .load | .copySource | .portIn => entryRd e
    | .store | .copyDest | .portOut => entryWr e
    | .atomic => entryRd e && entryWr e
  let space := entrySpace e
  if space = 0 then right
  else if space = 1 then right && (need == .copySource || need == .copyDest)
  else if v.fabric = 0 then false
  else if space = 2 then right && (fabricTarget v (entryTarget e)).isSome
  else right && (need == .load || need == .copySource || need == .portIn) && (replicaMembers v (entryTarget e)).isSome

/-- R153: the handle checks without translation: validity, bounds over `z` bytes, then rights and space. -/
def entryTrap (v : Vf) (e : BitVec 256) (addr z : Nat) (need : Need) : Option TrapInfo :=
  let bad := BitVec.ofNat 64 addr
  if !entryValid e || decide (entryLen e < addr + z) then some (6, 0, bad)
  else if !admits v e need then some (7, 0, bad)
  else none

/-! Translation (R309, R310). -/

/-- Where the virtual address of a handle access is found. -/
inductive Trans where
  | page (pa : Nat) (leaf : Option Nat)
  | fault
  | miss
deriving DecidableEq, Repr

/-- An uncorrectable entry is no entry: it is dropped and fetched again (R358). -/
def tlbFind (es : List TlbEntry) (tag va : Nat) : Option TlbEntry :=
  es.find? fun e => !e.bad && e.tag == tag && e.page == va / 2 ^ e.bits

/-- What a walk ends in (R309). -/
inductive WalkEnd where
  | leaf (e : TlbEntry)
  | fault
  | violation
  /-- a table entry that the walk reads is uncorrectable (R358, R361; log 40): its violation kind and address -/
  | lost (kind addr : Nat)
deriving DecidableEq, Repr

/-- The table index of a level, and log2 of what a leaf of it maps. -/
def vaIndex (level va : Nat) : Nat :=
  if level = 0 then natBits va 48 39 else if level = 1 then natBits va 38 30 else if level = 2 then natBits va 29 21 else natBits va 20 16
def leafBits (level : Nat) : Nat := if level = 1 then 30 else if level = 2 then 21 else 16

/-- R309: whether a VF reaches a physical address: an owned or pooled channel, also one that was pooled when it was retired, which refuses what reaches
it (R361); or the pool where it is mapped, which copies alone reach, through their pool handles (R153, R332; log 40). -/
def State.reaches (s : State) (vf pa : Nat) (pool : Bool := false) : Bool :=
  let c := pa / Config.channelBytes
  if c < Config.channelCount then (s.vf vf).channels.getLsbD c || s.pooled.getLsbD c || s.lostPool.getLsbD c
  else pool && s.portB == .pool && decide (Config.poolBase ≤ pa) && decide (pa < Config.poolBase + Config.poolBytes)

/-- R309: what an entry says of an address: an access that the leaf does not permit is a fault. -/
def TlbEntry.trans (e : TlbEntry) (va : Nat) (rd wr : Bool) : Trans :=
  if (rd && !e.rd) || (wr && !e.wr) then .fault else .page (e.pa + va % 2 ^ e.bits) (if e.log then some e.leaf else none)

/-- R309, R310: a hit in a cache: the page contains the address, and what it maps it to is within the VF's reach. -/
def State.tlbHit (s : State) (es : List TlbEntry) (tag va : Nat) (pool : Bool := false) : Option TlbEntry :=
  (tlbFind es tag va).filter fun e => s.reaches (tag / 8) (e.pa + va % 2 ^ e.bits) pool

/-- R22, R310: the look-up of the tile's L1 translation cache at issue. -/
def State.translate (s : State) (tile tag va : Nat) (rd wr : Bool) : Trans :=
  match s.tlbHit (s.tile tile).tlb tag va with
  | none => .miss
  | some e => e.trans va rd wr

/-- R309: the walk from a table at a level. `fuel` counts levels. A leaf outside the VF's reach is a violation whatever its RD and WR (the order is
log 54). -/
def State.walkFrom (s : State) (tag va : Nat) (pool : Bool) : Nat → Nat → Nat → WalkEnd
  | 0, _, _ => .fault
  | fuel + 1, level, table =>
    let at_ := table + 8 * vaIndex level va
    let e := readNat s.mem at_ 8
    let addr := natBits e 45 8 * 256
    match s.lostAt at_ 8 with
    | some (kind, a) => .lost kind a
    | none =>
    if e % 2 = 0 then .fault
    else if natBits e 1 1 = 1 then
      (if level = 0 then .fault
      else
        let bits := leafBits level
        let pa := addr / 2 ^ bits * 2 ^ bits
        if s.reaches (tag / 8) (pa + va % 2 ^ bits) pool then
          .leaf ⟨tag, va / 2 ^ bits, bits, pa, natBits e 2 2 == 1, natBits e 3 3 == 1, natBits e 6 6 == 1, natBits e 5 5 == 1, at_, false⟩
        else .violation)
    else if level = 3 then .fault
    else s.walkFrom tag va pool fuel (level + 1) addr

/-- R309: the walk of a virtual address for a translation tag. -/
def State.walk (s : State) (tag va : Nat) (pool : Bool := false) : WalkEnd :=
  match s.lostAt (mapGet 0 (s.vf (tag / 8)).contexts (tag % 8)) 8 with
  | some (kind, a) => .lost kind a
  | none => s.walkFrom tag va pool 4 0 (natBits (s.descriptor (tag / 8) (tag % 8)) 63 0)

/-! Targets. -/

/-- Where an access is performed (R240). A remote device and a context there are one number, DEV + 65,536 × (RVF × 8 + RCTX) (R340); `page` is
log2 of the page that the translation gave (R309). -/
inductive Target where
  | store (tile off : Nat)
  | device (va pa : Nat) (leaf : Option Nat) (cached : Bool) (page : Nat)
  | fabric (dev va : Nat) (cached : Bool)
  | replica (members : List Word) (va : Nat)
deriving DecidableEq, Repr

/-- The answer of the step-7 checks of one access. -/
inductive Resolved where
  | ok (t : Target)
  | trap (e : TrapInfo)
  /-- the page must be walked (R22) -/
  | walk (tag va : Nat)
deriving DecidableEq, Repr

def Need.reads : Need → Bool
  | .load | .atomic | .copySource | .portIn => true
  | _ => false
def Need.writes : Need → Bool
  | .store | .atomic | .copyDest | .portOut => true
  | _ => false

/-- R340: the tag of a target entry's context, RVF × 8 + RCTX, and the number of its device and context. -/
def memberTag (m : Word) : Nat := (m.extractLsb' 5 7).toNat * 8 + (m.extractLsb' 2 3).toNat
def memberPlace (m : Word) : Nat := (m.extractLsb' 32 16).toNat + 2 ^ 16 * memberTag m

/-- The device of a place, and the address there that names a context and a virtual address in it (log 13). -/
def placeDev (p : Nat) : Nat := p % 2 ^ 16
def placeAddr (p va : Nat) : Nat := p / 2 ^ 16 * 2 ^ 49 + va

/-- The number of lines the L1 of a tile holds (R164; log 7). -/
def Tile.l1Lines (t : Tile) : Nat := (Config.localBytes - t.xb - t.scr) / 128

/-- Log2 of the page that a tile's cache gives an address (R309). -/
def State.pageBits (s : State) (tile tag va : Nat) : Nat := ((s.tlbHit (s.tile tile).tlb tag va).map fun e => e.bits).getD 16

/-- The bytes from an address to the next page or, with `line`, to the next line of 128 bytes. -/
def roomAt (line : Bool) (va : Nat) : Nat := if line then 128 - va % 128 else 65536 - va % 65536

/-- R309: the translation of an access's bytes: that of its first one, and that of the next page where BASE makes it reach one; then what it gives. -/
def State.reach (s : State) (r : Strand) (tile tag index va z : Nat) (need : Need) (k : Nat → Option Nat → Resolved) : Resolved :=
  let look (va : Nat) (k : Nat → Option Nat → Resolved) : Resolved :=
    match s.translate tile tag va need.reads need.writes with
    | .page pa leaf => k pa leaf
    | .fault => .trap (8, index, BitVec.ofNat 64 va)
    | .miss => if r.walk.any fun w => w.failed && w.tag == tag && w.va == va then .trap (8, index, BitVec.ofNat 64 va) else .walk tag va
  look va fun pa leaf =>
    if z ≤ roomAt false va then k pa leaf else look ((va + roomAt false va) % 2 ^ 49) fun _ _ => k pa leaf

/-- Where an admitted access of `z` bytes at an offset of a handle goes: virtual address, translation where the space has one (R309). -/
def State.handleTarget (s : State) (r : Strand) (tile index addr z : Nat) (need : Need) : Resolved :=
  let e := s.entryOf tile index
  let l := s.launchOf tile
  let va := entryVa e addr
  let cached := entryCached e && decide (0 < (s.tile tile).l1Lines)
  if entrySpace e = 2 then
    .ok (.fabric (memberPlace ((fabricTarget (s.vf l.vf) (entryTarget e)).getD 0)) va cached)
  else if entrySpace e = 3 then .ok (.replica ((replicaMembers (s.vf l.vf) (entryTarget e)).getD []) va)
  else s.reach r tile l.tag index va z need fun pa leaf => .ok (.device va pa leaf cached (s.pageBits tile l.tag va))

/-- R155: the checks of one access of `z` bytes, in order: alignment; region, or validity and bounds; rights and space; translation. -/
def State.resolve (s : State) (r : Strand) (tile : Nat) (handle : Option (Except Word Nat)) (addr z align : Nat) (need : Need) : Resolved :=
  if addr % align ≠ 0 then .trap (5, 0, BitVec.ofNat 64 addr)
  else match handle with
  | none =>
    (match s.localTarget tile addr z with
    | .error e => .trap e
    | .ok (t, o) => .ok (.store t o))
  | some (.error v) => .trap (6, 0, v)
  | some (.ok index) =>
    match entryTrap (s.vf (s.launchOf tile).vf) (s.entryOf tile index) addr z need with
    | some e => .trap e
    | none => s.handleTarget r tile index addr z need

/-- R155: lanes in ascending order, each through all checks; the first that fails, or that waits for a walk, decides (log 54). -/
def resolveAll (one : Nat → Resolved) : List (Nat × Nat) → Except Resolved (List (Nat × Target))
  | [] => .ok []
  | (j, a) :: rest =>
    match one a with
    | .ok t => (match resolveAll one rest with
      | .ok ts => .ok ((j, t) :: ts)
      | .error e => .error e)
    | e => .error e

/-! Walkers (R310): each die has 16, each with a queue that it serves in arrival order. -/

/-- Whether a walk is still under way. -/
def Walk.pending (w : Walk) : Bool := !w.failed && w.barred.isNone

/-- The walks that the elements of a strand's copies, ports and drains wait for, and with them the strand's own. -/
def Strand.engineWalks (r : Strand) : List Walk := r.copies.filterMap (fun c => c.walk) ++ r.ports.filterMap (fun q => q.2.walk) ++ r.drainWalk.toList
def Strand.walks (r : Strand) : List Walk := r.walk.toList ++ r.engineWalks

/-- Each of a strand's engine walks changed, or ended. -/
def Strand.onEngineWalks (r : Strand) (g : Walk → Option Walk) : Strand :=
  { r with copies := r.copies.map fun c => { c with walk := c.walk.bind g }
           ports := r.ports.map fun q => (q.1, { q.2 with walk := q.2.walk.bind g })
           drainWalk := r.drainWalk.bind g }

/-- The walks of a die's strands and engines that stand in a walker's queue. -/
def State.walksOf (s : State) (die : Nat) : List Walk :=
  (s.strands.filter fun p => dieOf (p.1 / 8) == die).flatMap fun p => p.2.walks.filter fun w => w.pending && w.walker.isSome

/-- Whether the walk of one address finds the page of another. -/
def State.samePage (s : State) (tag va other : Nat) : Bool :=
  va / 65536 == other / 65536 || match s.walk tag va with
    | .leaf e => other / 2 ^ e.bits == e.page
    | _ => false

/-- R310: a walk of the die that a miss of a tag at an address merges with. -/
def State.sharedWalk (s : State) (tile tag va : Nat) (pool : Bool := false) : Option Walk :=
  (s.walksOf (dieOf tile)).find? fun w => w.tag == tag && w.pool == pool && s.samePage tag w.va va

/-- How many walks stand in a walker's queue, each once. -/
def queueLength (ws : List Walk) (k : Nat) : Nat :=
  ((ws.filter fun w => w.walker == some k).foldl (fun seen w => if seen.contains w.stamp then seen else w.stamp :: seen) []).length

/-- The walker that takes a new walk: the lowest-numbered of those with the shortest queue (log 54). -/
def nextWalker (ws : List Walk) : Nat :=
  (List.range 16).foldl (fun best k => if queueLength ws k < queueLength ws best then k else best) 0

/-- R310: whether a walk is the one that its walker serves. -/
def State.walkFirst (s : State) (tile : Nat) (w : Walk) : Bool :=
  (s.walksOf (dieOf tile)).all fun v => v.walker != w.walker || decide (w.stamp ≤ v.stamp)

/-- R310: a miss of a tile's cache: its cluster's cache has the page, or it joins a walk of the page, or a walker's queue. -/
def State.newWalk (s : State) (tile tag va : Nat) (pool : Bool := false) : Walk :=
  if (s.tlbHit (s.cluster (clusterOf tile)).tlb tag va pool).isSome then { tag := tag, va := va, pool := pool }
  else match s.sharedWalk tile tag va pool with
  | some w => { tag := tag, va := va, pool := pool, walker := w.walker, stamp := w.stamp }
  | none => { tag := tag, va := va, pool := pool, walker := some (nextWalker (s.walksOf (dieOf tile))), stamp := s.fresh }

/-- A strand waits for a walk. -/
def State.startWalk (s : State) (who tag va : Nat) : State :=
  { s.setStrand who { s.strand who with walk := some (s.newWalk (who / 8) tag va) } with fresh := s.fresh + 1 }

/-- R22, R98: a check that does not go on: a trap, or a walk that the strand waits for. -/
def State.checkFailed (s : State) : Resolved → State
  | .ok _ => s
  | .trap (code, info, bad) => s.takeTrap code info bad
  | .walk tag va => if s.me.walk.any fun w => !w.failed && w.tag == tag && w.va == va then s else s.startWalk s.cur tag va

/-- R253, R323: whether what comes for a tile is diverted, and whether its spill queue of 2,048 messages is full. -/
def State.diverts (s : State) (tile : Nat) : Bool := (s.tile tile).preempt.diverts
def State.spillFull (s : State) (tile : Nat) : Bool := s.diverts tile && decide (2048 ≤ (s.tile tile).spill.length)

/-- R323: whether an access waits at its source's injection: it goes to another tile whose spill queue is full. -/
def State.injectionHeld (s : State) : Target → Bool
  | .store t _ => t != s.myTile && s.spillFull t
  | _ => false

/-- The step-7 checks of a memory instruction's accesses (`items`: place in the data and address), then its effect. That an access which waits at its
injection (R323) is held only after all of them is log 36; an uncorrectable handle entry freezes the strand before them (log 40). -/
def State.accessing (s : State) (r : Strand) (handle : Option (Except Word Nat)) (items : List (Nat × Nat)) (z align : Nat)
    (need : Need) (k : State → List (Nat × Target) → State) : State :=
  let s1 := match handle, items with
    | some (.ok index), _ :: _ => s.useHandle s.myTile index
    | _, _ => s
  s.unlessLost (match handle, items with
    | some (.ok index), _ :: _ => s.entryLost s.myTile index
    | _, _ => none)
  (match resolveAll (fun a => s.resolve r s.myTile handle a z align need) items with
  | .ok ts => if ts.any fun t => s.injectionHeld t.2 then s else k (s1.setMe { s1.me with walk := none }) ts
  | .error e => s1.checkFailed e)

/-! Homes and scopes. -/

def Target.home : Target → Home
  | .store t _ => .tile t
  | .device _ pa _ _ _ => .channel (pa / Config.channelBytes)
  | .fabric p _ _ => .fabric (placeDev p)
  | .replica _ _ => .fabric 0

/-- The address of a target at its home. -/
def Target.addr : Target → Nat
  | .store _ o => o
  | .device _ pa _ _ _ => pa
  | .fabric p va _ => placeAddr p va
  | .replica _ va => va

/-- R202: the narrowest fence scope that covers a home, from a tile: 0 tile, 1 clu, 2 die, 3 dev, 4 sys. -/
def coverOf (tile : Nat) : Home → Nat
  | .tile t => if t = tile then 0 else if clusterOf t = clusterOf tile then 1 else if dieOf t = dieOf tile then 2 else 3
  | .channel _ => 3
  | .fabric _ => 4
  | .hoist _ => 1

def Target.va : Target → Nat
  | .device va _ _ _ _ => va
  | .fabric _ va _ => va
  | .replica _ va => va
  | .store _ o => o

def Target.cached : Target → Bool
  | .device _ _ _ c _ => c
  | .fabric _ _ c => c
  | _ => false

/-- The place `n` bytes on, at the start of a line or page: within one page it follows in memory, and another page has its own translation. -/
def State.onward (s : State) (tile tag n : Nat) : Target → Target
  | .device va pa leaf c page =>
    let next := (va + n) % 2 ^ 49
    (match if next % 65536 = 0 then s.tlbHit (s.tile tile).tlb tag next else none with
    | some e => .device next (e.pa + next % 2 ^ e.bits) (if e.log then some e.leaf else none) c e.bits
    | none => .device next (pa + n) leaf c page)
  | .fabric p va c => .fabric p ((va + n) % 2 ^ 49) c
  | .replica ms va => .replica ms ((va + n) % 2 ^ 49)
  | t => t

/-- The parts of an access of `z` bytes that lie in one line each (place in it, size, target): BASE need not be aligned (R308), so it may reach the
next line. -/
def State.pieces (s : State) (tile tag z : Nat) (t : Target) : List (Nat × Nat × Target) :=
  let n := roomAt true t.va
  if z ≤ n then [(0, z, t)] else [(0, n, t), (n, z - n, s.onward tile tag n t)]

/-- Log2 of the page that a target's translation gave (R309). -/
def Target.page : Target → Nat
  | .device _ _ _ _ page => page
  | _ => 16

/-- The page's table entry, where the page is logged (R329). -/
def Target.leaf : Target → Option Nat
  | .device _ _ leaf _ _ => leaf
  | _ => none

/-- The place of a target. -/
def Target.spot (t : Target) : Spot := { home := t.home, addr := t.addr, va := t.va, leaf := t.leaf, page := t.page }

/-- Where an access of `z` bytes goes on when it reaches the next page: it stays one access (R242). -/
def State.cutOf (s : State) (tile tag z : Nat) (t : Target) : Option (Nat × Spot) :=
  match t with
  | .store _ _ => none
  | t => if z ≤ roomAt false t.va then none else some (roomAt false t.va, (s.onward tile tag (roomAt false t.va) t).spot)

/-- A message to a target, with the translation it passed. -/
def Target.msg (t : Target) (src tag : Nat) (body : Body) : Msg :=
  match t with
  | .store _ o => { id := 0, src := src, home := t.home, addr := o, body := body }
  | .device va pa leaf _ page =>
    { id := 0, src := src, home := t.home, addr := pa, va := va, tag := some tag, leaf := leaf, page := page, line := t.cached, body := body }
  | .fabric _ va _ => { id := 0, src := src, home := t.home, addr := t.addr, va := va, line := t.cached, body := body }
  | .replica _ va => { id := 0, src := src, home := t.home, addr := va, va := va, body := body }

/-- A message for `z` bytes at a target. -/
def State.msgTo (s : State) (src tag z : Nat) (t : Target) (body : Body) : Msg := { t.msg src tag body with cut := s.cutOf (src / 8) tag z t }

/-- Whether a message is a line writeback (R164). -/
def Body.isWriteback : Body → Bool
  | .writeback _ _ _ => true
  | _ => false

/-- R240, R343: whether a request reads and whether it writes at its home. -/
def Body.rights : Body → Bool × Bool
  | .read _ _ _ _ _ | .fill _ _ _ _ => (true, false)
  | .atomic _ _ _ _ _ => (true, true)
  | _ => (false, true)

/-- Where a context of this device, named by a fabric address, has a byte (R309, R340): none where the access is refused. -/
def State.localSpot (s : State) (addr : Nat) (rd wr : Bool) : Option Spot :=
  match s.walk (addr / 2 ^ 49) (addr % 2 ^ 49) with
  | .leaf e => (match e.trans (addr % 2 ^ 49) rd wr with
    | .page pa leaf => some { home := .channel (pa / Config.channelBytes), addr := pa, va := addr % 2 ^ 49, leaf := leaf, page := e.bits }
    | _ => none)
  | _ => none

/-- R240, R340, R343: an access that names this device itself goes to its local home, through the context that it names; home 65,536
stands for its refusal (log 44). -/
def State.localize (s : State) (m : Msg) : Msg :=
  match m.home with
  | .fabric d =>
    if d ≠ s.linkId.toNat then m
    else match s.localSpot m.addr m.body.rights.1 m.body.rights.2, m.cut.map fun c => (c.1, s.localSpot c.2.addr m.body.rights.1 m.body.rights.2) with
      | some p, none => { m with home := p.home, addr := p.addr, tag := some (m.addr / 2 ^ 49), leaf := p.leaf, page := p.page }
      | some p, some (n, some q) =>
        { m with home := p.home, addr := p.addr, tag := some (m.addr / 2 ^ 49), leaf := p.leaf, page := p.page, cut := some (n, q) }
      | _, _ => { m with home := .fabric 65536, cut := none }
  | _ => m

/-! Fabric ports (R338, R339). -/

/-- A port that carries flits: one whose oldest flit has failed its 8 retransmissions carries none, because it goes down (R338). -/
def LinkPort.live (p : LinkPort) : Bool := !p.down && !p.frozen && decide (p.failures < 9) && decide (p.sendFails < 9)

/-- The owned ports, and those of them that are up and not frozen. -/
def Vf.ports (v : Vf) : List Nat := (List.range 96).filter fun p => v.fabric.getLsbD p
def State.livePorts (s : State) (vf : Nat) : List Nat := (s.vf vf).ports.filter fun p => (s.link p).live

/-- R339: whether a VF's messages reach the fabric. -/
def State.fabricUp (s : State) (vf : Nat) : Bool := !(s.livePorts vf).isEmpty

/-- R339: the port that a VF's messages to a device take: owned port number d mod m, or the next one that carries flits. -/
def State.portFor (s : State) (vf d : Nat) : Option Nat :=
  let ps := (s.vf vf).ports
  (ps.drop (d % ps.length) ++ ps.take (d % ps.length)).find? fun p => (s.link p).live

/-- R338: the replay buffer: the first 256 messages still to be acknowledged. -/
def LinkPort.replay (p : LinkPort) (net : List Msg) : List (BitVec 8 × Nat) :=
  (p.out.filter fun o => net.any fun m => m.id == o.2).take 256

/-- R338: a message is sent on a port under the next sequence number. -/
def LinkPort.send (p : LinkPort) (id : Nat) : LinkPort := { p with out := p.out ++ [(p.sendSeq, id)], sendSeq := p.sendSeq + 1 }

/-- R339: whether a message to another device has entered some port. -/
def State.sentOut (s : State) (id : Nat) : Bool := s.links.any fun p => p.2.out.any fun o => o.2 == id

/-- R339: a message to another device is sent on its port. -/
def State.sendOut (s : State) (m : Msg) : State :=
  match m.home with
  | .fabric d =>
    (match (if d < 65536 then s.portFor (s.launchOf (m.src / 8)).vf d else none) with
    | some p => s.setLink p ((s.link p).send m.id)
    | none => s)
  | _ => s

/-- R339: what a port that no longer carries flits had still to send goes to the next ports of its pairs, in order; where no port is left it is refused
(home 65,536). -/
def State.movePort (s : State) (p : Nat) : State :=
  let moved := (s.link p).out
  moved.foldl (fun s o => match s.message o.2 with
    | some m =>
      let t := s.sendOut m
      if t.sentOut m.id then t else { s with net := s.net.map fun n => if n.id = m.id then { n with home := .fabric 65536, cut := none } else n }
    | none => s) (s.setLink p { s.link p with out := [] })

/-- A memory request leaves its tile. -/
def State.request (s : State) (m : Msg) : State := s.sendMsg (s.localize m)

/-- A posted store leaves (R163): its message, and what its strand keeps until the acknowledgment. `shown` is the address a
deferred-store fault gives. -/
def State.post (s : State) (m : Msg) (shown : Word) (task : Bool) (body : Nat → Body) : State :=
  let r := s.strand m.src
  let p : Posted := { id := s.fresh, addr := shown, cover := coverOf (m.src / 8) (s.localize { m with body := body 0 }).home, task := task, wb := (body 0).isWriteback }
  s.setStrand m.src { r with posted := r.posted ++ [p] } |>.request { m with body := body s.fresh }

/-! The L1 (R164). -/

def byteOf (d : BitVec 1024) (i : Nat) : Byte := d.extractLsb' (8 * i) 8
/-- A line's data with one byte replaced. -/
def putByte (d : BitVec 1024) (i : Nat) (b : Byte) : BitVec 1024 :=
  (d &&& ~~~ ((0xFF : BitVec 1024) <<< (8 * i))) ||| (b.zeroExtend 1024 <<< (8 * i))
def putBytes (d : BitVec 1024) : Nat → List Byte → BitVec 1024
  | _, [] => d
  | i, b :: r => putBytes (putByte d i b) (i + 1) r
/-- The mask of `n` bytes from byte `i` of a line. -/
def byteMask (i n : Nat) : BitVec 128 := BitVec.ofNat 128 ((2 ^ n - 1) * 2 ^ i)

def l1Find (t : Tile) (tag va : Nat) : Option L1Line := t.l1.find? fun l => l.tag == tag && l.line == va / 128
/-- The lines of a tile with one changed or dropped. -/
def l1On (t : Tile) (tag line : Nat) (g : L1Line → Option L1Line) : Tile :=
  { t with l1 := t.l1.filterMap fun l => if l.tag = tag ∧ l.line = line then g l else some l }

/-- R340: the tag of a line through a target: a fabric target's device and context are part of it. -/
def Target.lineTag (tag : Nat) : Target → Nat
  | .fabric p _ _ => tag + 1024 * (p + 1)
  | _ => tag

/-- The tag of the lines through a handle entry of a tile, where it may be used. -/
def State.entryLineTag (s : State) (tile : Nat) (e : BitVec 256) : Option Nat :=
  let l := s.launchOf tile
  if entrySpace e = 2 then (fabricTarget (s.vf l.vf) (entryTarget e)).map fun m => l.tag + 1024 * (memberPlace m + 1) else some l.tag

/-- The context that holds a line (R164), and the one by which its home has translated its address (R340). -/
def L1Line.owner (l : L1Line) : Nat := l.tag % 1024
def L1Line.context (l : L1Line) : Nat := if l.tag < 1024 then l.tag else (l.tag / 1024 - 1) / 2 ^ 16

/-- A line whose dirty bytes have been written back: those that were uncorrectable are gone (R358). -/
def L1Line.cleaned (l : L1Line) : L1Line := { l with dirty := 0, valid := l.valid &&& ~~~ (l.dirty &&& l.bad), bad := l.bad &&& ~~~ l.dirty }

/-- A line without bytes is not listed. -/
def L1Line.norm (l : L1Line) : Option L1Line := if l.valid = 0 then none else some l

/-- R354: the physical address of the first of some bytes of a line; 0 where its home is not device memory. -/
def L1Line.lostAddr (l : L1Line) (bytes : BitVec 128) : Nat :=
  match l.home with
  | .channel _ => l.pa + trailingZeros 128 bytes.toNat
  | _ => 0

/-- R163, R164: the dirty bytes of a line go to its home as a posted store charged to a strand. BADADDR of a rejection is the
virtual address of the lowest dirty byte. Uncorrectable bytes freeze the strand and are not delivered (R358). -/
def State.writeback (s : State) (src : Nat) (l : L1Line) : State :=
  let good := l.dirty &&& ~~~ l.bad
  let s := if l.dirty &&& l.bad = 0 then s else s.freeze src 3 (l.lostAddr (l.dirty &&& l.bad))
  if good = 0 then s
  else
    let shown := BitVec.ofNat 64 (l.line * 128 + trailingZeros 128 good.toNat)
    let tag : Option Nat := match l.home with
      | .channel _ => some l.context
      | _ => none
    s.post { id := 0, src := src, home := l.home, addr := l.pa, va := l.line * 128, tag := tag, leaf := l.leaf, page := l.page,
             withdrawn := l.withdrawn, body := .writeback 0 0 0 } shown false fun p => .writeback p l.data good

/-- A line enters the L1; where the L1 is full the oldest line is replaced and written back (R163, R164; log 7). The writeback is charged to the strand
that now holds the slot of the line's last writer, also where that writer has halted (log 24). -/
def State.l1Insert (s : State) (tile : Nat) (l : L1Line) : State :=
  let t := s.tile tile
  if t.l1.length < t.l1Lines then s.setTile tile { t with l1 := t.l1 ++ [l] }
  else match t.l1 with
    | [] => s
    | old :: rest => (s.setTile tile { t with l1 := rest ++ [l] }).writeback (tile * 8 + old.writer) old

/-- R164: a store's bytes are written, valid and dirty; the line is allocated if absent. A line whose page was withdrawn is replaced: its dirty bytes
go, to be rejected (R363). The bytes lie within one line. -/
def State.l1Store (s : State) (tile slot tag : Nat) (t : Target) (bytes : List Byte) : State :=
  let va := t.va
  let i := va % 128
  let m := byteMask i bytes.length
  let tag := t.lineTag tag
  let new : L1Line := { tag := tag, line := va / 128, home := t.home, pa := t.addr - i, leaf := t.leaf, page := t.page,
                        data := putBytes 0 i bytes, valid := m, dirty := m, writer := slot }
  match l1Find (s.tile tile) tag va with
  | some l =>
    if l.withdrawn then (s.setTile tile (l1On (s.tile tile) tag (va / 128) fun _ => some new)).writeback (tile * 8 + l.writer) l
    else s.setTile tile (l1On (s.tile tile) tag (va / 128) fun l =>
      some { l with data := putBytes l.data i bytes, valid := l.valid ||| m, dirty := l.dirty ||| m, bad := l.bad &&& ~~~ m, writer := slot })
  | none => s.l1Insert tile new

/-- R164, R247: a line's bytes from its home with those over them that the tile's own stores to the line still carry there. -/
def State.lineBytes (s : State) (m : Msg) (bytes : List Byte) : List Byte :=
  (s.net.filter fun n => n.src / 8 == m.src / 8).foldl (fun bs n =>
    match n.body with
    | .writeback _ d mask => if n.home = m.home ∧ n.addr = m.addr then bs.zipIdx.map fun p => if mask.getLsbD p.2 then byteOf d p.2 else p.1 else bs
    | .write _ _ new =>
      if n.line then (n.parts new.length).foldl (fun bs p =>
        if p.1.home = m.home ∧ m.addr < p.1.addr + p.2.2 ∧ p.1.addr < m.addr + 128 then
          bs.zipIdx.map fun b => if p.1.addr ≤ m.addr + b.2 ∧ m.addr + b.2 < p.1.addr + p.2.2 then new.getD (p.2.1 + (m.addr + b.2 - p.1.addr)) b.1 else b.1
        else bs) bs
      else bs
    | _ => bs) bytes

/-- R164: the fill that a message brings writes every byte of its line that is not dirty. -/
def State.l1Fill (s : State) (m : Msg) (tag line : Nat) (bytes : List Byte) : State :=
  let tile := m.src / 8
  let d := BitVec.ofNat 1024 (bytesToNat bytes)
  match l1Find (s.tile tile) tag (line * 128) with
  | some _ => s.setTile tile (l1On (s.tile tile) tag line fun l =>
      let keep := putBytes 0 0 ((List.range 128).map fun i => if l.dirty.getLsbD i then byteOf l.data i else byteOf d i)
      some { l with data := keep, valid := BitVec.allOnes 128, bad := l.bad &&& l.dirty })
  | none => s.l1Insert tile { tag := tag, line := line, home := m.home, pa := m.addr, leaf := m.leaf, page := m.page, data := d,
                              valid := BitVec.allOnes 128, dirty := 0, writer := m.src % 8 }

/-- Every dirty byte of some lines is written back, charged to a strand; the bytes become clean (R162, R165, R202). -/
def State.l1Clean (s : State) (tile src : Nat) (p : L1Line → Bool) : State :=
  let t := s.tile tile
  let dirty := t.l1.filter fun l => p l && l.dirty != 0
  let s := s.setTile tile { t with l1 := t.l1.map fun l => if p l then l.cleaned else l }
  dirty.foldl (fun s l => s.writeback src l) s

/-- Every byte that is not dirty leaves the L1 (R161, R202). -/
def Tile.dropClean (t : Tile) : Tile :=
  { t with l1 := t.l1.filterMap fun l => ({ l with valid := l.valid &&& l.dirty } : L1Line).norm }

/-- The clean bytes among `n` from a virtual address leave the L1 (R161), those in the next line too. -/
def Tile.dropBytes (t : Tile) (tag va n : Nat) : Tile :=
  let drop (t : Tile) (line i n : Nat) : Tile :=
    l1On t tag line fun l => ({ l with valid := l.valid &&& (~~~ byteMask i n ||| l.dirty) } : L1Line).norm
  let t := drop t (va / 128) (va % 128) n
  if va % 128 + n ≤ 128 then t else drop t (va / 128 + 1) 0 (va % 128 + n - 128)

/-! Reading. -/

/-- What an item of a load does: bytes at hand, or a request. -/
inductive Request where
  /-- bytes at hand, for a place in the data -/
  | bytes (pos : Nat) (bs : List Byte) (bad : Option (Nat × Nat))
  /-- a read of `size` bytes; `units` as in `Body.read` -/
  | read (t : Target) (pos size : Nat) (units : Word)
  /-- a line fill for the bytes of `takes` -/
  | fill (t : Target) (takes : List (Nat × Nat × Nat))
deriving DecidableEq, Repr

/-- The first byte of the line that holds a target. -/
def Target.lineOf : Target → Target
  | .device va pa leaf c page => .device (va - va % 128) (pa - va % 128) leaf c page
  | .fabric d va c => .fabric d (va - va % 128) c
  | t => t

/-- The runs of set bits among `n` bits from bit `i` up, as (start, length). -/
def bitRuns (m : BitVec 128) : Nat → Nat → List (Nat × Nat)
  | _, 0 => []
  | i, n + 1 =>
    if m.getLsbD i then
      (match bitRuns m (i + 1) n with
      | (j, k) :: rest => if j = i + 1 then (i, k + 1) :: rest else (i, 1) :: (j, k) :: rest
      | [] => [(i, 1)])
    else bitRuns m (i + 1) n

/-- The requests for `z` bytes that one line of the L1 would hold: a hit, or a fill for the bytes that are not dirty; clean uncorrectable bytes of a
line are fetched again (R358). -/
def State.lineRequests (s : State) (tile tag pos z : Nat) (t : Target) : List Request :=
  let i := t.va % 128
  match l1Find (s.tile tile) (t.lineTag tag) t.va with
  | some l =>
    let held := (List.range z).map fun k => byteOf l.data (i + k)
    let lost := l.bad &&& l.dirty &&& byteMask i z
    let bad := if lost = 0 then none else some (3, l.lostAddr lost)
    if l.valid &&& (~~~ l.bad ||| l.dirty) &&& byteMask i z = byteMask i z then [.bytes pos held bad]
    else [.bytes pos held bad, .fill t.lineOf ((bitRuns (~~~ l.dirty) i z).map fun p => (pos + (p.1 - i), p.1, p.2))]
  | none => [.fill t.lineOf [(pos, i, z)]]

/-- The requests of one item of `z` bytes: the own store, the L1's lines, or a read, which is one event (R242); with `split`, a lane of a `v.ld`, a read
for each line that its bytes lie in. With `direct` (an acquire) the L1 is not used (R161). -/
def State.itemRequests (s : State) (tile tag z : Nat) (direct split : Bool) (pos : Nat) (t : Target) : List Request :=
  match t with
  | .store p o =>
    if p = tile then [.bytes pos (readBytes (s.tile tile).store o z) ((badIn s.badWords (localPa tile o) z).map fun kind => (kind, 0))]
    else [.read t pos z 1]
  | _ =>
    if t.cached && !direct then (s.pieces tile tag z t).flatMap fun p => s.lineRequests tile tag (pos + p.1) p.2.1 p.2.2
    else if split then (s.pieces tile tag z t).map fun p => .read p.2.2 (pos + p.1) p.2.1 1
    else [.read t pos z 1]

/-- Whether a second read follows the first at one home, for a vector access: the same tile, or the same line (R242). -/
def Target.joins : Target → Target → Bool
  | .store t _, .store u _ => t == u
  | .device va pa _ _ _, .device vb pb _ _ _ => va / 128 == vb / 128 && pa / 128 == pb / 128
  | .fabric d va _, .fabric e vb _ => d == e && va / 128 == vb / 128
  | .replica m va, .replica n vb => m == n && va / 128 == vb / 128
  | _, _ => false

/-- Reads of one event are merged into one request: `gather` is false where each lane is a request of its own. Fills of one
line are always one request. -/
def mergeRequests (gather : Bool) : List Request → List Request
  | [] => []
  | q :: rest =>
    let rest := mergeRequests gather rest
    match q with
    | .bytes _ _ _ => q :: rest
    | .fill t takes =>
      (match rest.find? fun p => match p with
          | .fill u _ => u == t
          | _ => false with
      | some (.fill u more) => .fill t (takes ++ more) :: rest.filter fun p => p != .fill u more
      | _ => q :: rest)
    | .read t pos _ units =>
      if gather then q :: rest
      else match rest.find? fun p => match p with
          | .read u _ _ _ => t.joins u
          | _ => false with
      | some (.read u pos2 size2 units2) =>
        .read t pos (pos2 - pos + size2) (units ||| (units2 <<< (pos2 / 4 - pos / 4))) :: rest.filter fun p => p != .read u pos2 size2 units2
      | _ => q :: rest

/-- Bytes at a place of an operation's data. -/
def putData (d : VReg) (pos : Nat) (bs : List Byte) : VReg :=
  let m : VReg := BitVec.ofNat 2048 ((2 ^ (8 * bs.length) - 1) * 2 ^ (8 * pos))
  (d &&& ~~~ m) ||| BitVec.ofNat 2048 (bytesToNat bs * 2 ^ (8 * pos))

/-- Bytes at hand, put into the data. -/
def requestData (qs : List Request) : VReg :=
  qs.foldl (fun d q => match q with
    | .bytes pos bs _ => putData d pos bs
    | _ => d) 0

def requestBad (qs : List Request) : Option (Nat × Nat) :=
  qs.findSome? fun q => match q with
    | .bytes _ _ bad => bad
    | _ => none

/-- The messages of a request; a replica is read at every member (R343). -/
def State.requestMsgs (s : State) (src tag op : Nat) : Request → List Msg
  | .bytes _ _ _ => []
  | .read t pos size units =>
    match t with
    | .replica ms va => ms.zipIdx.map fun (m, k) => s.msgTo src tag size (.fabric (memberPlace m) va false) (.read op pos size (k + 1) units)
    | t => [s.msgTo src tag size t (.read op pos size 0 units)]
  | .fill t takes => [t.msg src tag (.fill op (t.lineTag tag) (t.va / 128) takes)]

def State.sendAll (s : State) (ms : List Msg) : State := ms.foldl (fun s m => s.request m) s

/-- R23: whether an item goes to another tile's local store. -/
def Target.isRemote (t : Target) (tile : Nat) : Bool :=
  match t with
  | .store p _ => p != tile
  | _ => false

def Target.isOwn (t : Target) (tile : Nat) : Bool :=
  match t with
  | .store p _ => p == tile
  | _ => false

/-- The number of members that a request's target has. -/
def Request.members : Request → Nat
  | .read (.replica ms _) _ _ _ => ms.length
  | _ => 0

/-- A long-class load issues (R21): its bytes at hand, its requests, and what its result needs. -/
def State.startLoad (s : State) (r : Strand) (f : Fields) (o : LongOp) (items : List (Nat × Target)) (qs : List Request) : State :=
  let tag := (s.launchOf s.myTile).tag
  let op := s.fresh
  let ms := qs.flatMap (s.requestMsgs s.cur tag op)
  let cover := (items.map (fun p => coverOf s.myTile p.2.home) ++ ms.map fun m => coverOf s.myTile (s.localize m).home).foldl Nat.min 4
  let members := (qs.map Request.members).foldl Nat.max 0
  let o := { o with remote := items.any fun p => p.2.isRemote s.myTile, cover := cover, waiting := ms.length, data := requestData qs,
                    members := List.replicate members 0, bad := requestBad qs }
  (s.startLong r f o).sendAll ms

/-- The long-class room of a load whose addresses are known (R23, R155; log 20): long where some access goes outside the own
store, and remote where it goes to another tile's. -/
def State.loadHeld (s : State) (r : Strand) (handle : Option (Except Word Nat)) (addrs : List Nat) (always : Bool) : Bool :=
  let l := s.launchOf s.myTile
  let own (a : Nat) : Bool := natBits a 31 30 == 0 ||
    (natBits a 31 30 == 1 && natBits a 24 20 == l.fx s.myTile && natBits a 29 25 == l.fy s.myTile)
  let remote := handle.isNone && addrs.any fun a => !own a && natBits a 31 30 == 1
  let long := always || (if handle.isNone then addrs.any fun a => !own a else !addrs.isEmpty)
  long && !longRoom r remote

end Sys2Proof.Machine
end

