-- ==== Sys2Proof/Machine/Memory.lean ====
section
/-! DEFINITION. Loads, stores, acquire and release, atomics, L1 maintenance and timeline counters (R157 to R170, R181 to R183). -/

namespace Sys2Proof.Machine

/-! Delivering what was read. -/

/-- R157: a value of a format as the register holds it: signed 8, 16 and 32-bit integers are sign-extended. -/
def loadedValue (c : Nat) (data : Nat) : Word := extend64 (!isFloatFmt c && fmtSigned c) (fmtWidth c) data

/-- R158, R159: active lanes from the data, the others from the base. -/
def laneValue (active : Word) (base data : VReg) : VReg :=
  packV 32 ((List.range 64).map fun j => if active.getLsbD j then elemAt 32 data j else elemAt 32 base j)

/-- A result is written to its register (R21). -/
def writeResult (r : Strand) (dest : Dest) (finish : Finish) (data : VReg) : Strand :=
  match dest with
  | .none => r
  | .x n => writeX r n (match finish with
    | .scalar c => loadedValue c data.toNat
    | _ => data.truncate 64)
  | .xPair n => writeXPair r n (data.truncate 64) (data.extractLsb' 64 64)
  | .v n => writeV r n (match finish with
    | .lanes active base => laneValue active base data
    | _ => data)
  | .la =>
    let r := { r with la := data.truncate 384, laCarry := data.extractLsb' 384 80 }
    if data.getLsbD 464 then { r with status := statusLaOvf r.status } else r

/-- A load of resolved items: short class where every byte is in the own store, long class elsewhere (R155). -/
def State.load (s : State) (f : Fields) (z : Nat) (gather : Bool) (o : LongOp) (ts : List (Nat × Target)) : State :=
  let tag := (s.launchOf s.myTile).tag
  let qs := mergeRequests gather (ts.flatMap fun p => s.itemRequests s.myTile tag z o.acquire.isSome (!gather) p.1 p.2)
  if o.acquire.isNone && ts.all fun p => p.2.isOwn s.myTile then
    match requestBad qs with
    | some (kind, addr) => s.freeze s.cur kind addr
    | none => s.retire (writeResult s.me o.dest o.finish (requestData qs)) f
  else s.startLoad s.me f o ts qs

/-- The bytes of a scalar format. -/
def accessBytes (f : Fields) : Nat := fmtWidth f.fmt.toNat / 8

/-- The lines of an L1 that hold bytes of an access of `z` bytes, when it is cached. -/
def Target.isLine (t : Target) (tag z : Nat) (l : L1Line) : Bool :=
  t.cached && l.tag == t.lineTag tag && (l.line == t.va / 128 || l.line == (t.va + z - 1) % 2 ^ 49 / 128)

/-- The lines of the tile at hand that a test admits are written back, charged to the strand at hand; a dirty byte among them that is uncorrectable
freezes it, and the instruction goes no further (R353, R358). -/
def State.cleaning (s : State) (p : L1Line → Bool) (k : State → State) : State :=
  let t := s.l1Clean s.myTile s.cur p
  if (s.tile s.myTile).l1.any fun l => p l && l.dirty &&& l.bad != 0 then t else k t

def execLd (f : Fields) (s : State) : Host.Outcome State Fault Refusal :=
  issueMem (.ld f) s fun r =>
    let op := memOperand r f (readX r f.b.toNat)
    if s.loadHeld r op.handle [op.addr] false then s
    else s.accessing r op.handle [(0, op.addr)] (accessBytes f) (accessBytes f) .load fun s ts =>
      s.load f (accessBytes f) true { id := 0, dest := destX f, finish := .scalar f.fmt.toNat } ts

/-- R161: the line's dirty bytes go first; the bytes read leave the L1 at completion. -/
def execLdAcq (f : Fields) (s : State) : Host.Outcome State Fault Refusal :=
  issueMem (.ldAcq f) s fun r =>
    let op := memOperand r f (readX r f.b.toNat)
    let z := accessBytes f
    if s.loadHeld r op.handle [op.addr] true then s
    else s.accessing r op.handle [(0, op.addr)] z z .load fun s ts =>
      let tag := (s.launchOf s.myTile).tag
      let cached := ts.filter fun p => p.2.cached
      s.cleaning (fun l => cached.any fun p => p.2.isLine tag z l) fun s =>
        s.load f z true { id := 0, dest := destX f, finish := .scalar f.fmt.toNat, acquire := some f.rm.toNat,
                          drop := cached.head?.map fun p => (p.2.lineTag tag, p.2.va, z) } ts

/-- R83: what the inactive lanes of a vector load receive. -/
def laneBase (r : Strand) (f : Fields) : VReg := if f.zm then 0 else readV r f.d.toNat

/-- The addresses of lanes from a base: the sums wrap as R87 and R159 give. -/
def laneAddr (f : Fields) (base : Nat) (off : Int) : Nat :=
  (((base : Int) + off) % ((2 ^ (if f.h then 48 else 32) : Nat) : Int)).toNat

def execVLd (f : Fields) (s : State) : Host.Outcome State Fault Refusal :=
  issueMem (.vLd f) s fun r =>
    let op := memOperand r f (readX r f.b.toNat)
    let m := laneMask r f
    let items := (activeLanes m).map fun j => (4 * j, laneAddr f op.addr (4 * j : Nat))
    if s.loadHeld r op.handle (items.map fun p => p.2) false then s
    else s.accessing r op.handle items 4 4 .load fun s ts =>
      s.load f 4 false { id := 0, dest := .v f.d.toNat, finish := .lanes m (laneBase r f) } ts

/-- R159: the addresses that a vector of offsets gives; there is no x[B] term. -/
def gatherItems (r : Strand) (f : Fields) (lanes : List Nat) : List (Nat × Nat) :=
  let op := memOperand r f 0
  let offs := readV r f.b.toNat
  lanes.map fun j => (4 * j, laneAddr f op.addr (readInt true 32 (elemAt 32 offs j)))

def execVGat (f : Fields) (s : State) : Host.Outcome State Fault Refusal :=
  issueMem (.vGat f) s fun r =>
    let m := laneMask r f
    let items := gatherItems r f (activeLanes m)
    let h := (memOperand r f 0).handle
    if s.loadHeld r h (items.map fun p => p.2) false then s
    else s.accessing r h items 4 4 .load fun s ts =>
      s.load f 4 true { id := 0, dest := .v f.d.toNat, finish := .lanes m (laneBase r f) } ts

/-! Stores. -/

/-- A write of the own store; a write of a whole word replaces an uncorrectable one. -/
def State.writeLocal (s : State) (tile off : Nat) (bytes : List Byte) : State :=
  { s.setTile tile { s.tile tile with store := writeBytes (s.tile tile).store off bytes } with
    badWords := clearBad s.badWords (localPa tile off) bytes.length }

/-- One store of a strand (R157, R163, R164): performed at once in the own tile, in the L1 through a cacheable handle, line by line, posted elsewhere as
one event (R242). `kind` is the race ring's (R256). -/
def State.storeAt (s : State) (kind : Nat) (t : Target) (shown : Nat) (bytes : List Byte) : State :=
  let tile := s.myTile
  let tag := (s.launchOf tile).tag
  match t with
  | .store p o => if p = tile then s.writeLocal tile o bytes
    else s.post (t.msg s.cur tag (.write 0 0 [])) (BitVec.ofNat 64 shown) false fun p => .write p kind bytes
  | t =>
    if t.cached then (s.pieces tile tag bytes.length t).foldl (fun s p => s.l1Store tile s.mySlot tag p.2.2 ((bytes.drop p.1).take p.2.1)) s
    else s.post (s.msgTo s.cur tag bytes.length t (.write 0 0 [])) (BitVec.ofNat 64 shown) false fun n => .write n kind bytes

def wordBytes (v : Nat) : List Byte := natToBytes 4 v

def execSt (f : Fields) (s : State) : Host.Outcome State Fault Refusal :=
  issueMem (.st f) s fun r =>
    let op := memOperand r f (readX r f.b.toNat)
    let z := accessBytes f
    s.accessing r op.handle [(0, op.addr)] z z .store fun s ts =>
      ts.foldl (fun s p => s.storeAt 0 p.2 op.addr (natToBytes z (readX r f.d.toNat).toNat)) (s.retire s.me f)

/-- A lane of a `v.st` in the parts that lie in one line each (R242); at a local store, or in the L1, as it is: target, address and bytes. -/
def State.storeParts (s : State) (e : Target × Nat × List Byte) : List (Target × Nat × List Byte) :=
  match e.1 with
  | .store _ _ => [e]
  | t =>
    if t.cached then [e]
    else (s.pieces s.myTile (s.launchOf s.myTile).tag e.2.2.length t).map fun p => (p.2.2, e.2.1, (e.2.2.drop p.1).take p.2.1)

/-- Lanes of a `v.st` that are one event (R242), merged: target, address and bytes. -/
def mergeStores : List (Target × Nat × List Byte) → List (Target × Nat × List Byte)
  | [] => []
  | (t, a, bs) :: rest =>
    match mergeStores rest with
    | (u, b, cs) :: more => if t.joins u && !t.cached then (t, a, bs ++ cs) :: more else (t, a, bs) :: (u, b, cs) :: more
    | [] => [(t, a, bs)]

/-- A vector store: pending registers, an acquire, and the port of D first (R119, R161, R178); then the lanes (R155). -/
def vecStore (i : Instr) (f : Fields) (s : State) (kind : Nat) (merge : Bool) (h : Option (Except Word Nat)) (items : List (Nat × Nat)) :
    Host.Outcome State Fault Refusal :=
  vecIssue i s (acquireHeld s.me) none [f.d.toNat] none fun _ vs r1 =>
    s.accessing s.me h items 4 4 .store fun s ts =>
      let es := ts.zip items |>.map fun p => (p.1.2, p.2.2, wordBytes (elemAt 32 (src vs 0) (p.1.1 / 4)))
      (if merge then mergeStores (es.flatMap s.storeParts) else es).foldl (fun s e => s.storeAt kind e.1 e.2.1 e.2.2) (s.retire { s.me with ports := r1.ports } f)

def execVSt (f : Fields) (s : State) : Host.Outcome State Fault Refusal :=
  let op := memOperand s.me f (readX s.me f.b.toNat)
  vecStore (.vSt f) f s 1 true op.handle ((List.range 64).map fun j => (4 * j, laneAddr f op.addr (4 * j : Nat)))
/-- R159: a port as the value D is admitted and popped, as for `v.st` (log 27). -/
def execVSct (f : Fields) (s : State) : Host.Outcome State Fault Refusal :=
  vecStore (.vSct f) f s 2 false (memOperand s.me f 0).handle (gatherItems s.me f (List.range 64))

/-! Waiting for acknowledgments (R162, R163, R202). -/

/-- What a release or fence waits for, and which rejections it reports: the scopes of the loads and of the posted messages it covers,
whether task messages count, and the line writebacks of the tile that it waits for whatever their home. -/
structure Wait where
  loads   : Nat → Bool
  stores  : Nat → Bool
  tasks   : Bool
  lines   : Posted → Bool
  reports : Posted → Bool

/-- Whether every access that the strand at hand waits for has completed. -/
def State.drained (s : State) (w : Wait) : Bool :=
  !(s.me.longs.any fun o => w.loads o.cover) && !(s.me.posted.any fun p => !p.rejected && !p.old && w.stores p.cover && (w.tasks || !p.task)) &&
    (strandsOf s.myTile).all fun i => (s.strand i).posted.all fun p => !p.wb || p.rejected || decide (s.me.fenceAt ≤ p.id) || !w.lines p

/-- R163: the address of the earliest rejection reported. -/
def Strand.rejection (r : Strand) (reports : Posted → Bool) : Option Word :=
  (r.posted.find? fun p => p.rejected && reports p).map fun p => p.addr

/-- R163: once one is reported, the others that the instruction waited for are not reported. -/
def Strand.dropRejected (r : Strand) (reports : Posted → Bool) : Strand :=
  { r with posted := r.posted.filter fun p => !(p.rejected && reports p) }

/-- A wait for covered accesses (R162, R202): `clean` writes the L1's lines back once; the strand is held until all covered
accesses and those writebacks are complete; a covered rejection is the deferred-store fault; then `k`. -/
def State.draining (s : State) (scope : Nat) (w : Wait) (clean : L1Line → Bool) (k : State → State) : State :=
  let go (s : State) : State :=
    if !s.drained w then s
    else match s.me.rejection w.reports with
    | some a => (s.setMe (s.me.dropRejected w.reports)).takeTrap 10 0 a
    | none => k s
  if s.me.fence.isSome then go s else s.cleaning clean fun s => go (s.setMe { s.me with fence := some scope, fenceAt := s.fresh })

/-- The lines that a release's own store of `z` bytes names through a cacheable handle (R162), by tag and line number. -/
def State.releaseLines (s : State) (h : Option (Except Word Nat)) (addr z : Nat) : List (Nat × Nat) :=
  match h with
  | some (.ok index) =>
    let e := s.entryOf s.myTile index
    if entryValid e && entryCached e then
      (s.entryLineTag s.myTile e).toList.flatMap fun tag => [(tag, entryVa e addr / 128), (tag, entryVa e (addr + z - 1) / 128)]
    else []
  | _ => []

/-- R162: the value enters the L1's valid bytes, which become clean. -/
def L1Line.refresh (l : L1Line) (i : Nat) (bytes : List Byte) : L1Line :=
  { l with data := putBytes l.data i (bytes.zipIdx.map fun p => if l.valid.getLsbD (i + p.2) then p.1 else byteOf l.data (i + p.2))
           dirty := l.dirty &&& ~~~ byteMask i bytes.length }

/-- R162: what a release waits for: loads and atomics of any home; stores, those through the fabric with scope 4 only (the choice between item 2 and
item 4 of R162 is log 29); with scope 1 to 4 every writeback of the tile, else those of its own lines. -/
def releaseWait (scope : Nat) (own : List (Nat × Nat)) : Wait :=
  let stores (c : Nat) : Bool := decide (c ≤ 3) || (c == 4 && scope == 4)
  let lines (p : Posted) : Bool := decide (1 ≤ scope) || own.any fun o => o.2 == p.addr.toNat / 128
  { loads := fun c => decide (c ≤ 4), stores := stores, tasks := false, lines := lines,
    reports := fun p => stores p.cover || (p.wb && lines p) }

/-- R163, R202: what a fence waits for: what its scope covers, and at scopes `clu` to `sys` every writeback of the tile. -/
def fenceWait (scope : Nat) : Wait :=
  let covers (c : Nat) : Bool := decide (c ≤ scope)
  { loads := covers, stores := covers, tasks := true, lines := fun _ => decide (1 ≤ scope), reports := fun p => covers p.cover }

/-- R358: uncorrectable data that a conditional store reads in the own tile. -/
def Target.ownBad (t : Target) (s : State) (tile z : Nat) : Option Nat :=
  match t with
  | .store q o => if q = tile then badIn s.badWords (localPa tile o) z else none
  | _ => none

/-- R162: a release: its wait, then the checks, then the store. -/
def release (i : Instr) (f : Fields) (s : State) (cmp : Bool) : Host.Outcome State Fault Refusal :=
  issueMem i s fun r =>
    let op := memOperand r f (readX r f.b.toNat)
    let z := accessBytes f
    let scope := f.rm.toNat
    let own := s.releaseLines op.handle op.addr z
    let bytes := natToBytes z (readX r f.d.toNat).toNat
    let want := natToBytes z (readX r f.c.toNat).toNat
    s.draining scope (releaseWait scope own)
      (fun l => decide (1 ≤ scope) || own.contains (l.tag, l.line)) fun s =>
      s.accessing s.me op.handle [(0, op.addr)] z z .store fun s ts =>
        let tile := s.myTile
        let tag := (s.launchOf tile).tag
        s.unlessBad (if cmp then ts.findSome? fun p => p.2.ownBad s tile z else none) <|
        let s := ts.foldl (fun s p =>
          let t := p.2
          let s := if t.cached then (s.pieces tile tag z t).foldl (fun s p =>
              let i := p.2.2.va % 128
              s.setTile tile (l1On (s.tile tile) (t.lineTag tag) (p.2.2.va / 128) fun l =>
                if cmp then ({ l with valid := l.valid &&& ~~~ byteMask i p.2.1, dirty := l.dirty &&& ~~~ byteMask i p.2.1 } : L1Line).norm
                else some (l.refresh i ((bytes.drop p.1).take p.2.1)))) s else s
          match t with
          | .store q o =>
            if q = tile then (if cmp && readBytes (s.tile tile).store o z != want then s else s.writeLocal tile o bytes)
            else s.post (t.msg s.cur tag (.write 0 0 [])) (BitVec.ofNat 64 op.addr) false
              fun p => if cmp then .writeCmp p bytes want else .write p 3 bytes
          | t => s.post (s.msgTo s.cur tag z t (.write 0 0 [])) (BitVec.ofNat 64 op.addr) false
              fun p => if cmp then .writeCmp p bytes want else .write p 3 bytes) s
        s.retire { s.me with fence := none } f

def execStRel (f : Fields) (s : State) : Host.Outcome State Fault Refusal := release (.stRel f) f s false
def execStRelCmp (f : Fields) (s : State) : Host.Outcome State Fault Refusal := release (.stRelCmp f) f s true

/-! Fences (R202). -/

/-- R202: at scopes `clu` to `sys` the clean bytes leave the L1 when the fence completes. -/
def fenceOp (i : Instr) (scope : Nat) (f : Fields) (s : State) : Host.Outcome State Fault Refusal :=
  issue i s fun _ =>
    s.draining scope (fenceWait scope) (fun _ => decide (1 ≤ scope)) fun s =>
      let s := if scope = 0 then s else s.setTile s.myTile (s.tile s.myTile).dropClean
      s.retire { s.me with fence := none } f

def execFenceTile (f : Fields) (s : State) : Host.Outcome State Fault Refusal := fenceOp (.fenceTile f) 0 f s
def execFenceClu (f : Fields) (s : State) : Host.Outcome State Fault Refusal := fenceOp (.fenceClu f) 1 f s
def execFenceDie (f : Fields) (s : State) : Host.Outcome State Fault Refusal := fenceOp (.fenceDie f) 2 f s
def execFenceDev (f : Fields) (s : State) : Host.Outcome State Fault Refusal := fenceOp (.fenceDev f) 3 f s
def execFenceSys (f : Fields) (s : State) : Host.Outcome State Fault Refusal := fenceOp (.fenceSys f) 4 f s

/-! Atomics (R167 to R170). -/

/-- The value an atomic stores and its flags; `sub` 9 is `at.cas2`, on 128-bit numbers. -/
def atomicNew (sub fmt old b c : Nat) : Nat × Flags :=
  let w := fmtWidth fmt
  if sub = 8 then
    let F := ffmt fmt false
    deliver F 0 false 0 (addVal 0 (readFloat F old) (readFloat F b))
  else if sub = 9 then (if old = b then c else old, 0)
  else
    let b := b % 2 ^ w
    (if sub = 0 then (old + b) % 2 ^ w
      else if sub = 1 then old &&& b
      else if sub = 2 then old ||| b
      else if sub = 3 then old ^^^ b
      else if sub = 4 then (if readFmtInt fmt old < readFmtInt fmt b then old else b)
      else if sub = 5 then (if readFmtInt fmt old < readFmtInt fmt b then b else old)
      else if sub = 6 then b
      else if old = b then c % 2 ^ w else old, 0)

/-- R167: an atomic with operands `b` and `c` leaves: performed at issue in the own tile, else a message to its home. -/
def State.sendAtomic (s : State) (f : Fields) (sub z : Nat) (o : LongOp) (t : Target) (b c : Nat) : State :=
  let tile := s.myTile
  let tag := (s.launchOf tile).tag
  let o := { o with cover := coverOf tile (s.localize (s.msgTo s.cur tag z t (.atomic 0 0 0 0 0))).home }
  let remote := (s.startLong s.me f { o with waiting := 1 }).request (s.msgTo s.cur tag z t (.atomic s.fresh sub f.fmt.toNat b c))
  match t with
  | .store p off =>
    if p = tile then
      match badIn s.badWords (localPa tile off) z with
      | some kind => s.freeze s.cur kind 0
      | none =>
        let old := readNat (s.tile tile).store off z
        let (v, fl) := atomicNew sub f.fmt.toNat old b c
        (s.writeLocal tile off (natToBytes z v)).startLong s.me f { o with data := BitVec.ofNat 2048 old, flags := fl }
    else remote
  | _ => remote

/-- An atomic: held under R21, R23 and R161; the line that holds its bytes is written back and leaves the L1 first (R166). -/
def atomicOp (i : Instr) (f : Fields) (s : State) (sub z : Nat) (dest : Dest) (fin : Finish) (b c : Strand → Nat) :
    Host.Outcome State Fault Refusal :=
  issueMem i s fun r =>
    let op := memOperand r f 0
    if !longRoom r true then s
    else s.accessing r op.handle [(0, op.addr)] z z .atomic fun s ts =>
      match ts with
      | (_, t) :: _ =>
        let go (s : State) : State := s.sendAtomic f sub z { id := 0, dest := dest, remote := true, atomic := true, finish := fin } t (b r) (c r)
        if t.cached then
          let hit := t.isLine (s.launchOf s.myTile).tag z
          s.cleaning hit fun s => go (s.setTile s.myTile { s.tile s.myTile with l1 := (s.tile s.myTile).l1.filter fun l => !hit l })
        else go s
      | [] => s

/-- R168, R169: an atomic of the `at` family. -/
def atomicX (i : Instr) (sub : Nat) (f : Fields) (s : State) : Host.Outcome State Fault Refusal :=
  atomicOp i f s sub (accessBytes f) (destX f) (.scalar f.fmt.toNat) (fun r => (readX r f.b.toNat).toNat) fun r => (readX r f.c.toNat).toNat

def execAtAdd (f : Fields) (s : State) : Host.Outcome State Fault Refusal := atomicX (.atAdd f) 0 f s
def execAtAnd (f : Fields) (s : State) : Host.Outcome State Fault Refusal := atomicX (.atAnd f) 1 f s
def execAtOr (f : Fields) (s : State) : Host.Outcome State Fault Refusal := atomicX (.atOr f) 2 f s
def execAtXor (f : Fields) (s : State) : Host.Outcome State Fault Refusal := atomicX (.atXor f) 3 f s
def execAtMin (f : Fields) (s : State) : Host.Outcome State Fault Refusal := atomicX (.atMin f) 4 f s
def execAtMax (f : Fields) (s : State) : Host.Outcome State Fault Refusal := atomicX (.atMax f) 5 f s
def execAtSwp (f : Fields) (s : State) : Host.Outcome State Fault Refusal := atomicX (.atSwp f) 6 f s
def execAtCas (f : Fields) (s : State) : Host.Outcome State Fault Refusal := atomicX (.atCas f) 7 f s
def execAtFadd (f : Fields) (s : State) : Host.Outcome State Fault Refusal := atomicX (.atFadd f) 8 f s

/-- The pair of registers n and n + 1 as one number. -/
def readPair (r : Strand) (n : Nat) : Nat := (readX r n).toNat + 2 ^ 64 * (readX r (n + 1)).toNat

def execAtCas2 (f : Fields) (s : State) : Host.Outcome State Fault Refusal :=
  atomicOp (.atCas2 f) f s 9 16 (if f.d = 0 then .none else .xPair f.d.toNat) .pair (fun r => readPair r f.b.toNat) fun r => readPair r f.c.toNat

/-! L1 maintenance (R165). -/

/-- A line form: validity, and the addressed byte within the length; nothing where the line is absent or not cacheable. -/
def lineOp (i : Instr) (f : Fields) (s : State) (wb drop : Bool) : Host.Outcome State Fault Refusal :=
  issueMem i s fun r =>
    let op := memOperand r f (readX r f.b.toNat)
    match op.handle with
    | some (.ok index) =>
      let s1 := s.useHandle s.myTile index
      let e := s.entryOf s.myTile index
      s.unlessLost (s.entryLost s.myTile index) <|
      if !entryValid e || decide (entryLen e < op.addr + 1) then s1.takeTrap 6 0 (BitVec.ofNat 64 op.addr)
      else
        let tile := s1.myTile
        let line := entryVa e op.addr / 128
        let hit (l : L1Line) : Bool := entryCached e && some l.tag == s1.entryLineTag tile e && l.line == line
        let go (s : State) : State :=
          let s := if drop then s.setTile tile { s.tile tile with l1 := (s.tile tile).l1.filter fun l => !hit l } else s
          s.retire s.me f
        if wb then s1.cleaning hit go else go s1
    | some (.error v) => s.takeTrap 6 0 v
    | none => s.retire r f

/-- The same for every line of the tile's L1. -/
def allLinesOp (i : Instr) (f : Fields) (s : State) (wb drop : Bool) : Host.Outcome State Fault Refusal :=
  issueMem i s fun _ =>
    let tile := s.myTile
    let go (s : State) : State :=
      let s := if drop then s.setTile tile { s.tile tile with l1 := [] } else s
      s.retire s.me f
    if wb then s.cleaning (fun _ => true) go else go s

def execL1Wb (f : Fields) (s : State) : Host.Outcome State Fault Refusal := lineOp (.l1Wb f) f s true false
def execL1Inv (f : Fields) (s : State) : Host.Outcome State Fault Refusal := lineOp (.l1Inv f) f s false true
def execL1Wbi (f : Fields) (s : State) : Host.Outcome State Fault Refusal := lineOp (.l1Wbi f) f s true true
def execL1Wba (f : Fields) (s : State) : Host.Outcome State Fault Refusal := allLinesOp (.l1Wba f) f s true false
def execL1Inva (f : Fields) (s : State) : Host.Outcome State Fault Refusal := allLinesOp (.l1Inva f) f s false true
def execL1Wbia (f : Fields) (s : State) : Host.Outcome State Fault Refusal := allLinesOp (.l1Wbia f) f s true true

/-! Timeline counters (R181 to R183). -/

def execTlRd (t : Counter) (f : Fields) (s : State) : Host.Outcome State Fault Refusal :=
  shortOp (.tlRd t f) f s fun r => writeX r f.d.toNat (BitVec.ofNat 64 (r.timeline t).last)

/-- R182: held while a number up to n is pending; the lowest failed, unreported one is a copy fault; else the writes are acquired. -/
def execTlWait (t : Counter) (f : Fields) (s : State) : Host.Outcome State Fault Refusal :=
  issue (.tlWait t f) s fun r =>
    let tl := r.timeline t
    let n := Nat.min (readX r f.a.toNat).toNat tl.last
    if tl.recs.any fun x => x.state == 1 && decide (x.num ≤ n) then s
    else match tl.recs.find? fun x => x.state == 3 && !x.rep && decide (x.num ≤ n) with
    | some x =>
      (s.setMe (r.setTimeline t (tl.on x.num fun y => { y with rep := true }))).takeTrap 9 x.num x.addr
    | none =>
      let s := if t = .tlm then s else s.setTile s.myTile (s.tile s.myTile).dropClean
      s.retire r f

/-- R183: the record's word. -/
def recordWord (x : TlRec) : Word :=
  BitVec.ofNat 64 (x.state % 4 + (if x.rep then 4 else 0) + (if x.far then 8 else 0) + (if x.fmode then 16 else 0) + x.flags.toNat * 256)

def execTlTest (t : Counter) (f : Fields) (s : State) : Host.Outcome State Fault Refusal :=
  shortOp (.tlTest t f) f s fun r => writeX r f.d.toNat (recordWord ((r.timeline t).record (readX r f.a.toNat).toNat))

end Sys2Proof.Machine
end

