-- ==== Sys2Proof/Machine/Engine.lean ====
section
/-! DEFINITION. Reads and writes at a home (R240 to R242), the dirty-page log (R329), the race ring (R255), and how engines
translate and fail (R310, R311, R353). -/

namespace Sys2Proof.Machine

/-! Bytes at a home. -/

/-- Whether a home is a remote device. -/
def Home.isFabric : Home → Bool
  | .fabric _ => true
  | _ => false

/-- The key of a remote device's byte (log 13): the device, and the context and virtual address there. -/
def remoteKey (dev addr : Nat) : Nat := dev * 2 ^ 64 + addr

/-- Bytes at a home. -/
def State.homeRead (s : State) (h : Home) (addr n : Nat) : List Byte :=
  match h with
  | .tile t => readBytes (s.tile t).store addr n
  | .channel _ => readBytes s.mem addr n
  | .fabric d => readBytes s.remote (remoteKey d addr) n
  | .hoist _ => []

/-- A write at a home. -/
def State.homeWrite (s : State) (h : Home) (addr : Nat) (bytes : List Byte) : State :=
  match h with
  | .tile t => s.writeLocal t addr bytes
  | .channel _ => s.putDevice addr bytes
  | .fabric d => { s with remote := writeBytes s.remote (remoteKey d addr) bytes }
  | .hoist _ => s

/-- Uncorrectable data at a home (R358): its violation kind, and the address of the first byte of it; 0 where the data is not in device memory (R354). -/
def State.homeBadAt (s : State) (h : Home) (addr n : Nat) : Option (Nat × Nat) :=
  match h with
  | .tile t => (badFrom s.badWords (localPa t addr) n).map fun b => (b.1, 0)
  | .channel _ => badFrom s.badWords addr n
  | _ => none

/-! Accesses whose bytes go on elsewhere: one event at each home (R242, R308). -/

/-- The bytes that parts hold. -/
def State.partsRead (s : State) (ps : List (Spot × Nat × Nat)) : List Byte := ps.flatMap fun p => s.homeRead p.1.home p.1.addr p.2.2

/-- R358: uncorrectable data in parts. -/
def State.partsBad (s : State) (ps : List (Spot × Nat × Nat)) : Option (Nat × Nat) := ps.findSome? fun p => s.homeBadAt p.1.home p.1.addr p.2.2

/-- R329: a write to a logged page that D does not mark sets D in its leaf, then takes a log entry; the write that finds the log full sets OVF
and posts CODE 8; while OVF is set every logged write marks the bitmap. -/
def State.logWrite (s : State) (tag va : Nat) (leaf : Option Nat) : State :=
  match leaf with
  | none => s
  | some at_ =>
    let e := readNat s.mem at_ 8
    let vf := tag / 8
    let log := (s.vf vf).log.toNat
    if natBits e 5 5 = 1 ∨ log = 0 ∨ ((s.lostAt at_ 8).orElse fun _ => s.lostAt log 16).isSome then s
    else
      let s := s.writeDevice at_ (natToBytes 8 (e + 32))
      let count := readNat s.mem log 8
      let full := decide (65536 ≤ count)
      let s := if full then s.writeDevice (log + 8) [readByte s.mem (log + 8) ||| 1]
        else (s.writeDevice (log + 64 + 8 * count) (natToBytes 8 (tag % 8 * 2 ^ 49 + va / 65536 * 65536))).writeDevice log (natToBytes 8 (count + 1))
      let s := if full && !(s.vf vf).logFull then s.event vf 8 (BitVec.ofNat 64 count) 0 else s
      let s := s.setVf vf { s.vf vf with logFull := full }
      if (readByte s.mem (log + 8)).getLsbD 0 then
        let bit := va / 2 ^ 21
        let a := log + 524352 + bit / 8
        s.writeDevice a [readByte s.mem a ||| BitVec.ofNat 8 (2 ^ (bit % 8))]
      else s

/-- A write by a context: each part is logged in the dirty-page log, then performed. -/
def State.partsWrite (s : State) (tag : Nat) (ps : List (Spot × Nat × Nat)) (bytes : List Byte) : State :=
  ps.foldl (fun s p => (s.logWrite tag p.1.va p.1.leaf).homeWrite p.1.home p.1.addr ((bytes.drop p.2.1).take p.2.2)) s

/-- R256: an entry of a tile's race ring. -/
def raceEntry (seq dt kind size src off : Nat) : Nat :=
  seq % 2 ^ 32 * 2 ^ 96 + dt % 2 ^ 32 * 2 ^ 64 + kind * 2 ^ 61 + size * 2 ^ 57 + src % 8 * 2 ^ 54 + src / 8 % 1024 * 2 ^ 44 + off % 2 ^ 20

/-- R255: a write event that arrives at a tile from another tile is logged where the field has a ring. -/
def State.raceLog (s : State) (tile src kind bytes off : Nat) : State :=
  let t := s.tile tile
  if !t.race || src / 8 == tile then s
  else
    let item := raceEntry t.raceSeq.toNat s.dt.toNat kind (Nat.log2 bytes) src off
    s.setTile tile { t with store := writeNat t.store (t.ringBase + 16 * (t.raceSeq.toNat % 256)) 16 item, raceSeq := t.raceSeq + 1 }

/-! The order of a home's service (R218, R222, R241, R247). -/

/-- R218, R241: what comes to a tile in a cycle comes after the slot of its own strand. -/
def State.slotPassed (s : State) (tile : Nat) : Bool :=
  decide (tile < s.cursor) || (s.strand (tile * 8 + s.cycle % 8)).run == .free

def State.homePassed (s : State) : Home → Bool
  | .tile t => s.slotPassed t
  | _ => true

/-- How many bytes a request may touch at its home. -/
def Msg.bytes (m : Msg) : Nat :=
  match m.body with
  | .write _ _ bs => bs.length
  | .writeCmp _ bs _ => bs.length
  | .writeback _ _ _ | .fill _ _ _ _ => 128
  | .atomic _ _ _ _ _ => 16
  | .read _ _ size _ _ => size
  | _ => 0

def Body.isFill : Body → Bool
  | .fill _ _ _ _ => true
  | _ => false

/-- Whether a request carries bytes of a line between its tile's L1 and their home, or goes through a cacheable handle (R164, R166). -/
def Msg.onLine (m : Msg) : Bool := m.line || m.body.isFill || m.body.isWriteback

/-- Whether two requests touch a byte of one home. -/
def Msg.meets (m n : Msg) : Bool :=
  (m.parts m.bytes).any fun p => (n.parts n.bytes).any fun q =>
    p.1.home == q.1.home && decide (q.1.addr < p.1.addr + p.2.2) && decide (p.1.addr < q.1.addr + q.2.2)

/-- R160, R246, R247: what goes to a line through a tile's L1 comes after what the tile has sent there through it before, whichever of its strands is
charged; and a line fill after every write that its tile has sent to the line before it (log 28). -/
def Msg.lineAfter (m n : Msg) : Bool :=
  m.onLine && n.src / 8 == m.src / 8 && decide (n.id < m.id) && n.body.rights.2 && (n.onLine || m.body.isFill) && m.meets n
def State.lineHeld (s : State) (m : Msg) : Bool := s.net.any m.lineAfter

/-- R222, R341: whether two sources contend at a home: at a memory channel those of one tenant; at another device messages go in their order. -/
def State.contends (s : State) (h : Home) (a b : Nat) : Bool :=
  match h with
  | .fabric _ => false
  | .channel _ => (s.launchOf (a / 8)).vf == (s.launchOf (b / 8)).vf
  | _ => true

/-- The requests that a home of memory serves. -/
def Body.isAccess : Body → Bool
  | .read _ _ _ _ _ | .fill _ _ _ _ | .write _ _ _ | .writeback _ _ _ | .writeCmp _ _ _ | .atomic _ _ _ _ _ => true
  | _ => false

/-- The requests of strands that a home serves in their order: accesses, and task messages at a hoist (R279). -/
def Body.isRequest : Body → Bool
  | .push _ _ _ _ | .taskEnd _ _ | .gain _ _ _ _ _ _ _ _ | .depDec _ _ _ => true
  | b => b.isAccess

/-- R222: whether a request has arrived at its home and is the earliest of its source there; those of `late` are still on their way. -/
def State.waitsAt (s : State) (h : Home) (late : List Nat) (n : Msg) : Bool :=
  n.homes.contains h && n.body.isRequest && s.firstOf n && (!n.passed.isEmpty || !late.contains n.id)

/-- R284: the end of a task whose thief has not acknowledged it: its home cannot serve it yet. -/
def State.endHeld (s : State) (m : Msg) : Bool :=
  match m.home, m.body with
  | .hoist c, .taskEnd _ i => (mapGet {} (s.cluster c).tasks i).state == .lent
  | _, _ => false

/-- R222: no other source's request has waited at the home since it last served this source, but one that the home cannot serve yet. -/
def State.fairTo (s : State) (h : Home) (src : Nat) : Bool :=
  s.net.all fun n => !n.homes.contains h || !n.passed.contains src || s.lineHeld n || s.endHeld n || !s.contends h src n.src

/-- R222: the requests of other sources that wait at a home have seen it serve one source. -/
def State.markPassed (s : State) (h : Home) (src : Nat) (late : List Nat) : State :=
  { s with net := s.net.map fun n =>
      if n.src != src && s.waitsAt h late n && !n.passed.contains src then { n with passed := n.passed ++ [src] } else n }

/-- R341: whether a message is one of a VF to a home. -/
def State.pairOf (s : State) (vf : Nat) (h : Home) (n : Msg) : Bool := n.home == h && (s.launchOf (n.src / 8)).vf == vf

/-- R341: whether messages of a pair are on the link. -/
def State.pairBusy (s : State) (vf : Nat) (h : Home) : Bool := s.net.any fun n => s.pairOf vf h n && s.sentOut n.id

/-- R254, R339, R341: the port that a message to another device enters now: those of its source to that device, and those that it must follow, have entered
one, and no other port still carries messages of its pair. In which order the messages of different strands enter is left to the agenda. -/
def State.entersPort (s : State) (m : Msg) : Option Nat :=
  match m.home with
  | .fabric d =>
    let vf := (s.launchOf (m.src / 8)).vf
    if d < 65536 ∧ s.sentOut m.id = false then
      (s.portFor vf d).filter fun p =>
        (s.net.all fun n => s.sentOut n.id || !((n.src == m.src && n.home == m.home && decide (n.id < m.id)) || m.lineAfter n)) &&
        s.links.all fun q => q.1 == p || q.2.out.all fun o => s.net.all fun n => n.id != o.2 || !s.pairOf vf m.home n
    else none
  | _ => none

/-- R339: no port is left for a message to another device. -/
def State.unsent (s : State) (m : Msg) : Bool :=
  match m.home with
  | .fabric d => !s.sentOut m.id && (decide (65536 ≤ d) || (s.portFor (s.launchOf (m.src / 8)).vf d).isNone)
  | _ => false

/-- R338, R339, R341: whether a message is the next of its pair that its device receives, and in the replay buffer of a port that carries flits; or is
refused. -/
def State.linkNext (s : State) (m : Msg) : Bool :=
  match m.home with
  | .fabric _ =>
    s.unsent m || s.links.any fun p => p.2.live && ((p.2.replay s.net).any fun o => o.2 == m.id) &&
      (p.2.out.find? fun o => s.net.any fun n => n.id == o.2 && s.pairOf (s.launchOf (m.src / 8)).vf m.home n).any fun o => o.2 == m.id
  | _ => true

/-- Whether the homes of a memory request may serve it now. -/
def State.mayServe (s : State) (m : Msg) : Bool :=
  m.body.isAccess && s.firstOf m && m.homes.all (fun h => s.homePassed h && s.fairTo h m.src) && !s.lineHeld m && s.linkNext m

/-- R338: a message that has been served is acknowledged to its port. -/
def State.linkServed (s : State) (m : Msg) : State :=
  { s with links := s.links.filterMap fun p =>
      let q := if p.2.out.any fun o => o.2 == m.id then { p.2 with out := p.2.out.filter fun o => o.2 != m.id, sendFails := 0 } else p.2
      if q = {} then none else some (p.1, q) }

/-! Walks and translation by engines (R310). -/

/-- A cache of sets and ways with an entry added; a full set loses its oldest (R16, log 7). -/
def tlbPut (sets ways : Nat) (es : List TlbEntry) (e : TlbEntry) : List TlbEntry :=
  let es := es.filter fun x => !(x.tag == e.tag && x.page == e.page && x.bits == e.bits)
  let set := es.filter fun x => x.page % sets == e.page % sets
  (if set.length < ways then es else match set with
    | x :: _ => es.erase x
    | [] => es) ++ [e]

/-- The tile's cache holds an entry afterwards. -/
def State.fillTile (s : State) (tile : Nat) (e : TlbEntry) : State :=
  s.setTile tile { s.tile tile with tlb := tlbPut Config.tileTlbSets Config.tileTlbWays (s.tile tile).tlb e }

/-- Both caches hold an entry afterwards. -/
def State.fillTlb (s : State) (tile : Nat) (e : TlbEntry) : State :=
  let s := s.fillTile tile e
  let c := s.cluster (clusterOf tile)
  s.setCluster (clusterOf tile) { c with tlb := tlbPut 1 Config.clusterTlb c.tlb e }

/-- What an engine's translation comes to; `freeze` gives the violation kind and the address; `wait` the walk that the element waits for. -/
inductive EngineTrans where
  | page (pa : Nat) (leaf : Option Nat) (bits : Nat)
  | fault
  | freeze (kind addr : Nat)
  | wait (w : Walk)
deriving DecidableEq, Repr

/-- R309, R310: what the end of a walk means for one that waits for it: none where it is another's. -/
def State.walkGives (s : State) (tag va : Nat) (pool : Bool) (w : Walk) : Option WalkEnd :=
  if !w.pending || w.tag != tag || w.pool != pool then none
  else match s.walk tag va pool with
  | .leaf e => if w.va / 2 ^ e.bits = e.page ∧ s.reaches (tag / 8) (e.pa + w.va % 2 ^ e.bits) pool then some (.leaf e) else none
  | x => if w.va / 65536 = va / 65536 then some x else none

/-- A walk that has ended, for an engine's element: none where the caches have its page. -/
def Walk.ended (w : Walk) : WalkEnd → Option Walk
  | .leaf _ => none
  | .fault => some { w with failed := true }
  | .violation => some { w with barred := some (1, w.va) }
  | .lost kind addr => some { w with barred := some (kind, addr) }

/-- R309, R310: the walk of a page ends, once for every strand and engine of the die that misses on it: both caches of its tile have the entry; a fault is
kept for the next presentation; an ownership violation, or an uncorrectable table entry, freezes the strand (R353), and the engine when it comes to its
element. -/
def State.endWalk (s : State) (tile tag va : Nat) (pool : Bool := false) : State :=
  ((s.strands.filter fun q => dieOf (q.1 / 8) == dieOf tile).map fun q => q.1).foldl (fun t i =>
    let r := s.strand i
    let t := match r.walks.findSome? (s.walkGives tag va pool) with
      | some (.leaf e) => t.fillTlb (i / 8) e
      | _ => t
    let t := if r.engineWalks.any fun w => (s.walkGives tag va pool w).isSome then
        t.setStrand i ((t.strand i).onEngineWalks fun w => match s.walkGives tag va pool w with
          | some x => w.ended x
          | none => some w)
      else t
    match r.walk, r.walk.bind (s.walkGives tag va pool) with
    | some _, some (.leaf _) => t.setStrand i { t.strand i with walk := none }
    | some w, some .fault => t.setStrand i { t.strand i with walk := some { w with failed := true } }
    | some w, some .violation => t.freeze i 1 w.va
    | _, some (.lost kind addr) => t.freeze i kind addr
    | _, _ => t) s

/-- R310: an engine's element is translated through the same caches; a miss takes the walk that is in flight for its page, or joins the queue of a walker.
`w` is the walk that the element waits for. -/
def State.engineTranslate (s : State) (tile tag va : Nat) (rd wr pool : Bool) (w : Option Walk) : State × EngineTrans :=
  let ends (s : State) (e : TlbEntry) : State × EngineTrans := match e.trans va rd wr with
    | .page pa leaf => (s, .page pa leaf e.bits)
    | _ => (s, .fault)
  match s.tlbHit (s.tile tile).tlb tag va pool with
  | some e => ends s e
  | none => match s.tlbHit (s.cluster (clusterOf tile)).tlb tag va pool with
    | some e => ends (s.fillTile tile e) e
    | none => match w.filter fun w => w.tag == tag && w.va == va && w.walker.isSome with
      | some w => (s, if w.failed then .fault else match w.barred with
          | some (kind, addr) => .freeze kind addr
          | none => .wait w)
      | none => ({ s with fresh := s.fresh + 1 }, .wait (s.newWalk tile tag va pool))

/-- What an engine's access of one part comes to. -/
inductive EngineAccess where
  /-- the context, the place, and where the bytes go on when they reach another page -/
  | ok (tag : Nat) (p : Spot) (cut : Option (Nat × Spot))
  /-- a translation fault, or a refusal, at a virtual address -/
  | fault (va : Nat)
  /-- the engine is frozen: violation kind, address, and the virtual address of the element -/
  | freeze (kind addr va : Nat)
  /-- the element waits for a walk (R310) -/
  | wait (w : Walk)
  /-- uncorrectable data in place of an answer (R339) -/
  | lost
deriving DecidableEq, Repr

/-- A place's virtual address in a context of a device that a target entry names (R240, R339, R340, R343): this device's own is at its local home. An entry
that may no longer be used gives a refusal (log 44). -/
def State.memberAccess (s : State) (vf : Nat) (m : Option Word) (va z : Nat) (rd wr : Bool) : EngineAccess :=
  match m with
  | none => .fault va
  | some m =>
    let p := memberPlace m
    let n := roomAt false va
    let spot (va : Nat) : Option Spot :=
      if placeDev p = s.linkId.toNat then s.localSpot (placeAddr p va) rd wr
      else some { home := .fabric (placeDev p), addr := placeAddr p va, va := va }
    if placeDev p ≠ s.linkId.toNat ∧ s.fabricUp vf = false then .lost
    else match spot va, (if z ≤ n then some none else (spot ((va + n) % 2 ^ 49)).map fun q => some (n, q)) with
    | some p, some cut => .ok (memberTag m) p cut
    | _, _ => if wr then .fault va else .lost

/-- A translated place in device memory. -/
def deviceSpot (pa va bits : Nat) (leaf : Option Nat) : Spot :=
  { home := .channel (pa / Config.channelBytes), addr := pa, va := va, leaf := leaf, page := bits }

/-- Where `z` bytes `shift` bytes into a place are, for an engine of a tile (R310, R339); BASE need not be aligned (R308), so they may reach a second
page, which is translated too. -/
def State.engineAccess (s : State) (tile tag : Nat) (p : Place) (shift : Int) (z : Nat) (rd wr : Bool) (w : Option Walk) : State × EngineAccess :=
  match p with
  | .slot _ => (s, .fault 0)
  | .store a =>
    let b := (((a : Int) + shift) % ((2 ^ 32 : Nat) : Int)).toNat
    let l := s.launchOf tile
    let t := if natBits b 31 30 = 1 then tileAt (l.ox + natBits b 24 20) (l.oy + natBits b 29 25) else tile
    (s, .ok tag { home := .tile t, addr := b % 2 ^ 20, va := b } none)
  | .handle _ e off =>
    let va := entryVa e (((off : Int) + shift) % ((2 ^ 48 : Nat) : Int)).toNat
    let n := roomAt false va
    let vb := (va + n) % 2 ^ 49
    if entrySpace e = 2 then (s, s.memberAccess (tag / 8) (fabricTarget (s.vf (tag / 8)) (entryTarget e)) va z rd wr)
    else
      let look (s : State) (va : Nat) (k : State → Spot → State × EngineAccess) : State × EngineAccess :=
        match s.engineTranslate tile tag va rd wr (entrySpace e == 1) w with
        | (s, .page pa leaf bits) => k s (deviceSpot pa va bits leaf)
        | (s, .fault) => (s, .fault va)
        | (s, .freeze kind addr) => (s, .freeze kind addr va)
        | (s, .wait w) => (s, .wait w)
      look s va fun s p =>
        if z ≤ n then (s, .ok tag p none) else look s vb fun s q => (s, .ok tag p (some (n, q)))

/-- Whether an earlier store or writeback of a strand is still on its way to a home (R178, R248). -/
def State.olderTo (s : State) (src stamp : Nat) (h : Home) : Bool :=
  s.net.any fun m => m.src == src && m.homes.contains h && decide (m.id < stamp)

/-- R222: whether a home does not serve an engine's access for a strand now: an earlier request of the strand has arrived there, or another source
waits. -/
def State.turnWaits (s : State) (who : Nat) (h : Home) : Bool :=
  !s.fairTo h who || s.net.any fun n => n.src == who && s.waitsAt h s.arg.late n

/-- Whether an engine's access for a strand of a VF waits at a home: at another tile that is saved (R323), until that tile's own slot has passed
(R241), behind messages of its pair on the link (R341), or for its turn (R222). At its own tile's store it waits for no turn (log 33). -/
def State.homeWaits (s : State) (who vf : Nat) (h : Home) : Bool :=
  match h with
  | .tile t => t != who / 8 && ((s.tile t).preempt.diverts || !s.slotPassed t || s.turnWaits who h)
  | .fabric _ => s.pairBusy vf h
  | _ => s.turnWaits who h

/-- R315: what an access by a VF leaves in the bank of a channel's memory-side cache: a line is allocated for the bank's owner alone, in place of the
oldest of a full bank (log 55). -/
def State.bankAccess (s : State) (vf : Nat) (h : Home) (addr : Nat) (wr : Bool) : State :=
  match h with
  | .channel c =>
    let ls := mapGet [] s.banks c
    if ls.any fun l => l.line == addr / 128 then
      { s with banks := mapPut [] s.banks c (ls.map fun l => if l.line = addr / 128 then { l with dirty := l.dirty || wr } else l) }
    else if (s.vf vf).banks.getLsbD c then
      { s with banks := mapPut [] s.banks c ((if ls.length < Config.bankLines then ls else ls.drop 1) ++ [⟨addr / 128, wr⟩]) }
    else s
  | _ => s

/-- R222, R315, R338: what an engine's access for a strand of a VF leaves at its home: the turns of others, a line of a cache bank, and, for another
device, the sequence number of its flit on the port that it took, and the end of that flit's retransmissions. -/
def State.engineServed (s : State) (who vf : Nat) (h : Home) (addr : Nat) (wr : Bool) : State :=
  match h with
  | .tile t => if t = who / 8 then s else s.markPassed h who s.arg.late
  | .fabric d =>
    (match s.portFor vf d with
    | some p => s.setLink p { s.link p with sendSeq := (s.link p).sendSeq + 1, sendFails := 0 }
    | none => s)
  | h => (s.markPassed h who s.arg.late).bankAccess vf h addr wr

/-- Whether a channel no longer serves (R361). -/
def State.homeRetired (s : State) : Home → Bool
  | .channel c => s.retired.getLsbD c
  | _ => false

/-- R353: a tile's copy engine is frozen: every copy pending on it fails with the recorded address `va`,
its flags are kept as at a failure (R39); a violation record with
the address `addr` (R354). -/
def State.freezeEngine (s : State) (tile kind addr va : Nat) : State :=
  let a := BitVec.ofNat 64 va
  let s := s.setTile tile { s.tile tile with copyFrozen := some a }
  let s := (strandsOf tile).foldl (fun s i =>
    let r := s.strand i
    let flags := r.copies.foldl (fun f c => if c.live then f ||| c.flags else f) (0 : Flags)
    s.setStrand i (raise { r with copies := [], tlc := r.copies.foldl (fun t c => t.fail c.num c.flags a) r.tlc } flags)) s
  s.violation addr kind 1 tile (s.launchOf tile).vf

/-! Sums over replicas (R343). -/

/-- The exact sum of the members' values in a format, rounded once; integers modulo 2^width. -/
def sumMembers (c : Nat) (fmode : Bool) (vals : List Nat) : Nat × Flags :=
  if isFloatFmt c then
    let F := ffmt c fmode
    match vals.map (readFloat F) with
    | [] => (0, 0)
    | x :: xs => deliver F 0 false 0 (xs.foldl (addVal 0) x)
  else (vals.foldl (· + ·) 0 % 2 ^ fmtWidth c, 0)

end Sys2Proof.Machine
end

