-- ==== Sys2Proof/Machine/Copy.lean ====
section
/-! DEFINITION. Copies and stream ports (R171 to R180), issued by strands and worked through by the tile's copy engine. -/

namespace Sys2Proof.Machine

/-! Issuing a copy. -/

/-- The byte position of element i of width w within a row. -/
def elemByte (w i : Nat) : Nat := i * w / 8

/-- R154: the alignment of elements of a format, in bytes. -/
def elemAlign (c : Nat) : Nat := if fmtWidth c = 4 then 1 else fmtWidth c / 8

/-- The address of a row start, wrapped as R87 gives; exact in a slot. -/
def Place.rowAddr (p : Place) (shift : Int) : Int :=
  match p with
  | .store a => ((a : Int) + shift) % ((2 ^ 32 : Nat) : Int)
  | .handle _ _ o => ((o : Int) + shift) % ((2 ^ 48 : Nat) : Int)
  | .slot _ => shift

/-- R137, R155, R172: the checks of one end of a row. -/
def State.rowTrap (s : State) (p : Place) (shift : Int) (z align : Nat) (need : Need) : Option TrapInfo :=
  let a := p.rowAddr shift
  let n := a.toNat
  match p with
  | .slot _ =>
    let bad : Word := (BitVec.ofInt 32 a).signExtend 64
    if a % (align : Int) ≠ 0 then some (5, 0, bad)
    else if a < 0 ∨ (16384 : Int) < a + z then some (6, 0, bad)
    else none
  | .store _ =>
    if n % align ≠ 0 then some (5, 0, BitVec.ofNat 64 n)
    else match s.localTarget s.myTile n z with
      | .error e => some e
      | .ok _ => none
  | .handle _ e _ =>
    if n % align ≠ 0 then some (5, 0, BitVec.ofNat 64 n) else entryTrap (s.vf (s.launchOf s.myTile).vf) e n z need

/-- R171: an RL = 0 copy checks each handle's validity, space and rights alone. -/
def State.handleOnlyTrap (s : State) (p : Place) (need : Need) : Option TrapInfo :=
  match p with
  | .handle _ e o =>
    if !entryValid e then some (6, 0, BitVec.ofNat 64 o)
    else if !admits (s.vf (s.launchOf s.myTile).vf) e need then some (7, 0, BitVec.ofNat 64 o)
    else none
  | _ => none

/-- The copy that an instruction describes (R89, R171). -/
def State.copyOf (s : State) (r : Strand) (f : Fields) : CopyOp :=
  let v := f.ext.imm64Nat
  let tile := s.myTile
  let place (valid : Bool) (index : Nat) (reg : Word) : Place :=
    if valid then .handle index (s.entryOf tile index) (reg.toNat % 2 ^ 48) else .store (reg.toNat % 2 ^ 32)
  let src := place (natBits v 54 54 == 1) (natBits v 15 0) (readX r f.a.toNat)
  let dst := if natBits v 43 42 = 1 then Place.slot f.d.toNat else place (natBits v 55 55 == 1) (natBits v 31 16) (readX r f.d.toNat)
  let pool (p : Place) : Bool := match p with
    | .handle _ e _ => entrySpace e == 1
    | _ => false
  { num := r.tlc.last + 1, stamp := s.fresh, tag := (s.launchOf tile).tag, src := src, dst := dst
    rows := natBits v 53 44 + 1, rl := natBits (readX r f.b.toNat).toNat 31 0
    ss := readInt true 32 ((readX r f.b.toNat).toNat / 2 ^ 32), ds := readInt true 32 (readX r f.c.toNat).toNat
    sf := natBits v 36 32, df := natBits v 41 37, mode := resolveMode r.status f.rm, sat := f.s, fmode := statusFmode r.status
    seed := r.seed, srcnt := r.srcnt
    bank := match dst with
      | .handle _ e _ => entryBank e
      | _ => none
    far := pool src || pool dst }

/-- The number of elements of a row, and its destination bytes. -/
def CopyOp.elems (c : CopyOp) : Nat := 8 * c.rl / fmtWidth c.sf
def CopyOp.destBytes (c : CopyOp) : Nat := c.elems * fmtWidth c.df / 8

/-- R171, R172: the row length, then each row's source and destination. -/
def State.copyTrap (s : State) (c : CopyOp) : Option TrapInfo :=
  if 8 * c.rl % fmtWidth c.sf ≠ 0 ∨ c.elems * fmtWidth c.df % 8 ≠ 0 then some (5, 0, BitVec.ofNat 64 c.rl)
  else if c.rl = 0 then (s.handleOnlyTrap c.src .copySource).orElse fun _ => s.handleOnlyTrap c.dst .copyDest
  else (List.range c.rows).findSome? fun (r : Nat) =>
    (s.rowTrap c.src ((r : Int) * c.ss) c.rl (elemAlign c.sf) .copySource).orElse fun _ =>
      s.rowTrap c.dst ((r : Int) * c.ds) c.destBytes (elemAlign c.df) .copyDest

/-- The slots a copy's destination names. -/
def Place.slots : Place → List Nat
  | .slot n => [n]
  | _ => []

/-- R358, R361: uncorrectable data that the look-up of a place's handle meets in memory (log 40). -/
def Place.lost (s : State) (tile : Nat) : Place → Option (Nat × Nat)
  | .handle index _ _ => s.entryLost tile index
  | _ => none

/-- The handles that a copy names, for the handle cache. -/
def Place.use (s : State) (tile : Nat) : Place → State
  | .handle index _ _ => s.useHandle tile index
  | _ => s

def execCp (f : Fields) (s : State) : Host.Outcome State Fault Refusal :=
  issueMem (.cp f) s fun r =>
    let c := s.copyOf r f
    if r.tlc.full || c.dst.slots.any fun n => decide (0 < slotOps (s.tile s.myTile) n) then s
    else s.needSlots c.dst.slots <| s.unlessLost ((c.src.lost s s.myTile).orElse fun _ => c.dst.lost s s.myTile)
      (match s.copyTrap c with
      | some (code, info, bad) => (c.dst.use (c.src.use s s.myTile) s.myTile).takeTrap code info bad
      | none =>
        let s := c.dst.use (c.src.use s s.myTile) s.myTile
        let item : TlRec := { num := 0, state := 1, far := c.far, fmode := c.sf != c.df && c.fmode }
        let r := countSr s.me c.mode
        let r := { r with tlc := r.tlc.next item }
        match (s.tile s.myTile).copyFrozen with
        | some a => s.retire { r with tlc := r.tlc.fail c.num 0 a } f
        | none =>
          if c.rl = 0 then s.retire { r with tlc := r.tlc.finish c.num 0 } f
          else s.retire { r with copies := r.copies ++ [c] } f)

/-! The copy engine (R173 to R175). -/

/-- R173: one element converted; `i` counts the copy's elements. -/
def convertElem (c : CopyOp) (i bits : Nat) : Nat × Flags :=
  let r := if c.mode = 5 then draw c.seed c.srcnt i else 0
  if c.sf = c.df then (bits, 0)
  else if copyFloat c.df then
    deliver (ffmt c.df c.fmode) c.mode c.sat r
      (if copyFloat c.sf then readFmt c.sf c.fmode bits else intVal (readFmtInt c.sf bits))
  else if copyFloat c.sf then
    let (v, fl) := floatToInt (fmtSigned c.df) (fmtWidth c.df) c.mode r (readFmt c.sf c.fmode bits)
    (wrapInt (fmtWidth c.df) v, fl)
  else (deliverInt c.df true (readFmtInt c.sf bits), 0)

/-- The bits of an element of width w in the bytes at its place; a nibble in the lower or upper half. -/
def elemBits (w i : Nat) (bytes : List Byte) : Nat :=
  if w = 4 then bytesToNat bytes / 16 ^ (i % 2) % 16 else bytesToNat bytes

/-- The bytes of an element, at least one. -/
def elemSize (w : Nat) : Nat := if w = 4 then 1 else w / 8

/-- The new bytes of an element's place. -/
def elemPut (w i bits : Nat) (old : List Byte) : List Byte :=
  if w = 4 then
    let b := bytesToNat old
    let keep := if i % 2 = 0 then b / 16 * 16 else b % 16
    [BitVec.ofNat 8 (keep + bits % 16 * 16 ^ (i % 2))]
  else natToBytes (w / 8) bits

/-- The copy that the engine works on in a class: the first of its strand's queue (R174, R175) whose element is not held: a replayable fault holds
its own copy alone (R311). -/
def Strand.copyAt (r : Strand) (far : Bool) : Option CopyOp := r.copies.find? fun c => c.far == far && c.held.isNone
def Strand.onCopy (r : Strand) (num : Nat) (g : CopyOp → CopyOp) : Strand :=
  { r with copies := r.copies.map fun c => if c.num = num then g c else c }
def Strand.dropCopy (r : Strand) (num : Nat) : Strand := { r with copies := r.copies.filter fun c => c.num != num }

/-- R175, R39: a copy fails at an address: its number is marked failed; the flags of the elements written stay. -/
def State.failCopy (s : State) (who : Nat) (c : CopyOp) (addr : Nat) : State :=
  let r := (s.strand who).dropCopy c.num
  let r := { r with tlc := r.tlc.fail c.num c.flags (BitVec.ofNat 64 addr) }
  s.setStrand who (if c.live then raise r c.flags else r)

/-- R311: a pool element waits, and CODE 5 is posted. -/
def State.holdCopy (s : State) (who : Nat) (c : CopyOp) (p : Place) (va : Nat) : State :=
  let index := match p with
    | .handle i _ _ => i
    | _ => 0
  let s := s.setStrand who ((s.strand who).onCopy c.num fun c => { c with held := some (BitVec.ofNat 64 va), walk := none })
  s.event (c.tag / 8) 5 (BitVec.ofNat 64 va) (BitVec.ofNat 64 (index % 65536 + who / 8 % 1024 * 65536))

/-- Whether a fault at an element of a place is replayable: in pool space (R311). -/
def Place.replayable : Place → Bool
  | .handle _ e _ => entrySpace e == 1
  | _ => false

/-- A fault at a copy's destination element: replayable in pool space, else the copy fails (R311). -/
def State.copyFault (s : State) (who : Nat) (c : CopyOp) (p : Place) (va : Nat) : State :=
  if p.replayable then s.holdCopy who c p va else s.failCopy who c va

/-- The address recorded for a place `shift` bytes on: virtual under a handle, else the local-store address or slot offset. -/
def Place.va (p : Place) (shift : Int) : Nat :=
  match p with
  | .store a => (((a : Int) + shift) % ((2 ^ 32 : Nat) : Int)).toNat
  | .handle _ e off => entryVa e (((off : Int) + shift) % ((2 ^ 48 : Nat) : Int)).toNat
  | .slot _ => shift.toNat

/-- An element read: its bits, and where it came from if it was uncorrectable. -/
def State.readElem (s : State) (p : Spot) (cut : Option (Nat × Spot)) (w i : Nat) : CopyElem :=
  let ps := cutParts p cut (elemSize w)
  let lost := (ps.find? fun q => s.homeRetired q.1.home).map fun q => (4, q.1.addr)
  { bits := elemBits w i (s.partsRead ps), va := p.va, bad := lost.orElse fun _ => s.partsBad ps }

/-- The members of a place under a replica handle (R343); none of them where the group may no longer be used (log 44). -/
def Place.members (v : Vf) : Place → Option (List Word)
  | .handle _ e _ => if entrySpace e = 3 then some ((replicaMembers v (entryTarget e)).getD []) else none
  | _ => none

/-- The homes of an engine's access. -/
def spotHomes (p : Spot) (cut : Option (Nat × Spot)) : List Home := p.home :: (cut.map fun c => c.2.home).toList

/-- What an engine's access for a strand of a VF leaves at its homes. -/
def State.spotsServed (s : State) (who vf : Nat) (p : Spot) (cut : Option (Nat × Spot)) (wr : Bool) : State :=
  let t := s.engineServed who vf p.home p.addr wr
  match cut with
  | none => t
  | some (_, q) => if q.home.isFabric then t else t.engineServed who vf q.home q.addr wr

/-- The source element that a copy reads next is put into its buffer; after the last of a row the row is written. -/
def CopyOp.gotElem (c : CopyOp) (e : CopyElem) : CopyOp :=
  let c := { c with buf := c.buf ++ [e], elem := c.elem + 1, walk := none }
  if c.elem < c.elems then c else { c with writing := true, elem := 0 }

/-- R175: the source element read next fails: the elements before it are still written, and the copy fails at it. -/
def CopyOp.lostElem (c : CopyOp) (va : Nat) : CopyOp :=
  { c with buf := c.buf ++ [{ bits := 0, va := va, lost := true }], writing := true, elem := 0, held := none, walk := none }

/-- After an element is written: the next, or the next row. -/
def CopyOp.putElem (c : CopyOp) (fl : Flags) : CopyOp :=
  let c := { c with elem := c.elem + 1, flags := c.flags ||| fl, walk := none }
  if c.elem < c.elems then c else { c with writing := false, elem := 0, buf := [], row := c.row + 1 }

/-- R343: a member's answer for the element being read; after the last of `n` their sum is the element. -/
def CopyOp.gotMember (c : CopyOp) (n : Nat) (e : CopyElem) : CopyOp :=
  let ms := c.members ++ [e]
  if ms.length < n then { c with members := ms }
  else
    let (v, fl) := sumMembers c.sf c.fmode (ms.map fun m => m.bits)
    { c with members := [] }.gotElem { bits := v, va := e.va, bad := ms.findSome? fun (m : CopyElem) => m.bad, flags := fl }

/-- The next read of an element of an engine's place, `shift` bytes on; of a replica the member `k` (R343). -/
def State.sourceAccess (s : State) (tile tag : Nat) (p : Place) (shift : Int) (z k : Nat) (w : Option Walk) : State × EngineAccess :=
  match p.members (s.vf (tag / 8)) with
  | none => s.engineAccess tile tag p shift z true false w
  | some ms => (s, s.memberAccess (tag / 8) ms[k]? (p.va shift) z true false)

/-- One read of a copy. `refused`: the remote device refuses it (R340), or the pool answers poisoned data (R332). -/
def State.copyRead (s : State) (who : Nat) (c : CopyOp) (refused : Bool) : State :=
  let w := fmtWidth c.sf
  let shift := (c.row : Int) * c.ss + (elemByte w c.elem : Nat)
  let got (s : State) (e : CopyElem) : State := s.setStrand who ((s.strand who).onCopy c.num fun c =>
    match c.src.members (s.vf (c.tag / 8)) with
    | none => c.gotElem e
    | some ms => c.gotMember ms.length e)
  match s.sourceAccess (who / 8) c.tag c.src shift (elemSize w) c.members.length c.walk with
  | (s, .ok _ p cut) =>
    if c.src.replayable && s.poolDown then s.holdCopy who c c.src p.va
    else if (spotHomes p cut).any fun h => s.olderTo who c.stamp h || s.homeWaits who (c.tag / 8) h then s
    else
      let e := s.readElem p cut w c.elem
      got (s.spotsServed who (c.tag / 8) p cut false) (if refused && p.home.isFabric then { e with bad := some (5, 0) }
        else if refused && c.src.replayable then { e with bad := some (5, p.addr) } else e)
  | (s, .fault va) =>
    if c.src.replayable then s.holdCopy who c c.src va
    else s.setStrand who ((s.strand who).onCopy c.num fun c => c.lostElem va)
  | (s, .freeze kind addr va) => s.freezeEngine (who / 8) kind addr va
  | (s, .wait w) => s.setStrand who ((s.strand who).onCopy c.num fun c => { c with walk := some w })
  | (s, .lost) => got s { bits := 0, va := c.src.va shift, bad := some (5, 0) }

/-- One write of a copy (R174, R175): a source element whose read failed fails the copy; a destination fault is found before an uncorrectable element is delivered. -/
def State.copyWrite (s : State) (who : Nat) (c : CopyOp) (refused : Bool) : State :=
  let tile := who / 8
  let w := fmtWidth c.df
  let e := c.buf.getD c.elem { bits := 0 }
  let (bits, fl) := convertElem c (c.row * c.elems + c.elem) e.bits
  let shift := (c.row : Int) * c.ds + (elemByte w c.elem : Nat)
  let wrote (s : State) : State :=
    let s := match c.bank with
      | some b => s.setTile tile (recordValue (s.tile tile) b c.df c.fmode bits)
      | none => s
    s.setStrand who ((s.strand who).onCopy c.num fun c => c.putElem (fl ||| e.flags))
  let deliverTo (s : State) (put : State → State) : State :=
    match e.bad.orElse fun _ => c.bank.bind fun b => (s.histBad tile b c.df c.fmode bits).map fun k => (k, 0) with
    | some (kind, addr) => s.freezeEngine tile kind addr e.va
    | none => wrote (put s)
  if e.lost then s.failCopy who c e.va
  else match c.dst with
  | .slot n =>
    let off := shift.toNat
    deliverTo s fun s =>
      let o := slotAt (s.tile tile) n
      let mem := writeBytes o.mem off (elemPut w c.elem bits (readBytes o.mem off (elemSize w)))
      { s.setTile tile (setSlot (s.tile tile) n { o with mem := mem }) with
        badWords := clearBad s.badWords (slotPa tile n off) (elemSize w) }
  | _ =>
    match s.engineAccess tile c.tag c.dst shift (elemSize w) (fmtWidth c.df == 4) true c.walk with
    | (s, .ok tag p cut) =>
      if c.dst.replayable && s.poolDown then s.holdCopy who c c.dst p.va
      else if (spotHomes p cut).any fun h => s.homeWaits who (c.tag / 8) h then s
      else if (spotHomes p cut).any s.homeRetired || (refused && p.home.isFabric) then (s.spotsServed who (c.tag / 8) p cut false).failCopy who c p.va
      else deliverTo s fun s =>
        let s := s.spotsServed who (c.tag / 8) p cut true
        let ps := cutParts p cut (elemSize w)
        s.partsWrite tag ps (elemPut w c.elem bits (s.partsRead ps))
    | (s, .fault va) => s.copyFault who c c.dst va
    | (s, .freeze kind addr va) => s.freezeEngine tile kind addr va
    | (s, .wait w) => s.setStrand who ((s.strand who).onCopy c.num fun c => { c with walk := some w })
    | (s, .lost) => s.freezeEngine tile 5 0 (c.dst.va shift)

/-- The copy engine of a tile reads or writes one element of a strand's copy (R174). Acts on `tile`, `slot`, `far`, `refused`. -/
def execCopyElement (s : State) : Host.Outcome State Fault Refusal :=
  let who := s.arg.tile * 8 + s.arg.slot % 8
  match (s.strand who).copyAt s.arg.far with
  | none => .next s
  | some c =>
    .next (if (s.tile s.arg.tile).preempt == .saved || (s.diverts s.arg.tile && c.far) || decide (c.rows ≤ c.row) then s
      else match (s.tile s.arg.tile).copyFrozen with
      | some a => s.failCopy who c a.toNat
      | none =>
        let s := s.setStrand who ((s.strand who).onCopy c.num fun c => { c with resumed := false })
        if c.writing then s.copyWrite who c s.arg.refused else s.copyRead who c s.arg.refused)

/-- R174: every write has been performed: the number completes, its flags enter the record, and STATUS unless the strand has
halted since. Acts on `tile`, `slot`, `far`. -/
def execCopyComplete (s : State) : Host.Outcome State Fault Refusal :=
  let who := s.arg.tile * 8 + s.arg.slot % 8
  match (s.strand who).copyAt s.arg.far with
  | none => .next s
  | some c =>
    if c.row < c.rows ∨ (s.tile s.arg.tile).preempt = .saved ∨ (s.diverts s.arg.tile ∧ c.far) then .next s
    else
      let r := (s.strand who).dropCopy c.num
      let r := { r with tlc := r.tlc.finish c.num c.flags }
      .next (s.setStrand who (if c.live then raise r c.flags else r))

/-! Stream ports (R176 to R180). -/

/-- The least and the greatest shift of a pattern's elements (R177). -/
def patternEnds (p : Port) : Int × Int :=
  let a : Int := ((p.n1 - 1 : Nat) : Int) * p.stride1
  let b : Int := ((p.n0 - 1 : Nat) : Int) * p.stride0
  ((if a < 0 then a else 0) + (if b < 0 then b else 0), (if a < 0 then 0 else a) + (if b < 0 then 0 else b))

/-- R154, R177: one element's bounds, exact: the fault is the bounds fault, or the one that its region gives. -/
def State.elemTrap (s : State) (p : Port) (shift : Int) : Option TrapInfo :=
  match p.base with
  | .store a =>
    let n := (a : Int) + shift
    if n < 0 ∨ ((2 ^ 32 : Nat) : Int) ≤ n then some (6, 0, BitVec.ofInt 64 n)
    else match s.localTarget s.myTile n.toNat 256 with
      | .error e => some e
      | .ok _ => none
  | .handle _ e o =>
    let n := (o : Int) + shift
    if !entryValid e ∨ n < 0 ∨ (entryLen e : Int) < n + 256 then some (6, 0, BitVec.ofInt 64 n) else none
  | .slot _ => none

/-- The place in memory of a shift: an address under a handle, the tile's window of 2^20 bytes elsewhere. -/
def Place.window (p : Place) (shift : Int) : Int :=
  match p with
  | .store a => ((a : Int) + shift) / ((2 ^ 20 : Nat) : Int)
  | _ => 0

/-- R177: the bounds of every element: the least and the greatest one; and, where a local pattern leaves one tile's window, row by row each element
of a row that does (log 27). -/
def State.patternTrap (s : State) (p : Port) : Option TrapInfo :=
  let (lo, hi) := patternEnds p
  ((s.elemTrap p lo).orElse fun _ => s.elemTrap p hi).orElse fun _ =>
    if p.base.window lo = p.base.window hi then none
    else (List.range p.n1).findSome? fun (i : Nat) =>
      let first : Int := (i : Int) * p.stride1
      let last : Int := first + ((p.n0 - 1 : Nat) : Int) * p.stride0
      if p.base.window first = p.base.window last then (s.elemTrap p first).orElse fun _ => s.elemTrap p last
      else (List.range p.n0).findSome? fun (j : Nat) => s.elemTrap p (first + (j : Int) * p.stride0)

/-- The port that a pattern record describes (R176). -/
def State.patternOf (s : State) (rec_ : Nat) : Port :=
  let tile := s.myTile
  { isOpen := true, out := natBits rec_ 177 177 == 1
    base := if natBits rec_ 176 176 = 1 then .handle (natBits rec_ 175 160) (s.entryOf tile (natBits rec_ 175 160)) (natBits rec_ 63 0)
      else .store (natBits rec_ 63 0)
    tag := (s.launchOf tile).tag, n0 := natBits rec_ 143 128, n1 := natBits rec_ 159 144
    stride0 := readInt true 32 (natBits rec_ 95 64), stride1 := readInt true 32 (natBits rec_ 127 96), stamp := s.fresh }

/-- The address of element (0, 0). -/
def Place.start : Place → Nat
  | .store a => a
  | .handle _ _ o => o
  | .slot _ => 0

/-- R177: the checks of `q.open`, in the order of its table. The address of a stride that is not aligned, and element (0, 0) for a handle without the
right, are the model's (log 27). -/
def State.openTrap (s : State) (q a rec_ : Nat) : Option TrapInfo :=
  let bad := BitVec.ofNat 64 a
  let t := s.tile s.myTile
  let p := s.patternOf rec_
  let start := BitVec.ofNat 64 p.base.start
  if a % 32 ≠ 0 then some (5, 0, bad)
  else match areaTrap t a 32 bad with
  | some e => some e
  | none =>
    if natBits rec_ 255 178 ≠ 0 ∨ p.n0 = 0 ∨ p.n1 = 0 ∨ (natBits rec_ 176 176 = 0 ∧ (natBits rec_ 175 160 ≠ 0 ∨ natBits rec_ 63 32 ≠ 0)) then
      some (6, 0, bad)
    else if p.base.start % 4 ≠ 0 then some (5, 0, start)
    else if p.stride0 % 4 ≠ 0 then some (5, 0, BitVec.ofInt 64 (p.base.start + p.stride0))
    else if p.stride1 % 4 ≠ 0 then some (5, 0, BitVec.ofInt 64 (p.base.start + p.stride1))
    else match s.patternTrap p with
    | some e => some e
    | none =>
      let rights := match p.base with
        | .handle _ e _ => admits (s.vf (s.launchOf s.myTile).vf) e (if p.out then .portOut else .portIn)
        | _ => true
      if !rights then some (7, 0, start)
      else if (readPort s.me q).isOpen then some (7, 0, BitVec.ofNat 64 (q + 32))
      else none

def execQOpen (f : Fields) (s : State) : Host.Outcome State Fault Refusal :=
  issueMem (.qOpen f) s fun r =>
    let q := f.d.toNat - 32
    let a := (readX r f.a.toNat + immOf f).toNat % 2 ^ 32
    let rec_ := readNat (s.tile s.myTile).store a 32
    let p := s.patternOf rec_
    s.unlessLost (if a % 32 ≠ 0 ∨ (areaTrap (s.tile s.myTile) a 32 0).isSome then none else p.base.lost s s.myTile) <|
    match s.openTrap q a rec_ with
    | some (code, info, bad) => s.takeTrap code info bad
    | none =>
      let s := p.base.use s s.myTile
      s.retire (writePort s.me q p) f

/-- R179: an input port forgets what it has not delivered, and fetches again from there. -/
def Port.restart (p : Port) (stamp : Nat) : Port := { p with buf := [], fetch := p.next, stamp := stamp, got := [], gotBad := none, walk := none }

/-- R179: `q.flush` and `q.close` take the next TLC number; it completes at once for an input port, and for an output port when
every element pushed before it has been written. -/
def flushOp (i : Instr) (f : Fields) (s : State) (close : Bool) : Host.Outcome State Fault Refusal :=
  issueMem i s fun r =>
    let q := f.d.toNat - 32
    let p := readPort r q
    if r.tlc.full then s
    else if !p.isOpen && !close then s.takeTrap 7 0 (BitVec.ofNat 64 f.d.toNat)
    else
      let num := r.tlc.last + 1
      let r := { r with tlc := r.tlc.next { num := 0, state := 1 } }
      let r := if p.isOpen && p.out then { r with drains := r.drains ++ [.mark q num true] }
        else { r with tlc := r.tlc.finish num 0 }
      let r := if !p.isOpen then r
        else if close then writePort r q {} else writePort r q (if p.out then p else p.restart s.fresh)
      s.retire r f

def execQClose (f : Fields) (s : State) : Host.Outcome State Fault Refusal := flushOp (.qClose f) f s true
def execQFlush (f : Fields) (s : State) : Host.Outcome State Fault Refusal := flushOp (.qFlush f) f s false

/-- R242: the bytes of a stream element's next part, `o` bytes into it: all of it at a local-store home, else what lies in one line. -/
def partSize (p : Place) (shift : Int) (o : Nat) : Nat :=
  match p with
  | .handle _ _ _ => Nat.min (256 - o) (128 - (p.va shift + o) % 128)
  | _ => 256 - o

/-- R343: the 256 bytes that the members of a replica give: each 4-byte lane is the sum modulo 2^32. -/
def sumLanes (n : Nat) (bytes : List Byte) : VReg :=
  packV 32 ((List.range 64).map fun j => (List.range n).foldl (fun acc m =>
    acc + bytesToNat ((bytes.drop (256 * m + 4 * j)).take 4)) 0)

/-- An element, or the mark that its fetch failed, enters an input port. -/
def Port.add (p : Port) (v : VReg) (bad : Option Word) : Port :=
  { p with buf := p.buf ++ [{ index := p.fetch, data := v, bad := bad }], fetch := p.fetch + 1, got := [], gotBad := none, walk := none }

/-- R178, R242: the copy engine fetches the next part of an input port's next element; of a replica, part after part of each member. A
failed fetch marks the element; uncorrectable data freezes the engine (R358). A part lies in one page. Acts on `tile`, `slot`, `op` (the port), `refused`. -/
def execPortRefillElement (s : State) : Host.Outcome State Fault Refusal :=
  let tile := s.arg.tile
  let who := tile * 8 + s.arg.slot % 8
  let q := s.arg.op
  let p := readPort (s.strand who) q
  if s.diverts tile || !p.isOpen || p.out || decide (4 ≤ p.buf.length) || decide (p.total ≤ p.fetch) then .next s
  else
    let shift := p.shift p.fetch
    let addr := BitVec.ofInt 64 (p.base.rowAddr shift)
    let put (s : State) (p : Port) : State := s.setStrand who (writePort (s.strand who) q p)
    match (s.tile tile).copyFrozen with
    | some a => .next (put s (p.add 0 (some a)))
    | none =>
      let o := p.got.length % 256
      let n := partSize p.base shift o
      let count := ((p.base.members (s.vf (p.tag / 8))).map List.length).getD 1
      let got (s : State) (bytes : List Byte) (bad : Option (Nat × Nat)) : State :=
        let p := { p with got := p.got ++ bytes, gotBad := p.gotBad.orElse fun _ => bad, walk := none }
        if p.got.length < 256 * count then put s p
        else match p.gotBad with
          | some (kind, a) => put (s.freezeEngine tile kind a (p.base.va shift)) (p.add 0 (some (BitVec.ofNat 64 (p.base.va shift))))
          | none => put s (p.add (sumLanes count p.got) none)
      .next (match s.sourceAccess tile p.tag p.base (shift + (o : Nat)) n (p.got.length / 256) p.walk with
        | (s, .ok _ { home := h, addr := addr, .. } _) =>
          if s.olderTo who p.stamp h || s.homeWaits who (p.tag / 8) h then s
          else
            let s := s.engineServed who (p.tag / 8) h addr false
            let bad := if s.arg.refused && h.isFabric then some (5, 0)
              else if s.homeRetired h then some (4, addr)
              else s.homeBadAt h addr n
            got s (s.homeRead h addr n) bad
        | (s, .fault _) => put s (p.add 0 (some addr))
        | (s, .freeze kind addr va) => put (s.freezeEngine tile kind addr va) (p.add 0 (some (BitVec.ofNat 64 va)))
        | (s, .wait w) => put s { p with walk := some w }
        | (s, .lost) => got s (List.replicate n 0) (some (5, 0)))

/-- R178, R179, R242: the copy engine writes the next part of the next drained element, or completes a flush or close whose elements
are written; an element whose buffer is uncorrectable freezes the engine (R358). The address that a failed drain keeps, the element's own, is log 27. Acts on `tile`, `slot`, `refused`. -/
def execPortDrainElement (s : State) : Host.Outcome State Fault Refusal :=
  let tile := s.arg.tile
  let who := tile * 8 + s.arg.slot % 8
  let r := s.strand who
  match (if (s.tile tile).preempt = .saved then [] else r.drains) with
  | [] => .next s
  | .mark q num live :: rest =>
    let r := { r with drains := rest }
    .next (s.setStrand who (match r.drainBad.find? fun b => b.1 == q with
      | some (_, a) =>
        { r with tlc := r.tlc.fail num 0 a, drainBad := if live then r.drainBad.filter fun b => b.1 != q else r.drainBad }
      | none => { r with tlc := r.tlc.finish num 0 }))
  | .elem q p shift tag data done bad :: rest =>
    let at_ := BitVec.ofInt 64 (p.rowAddr shift)
    let left (s : State) (items : List DrainItem) : State := s.setStrand who { s.strand who with drains := items, drainWalk := none }
    let fail (s : State) (a : Word) : State :=
      s.setStrand who { s.strand who with drains := rest, drainWalk := none, drainBad := (s.strand who).drainBad ++ [(q, a)] }
    match (s.tile tile).copyFrozen with
    | some a => .next (fail s a)
    | none =>
      let n := partSize p shift done
      .next (match s.engineAccess tile tag p (shift + (done : Nat)) n false true r.drainWalk with
        | (s, .ok ctx { home := h, addr := addr, va := va, leaf := leaf, .. } _) =>
          if s.homeWaits who (tag / 8) h then s
          else if s.homeRetired h || (s.arg.refused && h.isFabric) then fail (s.engineServed who (tag / 8) h addr false) at_
          else if bad then fail (s.freezeEngine tile 3 0 va) (BitVec.ofNat 64 va)
          else
            let s := s.engineServed who (tag / 8) h addr true
            let s := (s.logWrite ctx va leaf).homeWrite h addr (natToBytes n (data.toNat / 2 ^ (8 * done)))
            left s (if 256 ≤ done + n then rest else .elem q p shift tag data (done + n) :: rest)
        | (s, .fault _) => fail s at_
        | (s, .freeze kind addr va) => fail (s.freezeEngine tile kind addr va) (BitVec.ofNat 64 va)
        | (s, .wait w) => s.setStrand who { s.strand who with drainWalk := some w }
        | (s, .lost) =>
          let va := p.va (shift + (done : Nat))
          fail (s.freezeEngine tile 5 0 va) (BitVec.ofNat 64 va))

end Sys2Proof.Machine
end

