-- ==== Sys2Proof/Machine/Encode.lean ====
section
/-! DEFINITION. `t.enc` and the cluster's Viterbi engine (R148 to R150). -/

namespace Sys2Proof.Machine

/-- R148, R155: alignment of both addresses, then both regions, then the engine's ownership. -/
def State.encodeTrap (s : State) (ta da bytes : Nat) : Option TrapInfo :=
  let t := s.tile s.myTile
  let bad (a : Nat) : Word := BitVec.ofNat 64 a
  if ta % 4 ≠ 0 then some (5, 0, bad ta)
  else if da % 8 ≠ 0 then some (5, 0, bad da)
  else ((areaTrap t ta 1024 (bad ta)).orElse fun _ => areaTrap t da bytes (bad da)).orElse fun _ =>
    if (s.vf (s.launchOf s.myTile).vf).viterbi.getLsbD (clusterOf s.myTile) then none else some (7, 0, bad ta)

def execTEnc (f : Fields) (s : State) : Host.Outcome State Fault Refusal :=
  issue (.tEnc f) s fun r =>
    let ts := f.imm10.toNat % 4
    let tv := f.imm10.toNat / 4 + 1
    let ta := natBits (readX r f.a.toNat).toNat 31 0
    let da := natBits (readX r f.b.toNat).toNat 31 0
    let c := clusterOf s.myTile
    let cl := s.cluster c
    if 64 ≤ cl.encoder.length || r.tle.full then s
    else match s.encodeTrap ta da (blockBytes ts tv + 8) with
    | some (code, info, bad) => s.takeTrap code info bad
    | none =>
      let op : EncOp := { tile := s.myTile, slot := s.mySlot, num := r.tle.last + 1, ta := ta, da := da, ts := ts, tv := tv }
      (s.setCluster c { cl with encoder := cl.encoder ++ [op] }).retire { r with tle := r.tle.next { num := 0, state := 1 } } f

/-- R150: a tile's queued blocks are withdrawn when it is saved, but not the one in progress. -/
def State.withdrawBlocks (s : State) (tile : Nat) : State :=
  let cl := s.cluster (clusterOf tile)
  let busy := if cl.targets.isSome then cl.encoder.take 1 else []
  let queued := cl.encoder.drop busy.length
  let s := s.setCluster (clusterOf tile) { cl with encoder := busy ++ queued.filter fun e => e.tile != tile }
  s.setTile tile { s.tile tile with encodes := queued.filter fun e => e.tile == tile }
/-- R150: they return behind the queued ones when it resumes; the model lets a full queue grow beyond 64 (log 16). -/
def State.returnBlocks (s : State) (tile : Nat) : State :=
  let cl := s.cluster (clusterOf tile)
  let s := s.setCluster (clusterOf tile) { cl with encoder := cl.encoder ++ (s.tile tile).encodes }
  s.setTile tile { s.tile tile with encodes := [] }

/-- R149 step 1: the engine reads a block's targets. Uncorrectable targets freeze the strand, and the block fails. Acts on `cluster`. -/
def execViterbiBlockStart (s : State) : Host.Outcome State Fault Refusal :=
  let c := s.arg.cluster
  let cl := s.cluster c
  match cl.targets, cl.encoder with
  | none, e :: rest =>
    let who := e.tile * 8 + e.slot
    (match badIn s.badWords (localPa e.tile e.ta) 1024 with
    | some kind =>
      let s := s.setCluster c { cl with encoder := rest }
      let r := s.strand who
      let s := s.setStrand who { r with tle := r.tle.fail e.num 0 (BitVec.ofNat 64 e.ta) }
      .next (if e.live then s.freeze who kind 0 else s)
    | none =>
      let words := (List.range 256).map fun i => BitVec.ofNat 32 (readNat (s.tile e.tile).store (e.ta + 4 * i) 4)
      .next (s.setCluster c { cl with targets := some words }))
  | _, _ => .next s

/-- R149: the block in progress completes: it is written, or fails where a target is not finite. Acts on `cluster`. -/
def execViterbiBlockComplete (s : State) : Host.Outcome State Fault Refusal :=
  let c := s.arg.cluster
  let cl := s.cluster c
  match cl.targets, cl.encoder with
  | some words, e :: rest =>
    let s := s.setCluster c { cl with encoder := rest, targets := none }
    let who := e.tile * 8 + e.slot
    let r := s.strand who
    let units := words.map targetUnits
    .next (if units.all fun u => u.isSome then
        (s.setStrand who { r with tle := r.tle.finish e.num 0 }).writeLocal e.tile e.da (encodeBlock (units.filterMap id) e.ts e.tv)
      else
        let r := { r with tle := r.tle.fail e.num flagNV (BitVec.ofNat 64 e.ta) }
        s.setStrand who (if e.live then raise r flagNV else r))
  | _, _ => .next s

end Sys2Proof.Machine
end

