-- ==== Sys2Proof/Machine/Words.lean ====
section
/-! DEFINITION. The structures of the state as words: what the readback plane reads of them (R355; log 41), and what a save area holds beside the
register files (R324; log 36). -/

namespace Sys2Proof.Machine

/-- A number as its 64-bit words, lowest first. -/
def wordsOf (n v : Nat) : List Nat := (List.range n).map fun i => v / 2 ^ (64 * i) % 2 ^ 64
def flag (b : Bool) : Nat := if b then 1 else 0
def optWord (o : Option Nat) : List Nat := [flag o.isSome, o.getD 0]
def optPair (o : Option (Nat × Nat)) : List Nat := [flag o.isSome, (o.getD (0, 0)).1, (o.getD (0, 0)).2]
def listWords {α : Type} (f : α → List Nat) (xs : List α) : List Nat := xs.length :: xs.flatMap f
def byteWords (bs : List Byte) : List Nat := listWords (fun b => [b.toNat]) bs
def intWord (i : Int) : Nat := (BitVec.ofInt 64 i).toNat

def Run.code : Run → Nat
  | .free => 0
  | .running => 1
  | .waiting => 2
  | .parked => 3
  | .frozen => 4
def Preempt.code : Preempt → List Nat
  | .running => [0, 0]
  | .deferring limit => [1, limit.toNat]
  | .expired => [2, 0]
  | .saving => [3, 0]
  | .saved => [4, 0]
def Term.code : Term → List Nat
  | .running => [0, 0, 0]
  | .stopped final => 1 :: optWord final
  | .closed => [2, 0, 0]
def TaskState.code : TaskState → Nat
  | .idle => 0
  | .queued => 1
  | .lent => 2
  | .running => 3
  | .retired => 4
def Home.code : Home → List Nat
  | .tile n => [0, n]
  | .channel n => [1, n]
  | .fabric n => [2, n]
  | .hoist n => [3, n]

/-! Strands. -/

def TlRec.words (x : TlRec) : List Nat :=
  [x.num, x.state + 4 * x.flags.toNat + 128 * flag x.fmode + 256 * flag x.far + 512 * flag x.rep, x.addr.toNat]
def Timeline.words (t : Timeline) : List Nat := t.last :: listWords TlRec.words t.recs
def Span.words (p : Span) : List Nat := [p.openAt.toNat, p.minimum.toNat, p.maximum.toNat, p.handler.toNat, p.bound.toNat]
def Place.words : Place → List Nat
  | .store a => [0, a, 0] ++ wordsOf 4 0
  | .handle i e o => [1, i, o] ++ wordsOf 4 e.toNat
  | .slot n => [2, n, 0] ++ wordsOf 4 0
def Walk.words (w : Walk) : List Nat :=
  [w.tag, w.va, flag w.failed + 2 * flag w.pool, (w.walker.map fun k => k + 1).getD 0, w.stamp] ++ optPair w.barred
/-- The data of an element stands with its error flag among the words of its port's buffer (R355). -/
def PortElem.words (e : PortElem) : List Nat := [e.index, flag e.spoilt] ++ optWord (e.bad.map BitVec.toNat)
/-- Data that is uncorrectable is not among the words (R355, R358). -/
def Port.words (p : Port) : List Nat :=
  [flag p.isOpen + 2 * flag p.out] ++ p.base.words ++ [p.tag, p.n0, p.n1, intWord p.stride0, intWord p.stride1, p.next, p.fetch, p.stamp] ++
  optPair p.gotBad ++ byteWords (if p.gotBad.isSome then p.got.map fun _ => 0 else p.got) ++ listWords PortElem.words p.buf ++ listWords Walk.words p.walk.toList
def CopyElem.words (e : CopyElem) : List Nat := [if e.bad.isSome then 0 else e.bits, e.va, flag e.lost, e.flags.toNat] ++ optPair e.bad
def CopyOp.words (c : CopyOp) : List Nat :=
  [c.num, c.stamp, c.tag, c.rows, c.rl, intWord c.ss, intWord c.ds, c.sf + 32 * c.df + 1024 * c.mode, c.seed.toNat, c.srcnt.toNat, c.row, c.elem,
    flag c.writing + 2 * flag c.far + 4 * flag c.live + 8 * flag c.sat + 16 * flag c.fmode + 32 * flag c.resumed + 64 * flag c.refused, c.flags.toNat] ++
  c.src.words ++ c.dst.words ++ optWord c.bank ++ optWord (c.held.map BitVec.toNat) ++ listWords CopyElem.words c.buf ++ listWords CopyElem.words c.members ++
  listWords Walk.words c.walk.toList
def DrainItem.words : DrainItem → List Nat
  | .elem q p shift tag _ done bad => [0, q, intWord shift, tag, done, flag bad] ++ p.words
  | .mark q num live => [1, q, num, flag live]
def Dest.words : Dest → List Nat
  | .none => [0, 0]
  | .x n => [1, n]
  | .xPair n => [2, n]
  | .v n => [3, n]
  | .la => [4, 0]
def Finish.words : Finish → List Nat
  | .value => [0]
  | .scalar c => [1, c]
  | .lanes active base => [2, active.toNat] ++ wordsOf 32 base.toNat
  | .pair => [3]
def LongOp.words (o : LongOp) : List Nat :=
  [o.id, flag o.remote + 2 * flag o.answered + 4 * flag o.atomic, o.cover, o.waiting, o.flags.toNat] ++ o.dest.words ++ o.finish.words ++ optPair o.bad ++
  optWord o.acquire ++ [flag o.drop.isSome, (o.drop.getD (0, 0, 0)).1, (o.drop.getD (0, 0, 0)).2.1, (o.drop.getD (0, 0, 0)).2.2] ++ wordsOf 32 (if o.bad.isSome then 0 else o.data.toNat) ++
  listWords (fun (v : VReg) => wordsOf 32 (if o.bad.isSome then 0 else v.toNat)) o.members
def Posted.words (p : Posted) : List Nat := [p.id, p.addr.toNat, p.cover, flag p.task + 2 * flag p.rejected + 4 * flag p.wb + 8 * flag p.old]

/-- What a strand has outstanding. -/
def Strand.outstanding (r : Strand) : List Nat :=
  listWords LongOp.words r.longs ++ listWords Posted.words r.posted ++ listWords CopyOp.words r.copies ++ listWords DrainItem.words r.drains ++
  listWords (fun b => [b.1, b.2.toNat]) r.drainBad ++ listWords Walk.words r.drainWalk.toList
def Strand.words (r : Strand) : List Nat :=
  [r.run.code, r.laCarry.toNat % 2 ^ 64, r.laCarry.toNat / 2 ^ 64, r.depth, r.hp.toNat, r.esc.toNat, flag r.thr + 2 * flag r.broken + 4 * flag r.hyPassed,
    r.waitAt, r.fenceAt, r.issuedAt, r.startedAt, r.hyKey] ++ optWord (r.hyIssue.map BitVec.toNat) ++ optWord r.task ++ optWord r.fence ++
  listWords Walk.words r.walk.toList ++ (r.tlc.words ++ r.tlm.words ++ r.tle.words ++ r.tlg.words) ++ listWords (fun p => p.1 :: p.2.words) r.spans ++
  listWords (fun p => p.1 :: p.2.words) r.ports ++ r.outstanding

/-! Tiles and clusters. -/

def EncOp.words (e : EncOp) : List Nat := [e.tile * 8 + e.slot, e.num, e.ta, e.da, e.ts, e.tv, flag e.live]
def ArrayKind.words : ArrayKind → List Nat
  | .multiply form fa fb oa ob cb clr ts tv => [0, form, fa, fb, oa, ob, cb, flag clr, ts, tv]
  | .compress fmt d a => [1, fmt, d, a]
  | .zero bank => [2, bank]
  | .write bank idx data => [3, bank, idx] ++ wordsOf 32 data.toNat
def ArrayOp.words (o : ArrayOp) : List Nat :=
  [o.slot, o.num, o.mode, flag o.sat + 2 * flag o.fmode + 4 * flag o.live, o.seed.toNat, o.srcnt.toNat] ++ o.kind.words
def Tile.words (t : Tile) : List Nat :=
  optWord t.launch ++ [t.xb, t.scr, flag t.race, t.raceSeq.toNat] ++
  ((List.range 8).flatMap fun n => optWord (slotAt t n).owner ++ [flag (slotAt t n).release]) ++
  [t.arrayDue] ++ listWords ArrayOp.words t.array ++ optWord (t.copyFrozen.map BitVec.toNat) ++ listWords (fun h => [h.1, h.2.toNat]) t.halyard ++
  optWord t.lnGo ++ [t.lnGoAt, t.spawnAt] ++ t.preempt.code ++ [t.l1.length, t.tlb.length, t.spill.length] ++ listWords EncOp.words t.encodes
def TlbEntry.words (e : TlbEntry) : List Nat := [e.tag, e.page, e.bits, e.pa, flag e.rd + 2 * flag e.wr + 4 * flag e.log + 8 * flag e.d, e.leaf]
def HcEntry.words (e : HcEntry) : List Nat := [e.tag, e.index] ++ wordsOf 4 e.entry.toNat
def L1Line.words (l : L1Line) : List Nat :=
  wordsOf 16 l.data.toNat ++ wordsOf 2 l.valid.toNat ++ wordsOf 2 l.dirty.toNat ++ [l.tag, l.line, l.pa, l.writer, flag l.withdrawn, l.page] ++
  l.home.code ++ optWord l.leaf
def Cluster.words (c : Cluster) : List Nat :=
  [flag c.published.isSome, c.pubAt, flag c.stealing + 2 * flag c.retired + 4 * flag c.retiring] ++ optWord (c.published.getD none) ++ optWord c.refusedAt ++
  [c.tasks.length, c.tlb.length, c.handles.length, flag c.targets.isSome] ++ listWords (fun w => [w.toNat]) (c.targets.getD []) ++
  listWords EncOp.words c.encoder
def Task.words (t : Task) : List Nat := [t.state.code, t.key, t.gain] ++ optWord t.pushed ++ [t.level] ++ optWord t.spillAt ++ [flag t.killed]

/-! Messages and acknowledgments. -/

def Body.words : Body → List Nat
  | .read op pos size member units => [0, op, pos, size, member, units.toNat]
  | .fill op tag line takes => [1, op, tag, line] ++ listWords (fun t => [t.1, t.2.1, t.2.2]) takes
  | .write post kind data => [2, post, kind] ++ byteWords data
  | .writeback post data mask => [3, post] ++ wordsOf 16 data.toNat ++ wordsOf 2 mask.toNat
  | .writeCmp post data want => [4, post] ++ byteWords data ++ byteWords want
  | .atomic op sub fmt b c => [5, op, sub, fmt] ++ wordsOf 2 b ++ wordsOf 2 c
  | .spawn op pc x1 x2 x3 x4 x5 rm fmode => [6, op, pc.toNat, x1.toNat, x2.toNat, x3.toNat, x4.toNat, x5.toNat, rm, flag fmode]
  | .lnGo op launch x y lw lh pc x1 x2 rm fmode => [7, op, launch, x, y, lw, lh, pc.toNat, x1.toNat, x2.toNat, rm, flag fmode]
  | .push op launch index key => [8, op, launch, index, key]
  | .taskEnd launch index => [9, launch, index]
  | .gain post launch index sub b mode seed srcnt => [10, post, launch, index, sub, b, mode, seed.toNat, srcnt.toNat]
  | .depDec post launch index => [11, post, launch, index]
  | .stealRequest launch thief => [12, launch, thief]
  | .stolen launch index key item => [13, launch, index, key] ++ wordsOf 8 item
  | .stealAck launch index => [14, launch, index]
  | .stealRefuse launch index => [15, launch, index]
  | .stealNone launch => [16, launch]
def Spot.words (p : Spot) : List Nat := p.home.code ++ wordsOf 2 p.addr ++ [p.va, p.page] ++ optWord p.leaf
def Msg.words (m : Msg) : List Nat :=
  [m.id, m.src] ++ m.home.code ++ wordsOf 2 m.addr ++ [m.va] ++ optWord m.tag ++ optWord m.leaf ++ [m.page, flag m.withdrawn + 2 * flag m.line] ++
  listWords (fun (c : Nat × Spot) => c.1 :: c.2.words) m.cut.toList ++ listWords (fun n => [n]) m.passed ++ m.body.words
def BankLine.words (l : BankLine) : List Nat := [l.line, flag l.dirty]
def Ack.words (a : Ack) : List Nat := [a.id, a.src, a.post, flag a.rejected + 2 * flag a.task]
def Spilled.words : Spilled → List Nat
  | .request m => 0 :: m.words
  | .result slot op => [1, slot, op]
  | .ack a => 2 :: a.words

/-! VFs, launches, links, the package. -/

def Command.words (c : Command) : List Nat := [c.op, c.tile, c.ctx] ++ listWords (fun n => [n]) c.wait
def Vf.words (v : Vf) : List Nat :=
  [v.clusters.toNat] ++ wordsOf 6 v.banks.toNat ++ wordsOf 6 v.channels.toNat ++ [v.viterbi.toNat] ++ wordsOf 2 v.fabric.toNat ++
  ((List.range 9).map fun r => mapGet 0 v.minima r) ++ [v.defer, v.weight, intWord v.deficit, v.tableGen, v.launchNo.toNat] ++
  ((List.range 8).map fun c => mapGet 0 v.contexts c) ++ ((List.range 256).map fun i => (mapGet 0 v.targets i).toNat) ++
  ((List.range 64).flatMap fun g => let ms := mapGet [] v.groups g
    ms.length :: (List.range 8).map fun i => ms.getD i 0) ++
  [v.lqbase.toNat, v.lqPort, v.lqtail.toNat, v.lqhead.toNat, v.evq.toNat, v.log.toNat, v.ien.toNat, v.wctx.toNat, v.cmda.toNat, v.cmdb.toNat, v.cmdc.toNat,
    flag v.cmdLost + 2 * flag v.cmdErr, flag v.frozen + 2 * flag v.flrDone, flag v.logFull, v.interrupts] ++
  listWords Command.words v.command.toList ++ listWords (fun (w : VfReset) => [w.until_.toNat, flag w.cleared]) v.reset.toList ++
  listWords (fun n => [n]) v.halfRate
def Launch.words (l : Launch) : List Nat :=
  [l.vf, l.number.toNat, l.ctx, l.ox, l.oy, l.lw, l.lh, l.scr, l.xb, l.entry.toNat, l.seed.toNat, l.tbr.toNat, l.tolM, intWord l.tolE] ++
  optWord l.tasks ++ [flag l.fmode + 2 * flag l.deadline + 4 * flag l.race + 8 * flag l.table + 16 * flag l.started + 32 * flag l.stalled + 64 * flag l.faulted +
    128 * flag l.ended + 256 * flag l.touched, l.startAt, l.stall] ++ l.term.code ++ [l.skipTo] ++
  listWords (fun (p : Snapshot) => [p.epoch, p.cluster] ++ wordsOf 6 p.part.toNat) l.snaps
def LinkPort.words (p : LinkPort) : List Nat :=
  [flag p.down + 2 * flag p.frozen + 4 * flag p.retired + 8 * flag p.nak, p.expect.toNat, p.failures, p.sendSeq.toNat, p.sendFails] ++
  listWords (fun o => [o.1.toNat, o.2]) p.out ++ listWords (fun w => [w.toNat]) p.retries ++ listWords (fun d => wordsOf 30 d.toNat) p.delivered ++
  listWords (fun (a : Option (List Byte × BitVec 5)) => [flag a.isSome, (a.getD ([], 0)).2.toNat] ++ byteWords (a.getD ([], 0)).1) p.answers
def Throttle.words (t : Throttle) : List Nat := [t.die, t.mhz, t.at_.toNat, flag t.hard]
/-- R331: the mode of host port B as a number. -/
def portCode : PortMode → Nat
  | .off => 0
  | .upstream => 1
  | .pool => 2
def State.packageWords (s : State) : List Nat :=
  [s.cycle, s.dt.toNat, s.mhz, s.served, s.linkId.toNat, flag s.poolDown, s.net.length, s.acks.length] ++ wordsOf 6 s.retired.toNat ++ wordsOf 6 s.pooled.toNat ++
  wordsOf 6 s.pooledBanks.toNat ++ wordsOf 6 s.lostPool.toNat ++ [portCode s.portB, s.trust.frozenCores.toNat] ++ listWords Throttle.words s.throttles ++
  wordsOf 32 s.trust.meshDown.toNat ++ listWords (fun (p : Nat × List Word) => p.1 :: listWords (fun w => [w.toNat]) p.2) s.trust.meshRetries

end Sys2Proof.Machine
end

