-- ==== Sys2Proof/Machine/Save.lean ====
section
/-! DEFINITION. Save areas (R304, R324, R325): a tile's saved state in its parts and back, and the spill queue (R253, R323). The layout within a part
is the model's (log 36). -/

namespace Sys2Proof.Machine

/-! Parts. -/

/-- The cells of entries of `size` bytes, each at its key. -/
def imageOf {w : Nat} (base size : Nat) (m : Map (BitVec w)) : Memory :=
  m.flatMap fun p => writeBytes [] (base + size * p.1) (natToBytes size p.2.toNat)

/-- The cells of 8-byte words in a row. -/
def imageWords (base : Nat) (ws : List Nat) : Memory := writeBytes [] base (ws.flatMap (natToBytes 8))

/-- The cells of `n` bytes of a memory, from 0 up. -/
def sliceFrom (m : Memory) (base n : Nat) : Memory :=
  (m.filter fun c => decide (base ≤ c.1) && decide (c.1 < base + n)).map fun c => (c.1 - base, c.2)

/-- A number as cells from `base` up, and the number that cells from 0 up hold. -/
def imageNat (base n : Nat) : Memory := writeBytes [] base (natToBytes (Nat.log2 n / 8 + 1) n)
def natOfCells (m : Memory) : Nat := m.foldl (fun n c => n + c.2.toNat * 2 ^ (8 * c.1)) 0

/-- The entries of `size` bytes that cells hold. -/
def mapOfCells (w size : Nat) : Memory → Map (BitVec w)
  | [] => []
  | (a, b) :: rest =>
    let v := BitVec.ofNat w (b.toNat * 2 ^ (8 * (a % size)))
    match mapOfCells w size rest with
    | (k, u) :: more => if k = a / size then (k, u ||| v) :: more else (a / size, v) :: (k, u) :: more
    | [] => [(a / size, v)]

/-- The place of a part of `n` strands, and of the parts behind them. -/
def strandPart (j : Nat) : Nat := 589824 + 9232 * j
def histPart : Nat := 663680
def hbasePart : Nat := 664704
def halyardPart : Nat := 664720
def slotPart : Nat := 664912
def notesPart : Nat := 664928
/-- The bytes of the notes. -/
def notesSize : Nat := 6816
def portPart (j : Nat) : Nat := 671744 + 4096 * j

/-! Notes: what has no place of its own in the register files, as fields of a width and a value, lowest first. -/

/-- Fields as one number, each cut to its width. -/
def packBits : List (Nat × Nat) → Nat
  | [] => 0
  | (w, v) :: rest => v % 2 ^ w + 2 ^ w * packBits rest

/-- How many bits fields take. -/
def bitsOf (fields : List (Nat × Nat)) : Nat := (fields.map Prod.fst).sum

/-- The next `w` bits of a number and what follows them; and the next `k` values of `w` bits. -/
def takeBits (w n : Nat) : Nat × Nat := (n % 2 ^ w, n / 2 ^ w)
def takeMany (w : Nat) : Nat → Nat → List Nat × Nat
  | 0, n => ([], n)
  | k + 1, n => (n % 2 ^ w :: (takeMany w k (n / 2 ^ w)).1, (takeMany w k (n / 2 ^ w)).2)

/-- R183: a record without its number and address, in ten bits, and back. -/
def TlRec.code (x : TlRec) : Nat := x.state + 4 * x.flags.toNat + 128 * flag x.fmode + 256 * flag x.far + 512 * flag x.rep
def TlRec.ofCode (num c : Nat) : TlRec :=
  { num := num, state := c % 4, flags := BitVec.ofNat 5 (c / 4), fmode := c / 128 % 2 == 1, far := c / 256 % 2 == 1, rep := c / 512 % 2 == 1 }

/-- A failure that is still to be reported, whose address is kept (R182). -/
def TlRec.owing (x : TlRec) : Bool := x.state == 3 && !x.rep

/-- A timeline without the addresses that nothing reads any more. -/
def Timeline.clean (t : Timeline) : Timeline := { t with recs := t.recs.map fun x => if x.owing then x else { x with addr := 0 } }

/-- A timeline as fields: its number, the records of its last 64 numbers, older ones with their numbers, the addresses of failures. -/
def Timeline.fields (t : Timeline) : List (Nat × Nat) :=
  let recent := t.recs.filter fun x => decide (t.last < x.num + 64)
  let older := t.recs.filter fun x => !decide (t.last < x.num + 64)
  (64, t.last) :: recent.map (fun x => (10, x.code)) ++ [(5, older.length)] ++ older.flatMap (fun x => [(64, x.num), (10, x.code)]) ++
  (t.recs.filter TlRec.owing).map fun x => (64, x.addr.toNat)

/-- Addresses given to the failures among records, in order. -/
def giveAddresses : List TlRec → List Nat → List TlRec
  | [], _ => []
  | x :: xs, [] => x :: xs
  | x :: xs, a :: as => if x.owing then { x with addr := BitVec.ofNat 64 a } :: giveAddresses xs as else x :: giveAddresses xs (a :: as)

/-- The timeline that bits hold, and the bits behind it. -/
def Timeline.ofBits (n : Nat) : Timeline × Nat :=
  let (last, n) := takeBits 64 n
  let (recent, n) := takeMany 10 (min 64 last) n
  let (k, n) := takeBits 5 n
  let (older, n) := takeMany 74 k n
  let recs := older.map (fun c => TlRec.ofCode (c % 2 ^ 64) (c / 2 ^ 64)) ++ recent.zipIdx.map fun c => TlRec.ofCode (last - min 64 last + 1 + c.2) c.1
  let (addrs, n) := takeMany 64 (recs.countP TlRec.owing) n
  ({ last := last, recs := giveAddresses recs addrs }, n)

/-- Whether a timeline is written: one that its fields give back, as those are which the counters' rules lead to (R181, R183). -/
def Timeline.written (t : Timeline) : Bool := (Timeline.ofBits (packBits t.fields)).1 == t.clean
def Timeline.note (t : Timeline) : List (Nat × Nat) := (1, flag t.written) :: if t.written then t.fields else []
/-- A noted timeline put back; one that was not written stays. -/
def Timeline.readNote (t : Timeline) (n : Nat) : Timeline × Nat := if n % 2 = 1 then Timeline.ofBits (n / 2) else (t, n / 2)

/-- R21, R323: the pending bits of the x and v registers and of LA. -/
def Strand.pendingBits (r : Strand) : List (Nat × Nat) :=
  let of (f : LongOp → Nat) : Nat := (r.longs.map f).foldl (· ||| ·) 0
  [(64, of fun o => match o.dest with
    | .x n => 2 ^ n
    | .xPair n => 3 * 2 ^ n
    | _ => 0),
   (32, of fun o => match o.dest with
    | .v n => 2 ^ n
    | _ => 0),
   (1, of fun o => flag (o.dest == .la))]

/-- What is noted of a strand: its pending bits, whether a span is broken (R234), its timelines. -/
def Strand.note (r : Strand) : List (Nat × Nat) := r.pendingBits ++ (1, flag r.broken) :: (r.tlc.note ++ r.tlm.note ++ r.tle.note ++ r.tlg.note)
/-- The noted parts of a strand put back; what is pending follows its outstanding operations. -/
def Strand.readNote (r : Strand) (n : Nat) : Strand × Nat :=
  let (b, n) := takeBits 1 (n / 2 ^ 97)
  let (c, n) := r.tlc.readNote n
  let (m, n) := r.tlm.readNote n
  let (e, n) := r.tle.readNote n
  let (g, n) := r.tlg.readNote n
  ({ r with broken := b == 1, tlc := c, tlm := m, tle := e, tlg := g }, n)

/-- The strands of a tile with what was noted of them. -/
def readNotes : List Strand → Nat → List Strand × Nat
  | [], n => ([], n)
  | r :: rs, n =>
    let (r, n) := r.readNote n
    let (rs, n) := readNotes rs n
    (r :: rs, n)

/-- A place in memory, and the place moved there. -/
def Place.offset : Place → Nat
  | .store a => a
  | .handle _ _ o => o
  | .slot n => n
def Place.moved (o : Nat) : Place → Place
  | .store _ => .store o
  | .handle i e _ => .handle i e o
  | .slot _ => .slot o

/-- R176, R180: a port's pattern and position, and a port with them. The entry it read (R306) stays with the tile. -/
def Port.note (p : Port) : List (Nat × Nat) :=
  [(64, p.base.offset), (16, p.n0), (16, p.n1), (32, (BitVec.ofInt 32 p.stride0).toNat), (32, (BitVec.ofInt 32 p.stride1).toNat), (32, p.next), (32, p.fetch)]
def Port.readNote (p : Port) (n : Nat) : Port :=
  let at_ (i w : Nat) : Nat := n / 2 ^ i % 2 ^ w
  { p with
    base := p.base.moved (at_ 0 64), n0 := at_ 64 16, n1 := at_ 80 16, stride0 := (BitVec.ofNat 32 (at_ 96 32)).toInt
    stride1 := (BitVec.ofNat 32 (at_ 128 32)).toInt, next := at_ 160 32, fetch := at_ 192 32 }

/-- The ports of a tile's strands with what was noted of them, 224 bits each. -/
def readPortNotes : List Strand → Nat → List Strand
  | [], _ => []
  | r :: rs, n =>
    { r with ports := r.ports.zipIdx.map fun q => (q.1.1, q.1.2.readNote (n / 2 ^ (224 * q.2))) } :: readPortNotes rs (n / 2 ^ (224 * r.ports.length))

/-! A tile's image. -/

/-- The control registers of a strand, as words. -/
def Strand.controls (r : Strand) : List Nat :=
  [r.pc.toNat, r.status.toNat, r.seed.toNat, r.srcnt.toNat, r.ovh.toNat, r.tvb.toNat, r.epc.toNat, r.cause.toNat, r.badaddr.toNat, r.tbr.toNat, r.depth,
    r.hp.toNat, r.esc.toNat, flag r.thr]

/-- The registers of a strand: 9,232 bytes. -/
def Strand.image (base : Nat) (r : Strand) : Memory :=
  imageOf base 256 r.v ++ imageOf (base + 8192) 8 r.x ++ imageOf (base + 8704) 8 r.k ++ imageOf (base + 8768) 2 r.w ++
  writeBytes [] (base + 8896) (natToBytes 48 r.la.toNat ++ natToBytes 10 r.laCarry.toNat) ++ imageWords (base + 8960) r.controls ++
  imageWords (base + 9072) ((List.range 4).flatMap fun d => (mapGet {} r.spans d).words)

/-- The registers of a strand read back from cells at 0. -/
def Strand.fromImage (r : Strand) (m : Memory) : Strand :=
  let word (i : Nat) : Nat := readNat m (8960 + 8 * i) 8
  let span (d : Nat) : Span :=
    let at_ (i : Nat) : Word := BitVec.ofNat 64 (readNat m (9072 + 40 * d + 8 * i) 8)
    ⟨at_ 0, at_ 1, at_ 2, at_ 3, at_ 4⟩
  { r with
    v := mapOfCells 2048 256 (sliceFrom m 0 8192), x := mapOfCells 64 8 (sliceFrom m 8192 512), k := mapOfCells 64 8 (sliceFrom m 8704 64)
    w := mapOfCells 16 2 (sliceFrom m 8768 128), la := BitVec.ofNat 384 (readNat m 8896 48), laCarry := BitVec.ofNat 80 (readNat m 8944 10)
    pc := BitVec.ofNat 32 (word 0), status := BitVec.ofNat 64 (word 1), seed := BitVec.ofNat 64 (word 2), srcnt := BitVec.ofNat 64 (word 3)
    ovh := BitVec.ofNat 64 (word 4), tvb := BitVec.ofNat 64 (word 5), epc := BitVec.ofNat 64 (word 6), cause := BitVec.ofNat 64 (word 7)
    badaddr := BitVec.ofNat 64 (word 8), tbr := BitVec.ofNat 64 (word 9), depth := word 10, hp := BitVec.ofNat 4 (word 11), esc := BitVec.ofNat 4 (word 12)
    thr := word 13 == 1
    spans := ((List.range 4).map fun d => (d, span d)).filter fun p => p.2 != {} }

/-- The buffers of a strand's input ports: four elements each. -/
def Strand.portImage (base : Nat) (r : Strand) : Memory :=
  r.ports.flatMap fun q => q.2.buf.zipIdx.flatMap fun e => writeBytes [] (base + 1024 * q.1 + 256 * e.2) (natToBytes 256 e.1.data.toNat)
def Strand.portsFromImage (r : Strand) (m : Memory) : Strand :=
  { r with ports := r.ports.map fun q =>
      (q.1, { q.2 with buf := q.2.buf.zipIdx.map fun e => { e.1 with data := BitVec.ofNat 2048 (readNat m (1024 * q.1 + 256 * e.2) 256) } }) }

/-- The state of a slot: its owner, and whether it is to be released (R135, R136). -/
def OSlot.code (o : OSlot) : Nat := (match o.owner with
  | some n => n % 128 + 1
  | none => 0) + 256 * flag o.release
def OSlot.ofCode (o : OSlot) (c : Nat) : OSlot := { o with owner := if c % 256 = 0 then none else some (c % 256 - 1), release := c / 256 == 1 }

/-- The notes of a tile: those of its strands behind a bit that says they have room, then the patterns of its ports behind another. Eight strands'
notes have room whatever their timelines are; R324's table gives the patterns no part, and what finds no room stays in the tile (log 36). -/
def State.saveNotes (s : State) (tile : Nat) : Nat :=
  let strands := (strandsOf tile).flatMap fun i => (s.strand i).note
  let ports := (strandsOf tile).flatMap fun i => (s.strand i).ports.flatMap fun q => q.2.note
  if 8 * notesSize < bitsOf strands + 2 then 0
  else packBits ((1, 1) :: strands ++ if 8 * notesSize < bitsOf strands + bitsOf ports + 2 then [(1, 0)] else (1, 1) :: ports)

/-- The strands of a tile with what the notes hold of them. -/
def restoreNotes (rs : List Strand) (n : Nat) : List Strand :=
  if n % 2 = 0 then rs
  else
    let (rs, n) := readNotes rs (n / 2)
    if n % 2 = 0 then rs else readPortNotes rs (n / 2)

/-- R324: a tile's saved state but for its spill queue. -/
def State.saveImage (s : State) (tile : Nat) : Memory :=
  let t := s.tile tile
  t.store ++
  ((List.range 8).flatMap fun n => (slotAt t n).mem.map fun c => (327680 + 16384 * n + c.1, c.2)) ++
  imageOf 458752 4 t.banks ++
  ((List.range 8).flatMap fun j => (s.strand (tile * 8 + j)).image (strandPart j)) ++
  imageOf histPart 4 t.hist ++ imageOf hbasePart 2 t.hbase ++ imageOf halyardPart 1 t.halyard ++
  writeBytes [] slotPart ((List.range 8).flatMap fun n => natToBytes 2 (slotAt t n).code) ++ imageNat notesPart (s.saveNotes tile) ++
  (List.range 8).flatMap fun j => (s.strand (tile * 8 + j)).portImage (portPart j)

/-- R304, R324: where the save area of a tile stands. -/
def State.saveBase (s : State) (tile : Nat) : Nat :=
  let l := s.launchOf tile
  natBits (s.descriptor l.vf l.ctx) 383 320 + tile * Config.saveBytes

/-- The part of an area before its spill queue. -/
def saveSpill : Nat := 704512

/-- R358, R361: uncorrectable data in the word that gives a tile's save area, or, for a restore, in the area too. -/
def State.saveLost (s : State) (tile : Nat) (restore : Bool) : Option (Nat × Nat) :=
  let l := s.launchOf tile
  (s.lostAt (mapGet 0 (s.vf l.vf).contexts l.ctx + 40) 8).orElse fun _ => if restore then s.lostAt (s.saveBase tile) saveSpill else none

/-- R325: a tile's state read back from its save area. A strand that was frozen meanwhile stays as it is (R353); the barrier bits are on the wires
(R201). -/
def State.readSaveArea (s : State) (tile : Nat) : State :=
  let m := sliceFrom s.mem (s.saveBase tile) saveSpill
  let t := s.tile tile
  let t := { t with
    store := sliceFrom m 0 327680
    banks := mapOfCells 32 4 (sliceFrom m 458752 131072), hist := mapOfCells 32 4 (sliceFrom m histPart 1024)
    hbase := mapOfCells 16 2 (sliceFrom m hbasePart 8) }
  let t := (List.range 8).foldl (fun t n =>
    setSlot t n (({ slotAt t n with mem := sliceFrom m (327680 + 16384 * n) 16384 } : OSlot).ofCode (readNat m (slotPart + 2 * n) 2))) t
  let rs := (strandsOf tile).map s.strand
  let noted := restoreNotes rs (natOfCells (sliceFrom m notesPart notesSize))
  (noted.zipIdx.foldl (fun s p =>
    let i := tile * 8 + p.2
    if (s.strand i).run = .frozen then s
    else s.setStrand i ((p.1.fromImage (sliceFrom m (strandPart p.2) 9232)).portsFromImage (sliceFrom m (portPart p.2) 4096))) (s.setTile tile t))

/-- The data of a message, at most 256 bytes. -/
def Body.payload : Body → List Byte
  | .write _ _ data => data
  | .writeback _ data mask => natToBytes 128 data.toNat ++ natToBytes 16 mask.toNat
  | .writeCmp _ data want => data ++ want
  | b => b.words.flatMap (natToBytes 8)

/-- The number by which its source knows a message, its kind, and how many bytes it asks for or carries. -/
def Body.header : Body → List (Nat × Nat)
  | .read op _ size .. => [(64, op), (3, 0), (3, 0), (9, size)]
  | .fill op .. => [(64, op), (3, 1), (3, 0), (9, 128)]
  | .write post kind data => [(64, post), (3, 2), (3, kind), (9, data.length)]
  | .writeback post .. => [(64, post), (3, 3), (3, 0), (9, 128)]
  | .writeCmp post data _ => [(64, post), (3, 4), (3, 0), (9, data.length)]
  | .atomic op .. => [(64, op), (3, 5), (3, 0), (9, 0)]
  | _ => [(64, 0), (3, 6), (3, 0), (9, 0)]

/-- A message's 320 bytes in the spill queue: a header of 64 bytes, and 256 of data. -/
def State.spillImage (s : State) (tile : Nat) (m : Spilled) : List Byte :=
  let part (head : List (Nat × Nat)) (data : Nat) : List Byte := natToBytes 64 (packBits head) ++ natToBytes 256 data
  match m with
  | .request m => part ([(2, 0), (13, m.src), (64, m.id), (64, m.addr), (64, m.va)] ++ m.body.header) (bytesToNat m.body.payload)
  | .result slot op =>
    let data := match (s.strand (tile * 8 + slot)).longs.find? fun o => o.id == op with
      | some o => o.data.toNat
      | none => 0
    part [(2, 1), (3, slot), (64, op)] data
  | .ack a => part [(2, 2), (13, a.src), (64, a.id), (64, a.post), (1, flag a.rejected), (1, flag a.task)] 0

/-- A part of device memory replaced by cells; a retired channel takes none (R361). -/
def State.replaceDevice (s : State) (base n : Nat) (cells : Memory) : State :=
  { s with
    mem := if s.lostChannel base then s.mem
      else cells.foldl (fun m c => writeByte m c.1 c.2) (s.mem.filter fun c => decide (c.1 < base) || decide (base + n ≤ c.1))
    badWords := if s.lostChannel base then s.badWords else clearBad s.badWords base n }

/-- R323 step 5: a tile's state goes to its save area. -/
def State.writeSaveArea (s : State) (tile : Nat) : State :=
  s.replaceDevice (s.saveBase tile) saveSpill ((s.saveImage tile).map fun c => (s.saveBase tile + c.1, c.2))

/-- What has changed in a tile that is saved goes to its save area. -/
def State.resave (s : State) (tile : Nat) : State := if (s.tile tile).preempt = .saved then s.writeSaveArea tile else s

/-- R323: a message joins a tile's spill queue, which lies in its save area; where it is full the message waits. -/
def State.divert (s : State) (tile : Nat) (m : Spilled) (gone : State → State) : State :=
  if s.spillFull tile then s
  else
    let at_ := s.saveBase tile + saveSpill + 320 * (s.tile tile).spill.length
    let image := s.spillImage tile m
    let s := gone s
    (s.setTile tile { s.tile tile with spill := (s.tile tile).spill ++ [m] }).writeDevice at_ image

end Sys2Proof.Machine
end

