-- ==== Sys2Proof/Machine/Home.lean ====
section
/-! DEFINITION. What homes do with requests (R160, R167, R241, R253, R363), and how answers and results come back (R21, R163, R167). -/

namespace Sys2Proof.Machine

/-- An acknowledgment leaves for a strand (R163, R197). -/
def State.ack (s : State) (src post : Nat) (rejected task : Bool) : State :=
  { s with acks := s.acks ++ [⟨s.fresh, src, post, rejected, task⟩], fresh := s.fresh + 1 }

/-- Why a home does not perform an access at a place (R163, R315, R339, R340, R361, R363): the violation kind of the data a read would deliver. -/
def State.refusalAt (s : State) (m : Msg) (h : Home) (addr : Nat) (refused : Bool) : Option Nat :=
  let vf := (s.launchOf (m.src / 8)).vf
  match h with
  | .tile t => if (s.tile t).launch == (s.tile (m.src / 8)).launch then none else some 3
  | .channel c => if m.withdrawn || s.retired.getLsbD c || (m.tag.any fun tag => !s.reaches (tag / 8) addr) then some 4 else none
  | .fabric 65536 => some 5
  | .fabric _ => if refused || !s.fabricUp vf then some 5 else none
  | .hoist _ => none

/-- Why an access is not performed: its first place that refuses it. -/
def State.refusal (s : State) (m : Msg) (refused : Bool) : Option Nat :=
  (m.parts m.bytes).findSome? fun p => s.refusalAt m p.1.home p.1.addr refused

/-- R354: the physical address concerned; 0 where the data is not in device memory. -/
def violationAddr (h : Home) (addr : Nat) : Nat :=
  match h with
  | .channel _ => addr
  | _ => 0

/-- The same with the address of the data that it was to deliver, `skip` bytes into the message (R353, R354). -/
def State.refusedData (s : State) (m : Msg) (refused : Bool) (skip : Nat) : Option (Nat × Nat) :=
  (m.parts m.bytes).findSome? fun p => (s.refusalAt m p.1.home p.1.addr refused).map fun k => (k, violationAddr p.1.home (p.1.addr + skip))

/-- Uncorrectable data among the 4-byte units of an operation's data that a read asks for (R358); a single one is the whole read. -/
def State.unitsBad (s : State) (m : Msg) (pos size : Nat) (units : Word) : Option (Nat × Nat) :=
  let h := m.home
  let addr := m.addr
  if units = 1 then s.partsBad (m.parts size)
  else (List.range 64).findSome? fun k =>
    let lo := Nat.max pos (4 * (pos / 4 + k))
    let hi := Nat.min (pos + size) (4 * (pos / 4 + k) + 4)
    if units.getLsbD k then s.homeBadAt h (addr + (lo - pos)) (hi - lo) else none

/-- An answer reaches an operation: its data at a place, or what was uncorrectable. -/
def LongOp.answer (o : LongOp) (pos member : Nat) (bs : List Byte) (bad : Option (Nat × Nat)) : LongOp :=
  let o := { o with waiting := o.waiting - 1, bad := o.bad.orElse fun _ => bad }
  if member = 0 then { o with data := putData o.data pos bs }
  else { o with members := o.members.zipIdx.map fun p => if p.2 + 1 = member then putData p.1 pos bs else p.1 }

/-- A write at a home: logged in the dirty-page log first, then performed, then in the race ring. -/
def State.performWrite (s : State) (m : Msg) (kind : Nat) (bytes : List Byte) : State :=
  let s := s.partsWrite (m.tag.getD 0) (m.parts bytes.length) bytes
  match m.home with
  | .tile t => s.raceLog t m.src kind bytes.length m.addr
  | _ => s

/-- R241, R363: a home performs one request, or refuses it. What an access refused or met uncorrectable is recorded with the address of the data that it
was to deliver (R353, R354). A conditional store reads what it compares: uncorrectable data freezes its strand, and nothing is written (R358). -/
def State.serve (s : State) (m : Msg) (refused : Bool) : State :=
  match m.body with
  | .read op pos size member units =>
    let bad := (s.refusedData m refused 0).orElse fun _ => s.unitsBad m pos size units
    s.onLong m.src op fun o => o.answer pos member (s.partsRead (m.parts size)) bad
  | .fill op tag line takes =>
    let bytes := s.homeRead m.home m.addr 128
    let first := (takes.head?.map fun t => t.2.1).getD 0
    let bad := (s.refusedData m refused first).orElse fun _ =>
      takes.findSome? fun t => s.homeBadAt m.home (m.addr + t.2.1) t.2.2
    let ok := (s.refusal m refused).isNone && (s.homeBadAt m.home m.addr 128).isNone && !s.diverts (m.src / 8)
    let s := s.onLong m.src op fun o =>
      takes.foldl (fun o t => { o with data := putData o.data t.1 ((bytes.drop t.2.1).take t.2.2) })
        (o.answer 0 0 [] bad)
    if ok then s.l1Fill m tag line (s.lineBytes m bytes) else s
  | .write p kind bytes =>
    if (s.refusal m refused).isSome then s.ack m.src p true false else (s.performWrite m kind bytes).ack m.src p false false
  | .writeback p data mask =>
    if (s.refusal m refused).isSome then s.ack m.src p true false
    else
      let s := s.logWrite (m.tag.getD 0) m.va m.leaf
      let s := (bitRuns mask 0 128).foldl (fun s run =>
        s.homeWrite m.home (m.addr + run.1) ((List.range run.2).map fun i => byteOf data (run.1 + i))) s
      s.ack m.src p false false
  | .writeCmp p bytes want =>
    if (s.refusal m refused).isSome then s.ack m.src p true false
    else match s.partsBad (m.parts bytes.length) with
    | some (kind, a) => (s.freeze m.src kind a).ack m.src p false false
    | none =>
    if s.partsRead (m.parts bytes.length) = want then (s.performWrite m 4 bytes).ack m.src p false false
    else
      (match m.home with
      | .tile t => s.raceLog t m.src 5 bytes.length m.addr
      | _ => s).ack m.src p false false
  | .atomic op sub fmt b c =>
    let z := if sub = 9 then 16 else fmtWidth fmt / 8
    match (s.refusedData m refused 0).orElse fun _ => s.partsBad (m.parts z) with
    | some b => s.onLong m.src op fun o => o.answer 0 0 [] (some b)
    | none =>
      let old := bytesToNat (s.partsRead (m.parts z))
      let (v, fl) := atomicNew sub fmt old b c
      (s.performWrite m 6 (natToBytes z v)).onLong m.src op fun o =>
        { o.answer 0 0 [] none with data := BitVec.ofNat 2048 old, flags := fl }
  | _ => s

/-- Whether an access may write at its home. -/
def Msg.mayWrite (m : Msg) : Bool := m.body.rights.2

/-- A home serves one request: the earliest of its source, fairly between sources (R160, R222). A request for a tile that is saved or being
saved is diverted to its spill queue (R253, R323); one for another device first enters its port (R338), or is refused where no port is left (R339). Acts
on `message`, `refused`, `late` (the requests still on their way, log 33). -/
def execHomeRequestService (s : State) : Host.Outcome State Fault Refusal :=
  match s.message s.arg.message with
  | none => .next s
  | some m =>
    if (s.entersPort m).isSome then .next (s.sendOut m)
    else if !s.mayServe m then .next s
    else
      let divert : Option Nat := match m.home with
        | .tile t => if s.diverts t then some t else none
        | _ => none
      match divert with
      | some t => .next (s.divert t (.request m) fun s => (s.markPassed m.home m.src s.arg.late).dropMessage m.id)
      | none =>
        let t := ((m.homes.foldl (fun s h => s.markPassed h m.src s.arg.late) s).dropMessage m.id).linkServed m
        let t := (m.parts m.bytes).foldl (fun t p => t.bankAccess (s.launchOf (m.src / 8)).vf p.1.home p.1.addr m.mayWrite) t
        .next (t.serve m (s.arg.refused || s.unsent m))

/-- R161: what the completion of an `ld.acq` drops from the L1. -/
def Tile.acquired (t : Tile) (scope : Nat) (drop : Option (Nat × Nat × Nat)) : Tile :=
  let t := match drop with
    | some (tag, va, n) => t.dropBytes tag va n
    | none => t
  if 1 ≤ scope then t.dropClean else t

/-- R343: the sum of a replica load's members: in its format for `ld`, per 4-byte lane for vectors. -/
def replicaSum (o : LongOp) (fmode : Bool) : VReg × Flags :=
  match o.finish with
  | .scalar c =>
    let (v, fl) := sumMembers c fmode (o.members.map fun m => m.toNat % 2 ^ fmtWidth c)
    (BitVec.ofNat 2048 v, fl)
  | _ =>
    (packV 32 ((List.range 64).map fun j => (o.members.map fun m => elemAt 32 m j).foldl (· + ·) 0), 0)

/-- R21, R353, R358: an outstanding operation's result is written, its flags are ORed, its pending bit is cleared; uncorrectable
data freezes the strand and is not written. -/
def State.completeLong (s : State) (who : Nat) (o : LongOp) : State :=
  let r := { s.strand who with longs := (s.strand who).longs.filter fun x => x.id != o.id }
  match o.bad with
  | some (kind, addr) => (s.setStrand who r).freeze who kind addr
  | none =>
    let (v, fl) := if o.members.isEmpty then (o.data, 0) else replicaSum o (statusFmode r.status)
    let s := s.setStrand who (raise (writeResult r o.dest o.finish v) (o.flags ||| fl))
    match o.acquire with
    | some scope => s.setTile (who / 8) ((s.tile (who / 8)).acquired scope o.drop)
    | none => s

/-- The outstanding operation that an event names, once its answers have come, reaches its strand; a tile that is saved or being saved diverts
it, once (R323). -/
def State.takeResult (s : State) (p : LongOp → Bool) : State :=
  let slot := s.arg.slot % 8
  let who := s.arg.tile * 8 + slot
  match (s.strand who).longs.find? fun o => o.id == s.arg.op && o.waiting == 0 && p o with
  | none => s
  | some o =>
    if !s.diverts s.arg.tile then s.completeLong who o
    else if (s.tile s.arg.tile).spill.contains (.result slot o.id) then s
    else s.divert s.arg.tile (.result slot o.id) id

/-- The result of a long-class instruction is written. Acts on `tile`, `slot`, `op`. -/
def execLongResultWrite (s : State) : Host.Outcome State Fault Refusal := .next (s.takeResult fun o => !o.answered && !o.atomic)

/-- R167: an atomic's acknowledgment: old value and flags. Acts on `tile`, `slot`, `op`. -/
def execAtomicAcknowledgment (s : State) : Host.Outcome State Fault Refusal :=
  .next (s.takeResult fun o => o.atomic)

/-- R186: the answer of an answered instruction. Acts on `tile`, `slot`, `op`. -/
def execAnswerReturn (s : State) : Host.Outcome State Fault Refusal :=
  .next (s.takeResult fun o => o.answered)

/-- R163: an acknowledgment arrives; a rejected store stays until it is reported, unless the strand that it is charged to has halted. -/
def Strand.acked (r : Strand) (post : Nat) (rejected : Bool) : Strand :=
  if rejected && r.run != .free && !r.posted.any (fun p => p.id == post && p.old) then
    { r with posted := r.posted.map fun p => if p.id = post then { p with rejected := true } else p }
  else { r with posted := r.posted.filter fun p => p.id != post }

/-- An acknowledgment reaches its strand. -/
def State.receiveAck (s : State) (a : Ack) : State := s.setStrand a.src ((s.strand a.src).acked a.post a.rejected)

/-- An acknowledgment of a kind reaches its strand; a tile that is saved or being saved diverts it (R323). -/
def State.takeAck (s : State) (task : Bool) : State :=
  match s.acks.find? fun a => a.id == s.arg.message && a.task == task with
  | none => s
  | some a =>
    let gone (s : State) : State := { s with acks := s.acks.filter fun b => b.id != a.id }
    if s.diverts (a.src / 8) then s.divert (a.src / 8) (.ack a) gone else (gone s).receiveAck a

/-- R325: what was diverted reaches its tile. -/
def State.deliverSpilled (s : State) (tile : Nat) : Spilled → State
  | .request m => s.serve m false
  | .ack a => s.receiveAck a
  | .result slot op =>
    match (s.strand (tile * 8 + slot)).longs.find? fun o => o.id == op with
    | some o => s.completeLong (tile * 8 + slot) o
    | none => s

/-- R163: a posted store or writeback is acknowledged. Acts on `message` (the acknowledgment). -/
def execStoreAcknowledgment (s : State) : Host.Outcome State Fault Refusal := .next (s.takeAck false)
/-- R197: a task message is acknowledged. Acts on `message`. -/
def execTaskMessageAcknowledgment (s : State) : Host.Outcome State Fault Refusal := .next (s.takeAck true)

/-- R22, R309, R310: a miss of the tile's cache ends: the cluster's cache has the entry, or the walk of its page, the first in its walker's queue, ends; one
that the cluster's cache has lost since joins a queue. With `far` it is a walk that the strand's engine work waits for, number `op` of them. Acts on
`tile`, `slot`, `far`, `op`. -/
def execWalkComplete (s : State) : Host.Outcome State Fault Refusal :=
  let tile := s.arg.tile
  let who := tile * 8 + s.arg.slot % 8
  match if s.arg.far then (s.strand who).engineWalks[s.arg.op]? else (s.strand who).walk with
  | none => .next s
  | some w =>
    .next (if !w.pending then s
      else match (if s.arg.far then none else s.tlbHit (s.cluster (clusterOf tile)).tlb w.tag w.va) with
      | some e => (s.fillTile tile e).setStrand who { s.strand who with walk := none }
      | none =>
        if w.walker.isNone then (if s.arg.far then s else s.startWalk who w.tag w.va)
        else if s.walkFirst tile w then s.endWalk tile w.tag w.va w.pool else s)

end Sys2Proof.Machine
end

