-- ==== Sys2Proof/Machine/Strands.lean ====
section
/-! DEFINITION. Strands: starting and ending them, halyard barriers, timed spans, traps, control registers and system calls
(R185 to R210, R214 to R234). -/

namespace Sys2Proof.Machine

/-! Starting a strand (R187 to R189, R218). -/

/-- R189: a strand that starts in a slot: what the start gives, and zero; the slot keeps its seed, its count, its timelines, its
operations in flight and the line writebacks charged to the strand that ran in it before (R163). -/
def Strand.start (r : Strand) (cycle : Nat) (pc : BitVec 32) (xs : Map Word) (status tvb ovh tbr : Word) : Strand :=
  { r with run := .running, pc := pc, x := xs, v := [], k := [], w := [], la := 0, laCarry := 0, status := status, tvb := tvb, ovh := ovh,
           epc := 0, cause := 0, badaddr := 0, tbr := tbr, depth := 0, hp := 0, esc := 0, thr := false, spans := [], ports := [],
           drainBad := [], posted := (r.posted.filter fun p => p.wb).map (fun p => { p with old := true }), longs := [], fence := none, hyIssue := none, task := none, walk := none, broken := false,
           startedAt := cycle + 1 }

/-- The scalar registers that a start gives, x1 upward. -/
def startRegs (vs : List Word) : Map Word := vs.zipIdx.foldl (fun m p => mapPut 0 m (p.2 + 1) p.1) []

/-- R187, R190, R218: a slot is free when its strand has halted in an earlier cycle or was never started. -/
def State.slotFree (s : State) (i : Nat) : Bool := (s.strand i).run == .free && (s.strand i).issuedAt != s.cycle + 1

/-- The lowest free slot of a tile. -/
def State.freeSlot (s : State) (tile : Nat) : Option Nat := (List.range 8).find? fun k => s.slotFree (tile * 8 + k)

/-- R187: `fork`. -/
def execFork (f : Fields) (s : State) : Host.Outcome State Fault Refusal :=
  issue (.fork f) s fun r =>
    let pc : BitVec 32 := (readX r f.c.toNat).truncate 32
    if pc.toNat % 4 ≠ 0 then s.takeTrap 5 0 (pc.zeroExtend 64)
    else match s.freeSlot s.myTile with
    | none => s.retire (writeX r f.d.toNat 8) f
    | some k =>
      let i := s.myTile * 8 + k
      let child := (s.strand i).start s.cycle pc (startRegs [readX r f.a.toNat, readX r f.b.toNat])
        (statusStart (statusRm r.status) (statusFmode r.status)) r.tvb r.ovh ((s.launchOf s.myTile).tbr.zeroExtend 64)
      (s.setStrand i child).retire (writeX r f.d.toNat (BitVec.ofNat 64 k)) f

/-- An answered instruction issues (R186): held while 8 long-class instructions are outstanding (R23). -/
def answered (i : Instr) (s : State) (k : Strand → State) : Host.Outcome State Fault Refusal :=
  issue i s fun r => if longRoom r false then k r else s

/-- The outstanding operation of an answered instruction whose answer is still to come. -/
def awaited (f : Fields) : LongOp := { id := 0, dest := destX f, answered := true, waiting := 1 }

/-- An answered instruction's message leaves. -/
def State.ask (s : State) (r : Strand) (f : Fields) (home : Home) (body : Nat → Body) : State :=
  (s.startLong r f (awaited f)).send s.cur home (body s.fresh)

/-- R186: an answer comes back. -/
def State.answer (s : State) (src op : Nat) (v : Word) : State :=
  s.onLong src op fun o => { o with waiting := 0, data := v.zeroExtend 2048 }

/-- R188: `spawn`. -/
def execSpawn (f : Fields) (s : State) : Host.Outcome State Fault Refusal :=
  answered (.spawn f) s fun r =>
    let c := (readX r f.c.toNat).toNat
    let l := s.launchOf s.myTile
    let x := natBits c 4 0
    let y := natBits c 12 8
    if l.w ≤ x ∨ l.h ≤ y then s.takeTrap 17 0 (readX r f.c.toNat)
    else
      let me := BitVec.ofNat 64 (l.fx s.myTile + l.fy s.myTile * 256)
      s.ask r f (.tile (tileAt (l.ox + x) (l.oy + y))) fun op =>
        .spawn op (branchTarget r f) (readX r f.a.toNat) (readX r (f.a.toNat + 1)) (readX r f.b.toNat) (readX r (f.b.toNat + 1)) me
          (statusRm r.status) (statusFmode r.status)

/-- R218: an `ln.go` that has arrived at a tile, or has started it in this cycle, comes before spawns: they bounce. -/
def State.goHolds (s : State) (t : Nat) : Bool := (s.tile t).lnGo.isSome || (s.tile t).lnGoAt == s.cycle + 1

/-- R353: a strand that starts while its VF is frozen is frozen too. -/
def State.joinFrozen (s : State) (i : Nat) : State := if (s.vf (s.launchOf (i / 8)).vf).frozen then s.freezeStrand i else s

/-- R188, R252: a start message is decided at its target, in no order with its source's accesses there: it takes the lowest free slot, or bounces from a full, pre-empted or reserved tile; from the
expiry of a deferral on a tile counts as pre-empted (log 36). Acts on `message`. -/
def execSpawnArrival (s : State) : Host.Outcome State Fault Refusal :=
  match s.message s.arg.message with
  | none => .next s
  | some m =>
    match m.home, m.body with
    | .tile t, .spawn op pc x1 x2 x3 x4 x5 rm fmode =>
      if !s.slotPassed t then .next s
      else
        let s := (s.dropMessage m.id).setTile t { s.tile t with spawnAt := s.cycle + 1 }
        .next (match (if !(s.tile t).preempt.runs || s.goHolds t then none else s.freeSlot t) with
          | none => s.answer m.src op 1
          | some k =>
            let r := s.strand (t * 8 + k)
            ((s.setStrand (t * 8 + k) (r.start s.cycle pc (startRegs [x1, x2, x3, x4, x5]) (statusStart rm fmode) r.tvb r.ovh
              ((s.launchOf t).tbr.zeroExtend 64))).joinFrozen (t * 8 + k)).answer m.src op 0)
    | _, _ => .next s

/-! Device-side launch (R199). -/

/-- R199: `ln.go`. -/
def execLnGo (f : Fields) (s : State) : Host.Outcome State Fault Refusal :=
  answered (.lnGo f) s fun r =>
    let a := (readX r f.a.toNat).toNat
    let l := s.launchOf s.myTile
    let x := natBits a 4 0
    let y := natBits a 12 8
    let w := natBits a 18 16
    let h := natBits a 22 20
    if x % 2 ^ w ≠ 0 ∨ y % 2 ^ h ≠ 0 ∨ l.w < x + 2 ^ w ∨ l.h < y + 2 ^ h then s.takeTrap 6 0 (readX r f.a.toNat)
    else
      s.ask r f (.tile (tileAt (l.ox + x) (l.oy + y))) fun op =>
        .lnGo op (s.launchKeyOf s.myTile) x y w h (branchTarget r f) (readX r f.b.toNat) (readX r f.c.toNat)
          (statusRm r.status) (statusFmode r.status)

/-- The package tiles of a field-relative rectangle. -/
def Launch.rect (l : Launch) (x y w h : Nat) : List Nat :=
  (List.range h).flatMap fun j => (List.range w).map fun i => tileAt (l.ox + x + i) (l.oy + y + j)

/-- R199: a tile is idle: every one of its slots is free, and none is reserved; a tile that is saved is no exception (log 36). -/
def State.tileIdle (s : State) (t : Nat) : Bool := (s.tile t).lnGo.isNone && (strandsOf t).all s.slotFree

/-- R199: the tiles of a subfield are reserved by a message. -/
def State.reserve (s : State) (ts : List Nat) (id : Nat) : State := ts.foldl (fun s t => s.setTile t { s.tile t with lnGo := some id }) s

/-- R199, R214: strand 0 of every tile of a subfield starts, and the reservation ends; on a saved tile the start goes to its save area, and the strand
issues after the restore (log 36). -/
def State.startGo (s : State) (l : Launch) (ts : List Nat) (pc : BitVec 32) (x1 x2 : Word) (rm : Nat) (fmode : Bool) : State :=
  ts.foldl (fun s t =>
    let r := s.strand (t * 8)
    (((s.setStrand (t * 8) (r.start s.cycle pc (startRegs [x1, x2]) (statusStart rm fmode) r.tvb r.ovh (l.tbr.zeroExtend 64))).setTile t
      { s.tile t with lnGo := none, lnGoAt := s.cycle + 1 }).joinFrozen (t * 8)).resave t) s

/-- R199, R214, R218: an `ln.go` arrives: it reserves every tile of its subfield, or nothing starts; the strands 0 of the reserved
tiles start together in a cycle c with c mod 8 = 0. It comes before the spawns of its cycle: after one has been granted it arrives in a
later cycle. It is in no order with its source's accesses (R252). Acts on `message`. -/
def execLnGoArrival (s : State) : Host.Outcome State Fault Refusal :=
  match s.message s.arg.message with
  | none => .next s
  | some m =>
    match m.body with
    | .lnGo op key x y w h pc x1 x2 rm fmode =>
      let l := s.launch key
      let ts := l.rect x y (2 ^ w) (2 ^ h)
      if !ts.all s.slotPassed || (ts.any fun t => (s.tile t).spawnAt == s.cycle + 1) then .next s
      else if ts.all fun t => (s.tile t).lnGo == some m.id then
        .next (if s.cycle % 8 = 0 then ((s.dropMessage m.id).startGo l ts pc x1 x2 rm fmode).answer m.src op 0 else s)
      else if ts.all s.tileIdle then
        .next (if s.cycle % 8 = 0 then ((s.dropMessage m.id).startGo l ts pc x1 x2 rm fmode).answer m.src op 0 else s.reserve ts m.id)
      else .next ((s.dropMessage m.id).answer m.src op 1)
    | _ => .next s

/-! The end of a strand (R190). -/

/-- R39: operations of a slot whose strand has halted no longer raise its flags. -/
def Tile.disown (t : Tile) (slot : Nat) : Tile :=
  { t with array := t.array.map fun o => if o.slot = slot then { o with live := false } else o }
def Cluster.disown (c : Cluster) (tile slot : Nat) : Cluster :=
  { c with encoder := c.encoder.map fun o => if o.tile = tile ∧ o.slot = slot then { o with live := false } else o }

/-- R190: `halt`: the nesting fault; the hold; rejected stores, then failed drains (log 52); then the end. -/
def execHalt (f : Fields) (s : State) : Host.Outcome State Fault Refusal :=
  issue (.halt f) s fun r =>
    if 0 < r.depth then s.takeTrap 16 r.depth 0
    else if !r.longs.isEmpty || r.posted.any (fun p => !p.rejected && !p.old) || !r.drains.isEmpty then s
    else match (r.posted.find? fun p => p.rejected).map fun p => p.addr with
    | some a => (s.setMe { r with posted := r.posted.filter fun p => !p.rejected }).takeTrap 10 0 a
    | none =>
      match r.drainBad.head?.map fun p => p.2 with
      | some a => (s.setMe { r with drainBad := [] }).takeTrap 10 0 a
      | none =>
        let s := s.endTask s.cur
        let t := s.myTile
        let s := s.setTile t (((s.tile t).releaseSlots s.mySlot).disown s.mySlot)
        let s := s.setCluster (clusterOf t) ((s.cluster (clusterOf t)).disown t s.mySlot)
        s.setMe { s.me with run := .free, ports := [], copies := s.me.copies.map (fun c => { c with live := false }), issuedAt := s.cycle + 1 }

/-! Halyard barriers (R200, R201). -/

/-- R200: the bounds fault, the illegal-instruction trap of an id above 3, or the barrier that the instruction names at its tile. -/
def hyOp (i : Instr) (f : Fields) (s : State) (k : Strand → Nat → State) : Host.Outcome State Fault Refusal :=
  issue i s fun r =>
    let size := readX r f.a.toNat
    let l := s.launchOf s.myTile
    if 3 < f.imm10.toNat then s.takeTrap 1 (bytesToNat (readBytes (s.tile s.myTile).store r.pc.toNat 4)) 0
    else if l.lw < natBits size.toNat 2 0 ∨ l.lh < natBits size.toNat 6 4 then s.takeTrap 6 0 size
    else k r (sizeKey size f.imm10.toNat)

/-- A tile's barrier bits changed. -/
def Tile.setHalyard (t : Tile) (key : Nat) (v : BitVec 2) : Tile := { t with halyard := mapPut 0 t.halyard key v }

def execHyArrive (f : Fields) (s : State) : Host.Outcome State Fault Refusal :=
  hyOp (.hyArrive f) f s fun _ key =>
    let t := s.tile s.myTile
    let s := s.setTile s.myTile (t.setHalyard key (halyardBits t key ||| 2))
    s.retire s.me f

/-- R201: one presentation of `hy.wait`. -/
def hyWaitStep (f : Fields) (s : State) (r : Strand) (key : Nat) : State :=
  let t := s.tile s.myTile
  let done := match r.hyIssue with
    | none => !halyardArrived t key
    | some _ => r.hyPassed
  let t0 := (r.hyIssue.getD s.dt).toNat
  let out (v : Word) : State := s.retire { writeX r f.d.toNat v with hyIssue := none } f
  if done then out 0
  else if t0 + (readX r f.b.toNat).toNat ≤ s.dt.toNat then out 1
  else if r.hyIssue.isSome then s
  else s.setMe { r with hyIssue := some s.dt, hyKey := key, hyPassed := false }

def execHyWait (f : Fields) (s : State) : Host.Outcome State Fault Refusal := hyOp (.hyWait f) f s (hyWaitStep f s)

def execHyTry (f : Fields) (s : State) : Host.Outcome State Fault Refusal :=
  hyOp (.hyTry f) f s fun r key => s.retire (writeX r f.d.toNat (if halyardArrived (s.tile s.myTile) key then 0 else 1)) f

/-- R201: a held `hy.wait` times out at its slot. Acts on the strand at hand. -/
def execHyWaitTimeout (s : State) : Host.Outcome State Fault Refusal :=
  match fetchAct s with
  | .run (.hyWait f) => if hyTimedOut s (.hyWait f) then execHyWait f s else .next s
  | _ => .next s

/-- R200, R217: the tiles of the aligned subfield of a size that holds a tile. -/
def Launch.subfield (l : Launch) (t lw lh : Nat) : List Nat :=
  l.rect (l.fx t / 2 ^ lw * 2 ^ lw) (l.fy t / 2 ^ lh * 2 ^ lh) (2 ^ lw) (2 ^ lh)

/-- R201: the barrier's next phase: P flips and ARR clears. -/
def Tile.flipHalyard (t : Tile) (key : Nat) : Tile := t.setHalyard key (if (halyardBits t key).getLsbD 0 then 0 else 1)

/-- R201: the held `hy.wait` instructions of a tile on a barrier learn that its phase has completed. -/
def State.releaseHy (s : State) (t key : Nat) : State :=
  (strandsOf t).foldl (fun s i =>
    let r := s.strand i
    if r.hyIssue.isSome && r.hyKey == key then s.setStrand i { r with hyPassed := true } else s) s

/-- R201: every tile of the subfield has arrived. Acts on `tile`, `lw`, `lh`, `id`. -/
def execHalyardPhaseComplete (s : State) : Host.Outcome State Fault Refusal :=
  let l := s.launchOf s.arg.tile
  let key := halyardKey s.arg.lw s.arg.lh s.arg.id
  let ts := l.subfield s.arg.tile s.arg.lw s.arg.lh
  if (s.tile s.arg.tile).launch.isNone || decide (l.lw < s.arg.lw) || decide (l.lh < s.arg.lh) || decide (4 ≤ s.arg.id) ||
      !ts.all fun t => halyardArrived (s.tile t) key then .next s
  else .next (ts.foldl (fun s t => (s.setTile t ((s.tile t).flipHalyard key)).releaseHy t key) s)

/-! Timed spans (R203, R204, R226 to R234). -/

def bit4 (d : Nat) : BitVec 4 := BitVec.ofNat 4 (2 ^ d)
/-- The bits below a level. -/
def below4 (d : Nat) : BitVec 4 := BitVec.ofNat 4 (2 ^ d - 1)

/-- R98, R203, R233: `span.open`; during a deferral one that would open level 0 is held, before its own checks. -/
def execSpanOpen (f : Fields) (s : State) : Host.Outcome State Fault Refusal :=
  issue (.spanOpen f) s fun r =>
    let d := r.depth
    let lo := readX r f.a.toNat
    let hi := readX r f.b.toNat
    let deferring := match (s.tile s.myTile).preempt with
      | .running => false
      | _ => true
    if d = 0 && deferring then s
    else if d = 4 then s.takeTrap 16 4 0
    else if hi.toNat < lo.toNat then s.takeTrap 6 0 lo
    else
      let p : Span := ⟨s.dt, lo, hi, (branchTarget r f).zeroExtend 64, readX r f.c.toNat⟩
      s.retire { r with spans := mapPut {} r.spans d p, depth := d + 1, hp := r.hp &&& ~~~ bit4 d, esc := r.esc &&& ~~~ bit4 d } f

/-- R204, R227, R230: `span.close`. -/
def execSpanClose (f : Fields) (s : State) : Host.Outcome State Fault Refusal :=
  issue (.spanClose f) s fun r =>
    match r.depth with
    | 0 => s.takeTrap 16 0 0
    | d + 1 =>
      let p := mapGet {} r.spans d
      if s.dt.toNat < p.openAt.toNat + p.minimum.toNat then s
      else s.retire { r with depth := d, hp := r.hp &&& ~~~ bit4 d, esc := r.esc &&& ~~~ bit4 d } f

/-- R229, R230, R234: the entry to the handler of level `d`: levels above it are discarded. -/
def State.spanTrap (s : State) (code d : Nat) (p : Span) (escalated : Bool) : State :=
  let r := s.me
  s.setMe { r with
    run := .running, epc := r.pc.zeroExtend 64, cause := causeOf d code, badaddr := 0, depth := d + 1
    hp := (r.hp &&& below4 d) ||| bit4 d
    esc := (r.esc &&& below4 d) ||| (if escalated then bit4 d else 0)
    spans := mapPut {} r.spans d p, thr := decide (s.mhz < 600), pc := p.handler.truncate 32
    fence := none, hyIssue := none, walk := none, broken := false }

/-- The handler phase of a level begins now and runs for the handler bound (R229, R234). -/
def Span.handling (p : Span) (t : Word) : Span := { p with openAt := t, minimum := 0, maximum := p.bound }

/-- R229: the body of a level overran. Acts on the strand at hand. -/
def execSpanOverrun (s : State) : Host.Outcome State Fault Refusal :=
  .next (match expiredLevel s.me s.dt with
    | some d => if s.me.hp.getLsbD d then s else s.spanTrap 11 d ((mapGet {} s.me.spans d).handling s.dt) false
    | none => s)

/-- R230: the handler of a level above 0 overran. Acts on the strand at hand. -/
def execSpanEscalation (s : State) : Host.Outcome State Fault Refusal :=
  .next (match expiredLevel s.me s.dt with
    | some (d + 1) => if s.me.hp.getLsbD (d + 1) then s.spanTrap 11 d { mapGet {} s.me.spans d with minimum := 0 } true else s
    | _ => s)

/-- R231: the handler of level 0 overran. Acts on the strand at hand. -/
def execSpanHandlerPark (s : State) : Host.Outcome State Fault Refusal :=
  .next (match expiredLevel s.me s.dt with
    | some 0 => if s.me.hp.getLsbD 0 then (s.setMe { s.me with epc := s.me.pc.zeroExtend 64 }).park s.cur 11 else s
    | _ => s)

/-- R234: a strand saved with a broken mark. Acts on the strand at hand. -/
def execSpanBroken (s : State) : Host.Outcome State Fault Refusal :=
  .next (if s.me.broken then s.spanTrap 12 0 ((mapGet {} s.me.spans 0).handling s.dt) false else s)

/-! Traps and control registers (R205 to R210). -/

/-- R90, R98: the word at the slot is no instruction. Acts on the strand at hand. -/
def execIllegalInstruction (s : State) : Host.Outcome State Fault Refusal :=
  let first := bytesToNat (readBytes (s.tile s.myTile).store s.me.pc.toNat 4)
  .next (match fetchAct s with
    | .event .illegalInstruction => s.takeTrap 1 first 0
    | .trap 1 info bad => s.takeTrap 1 info bad
    | _ => s)

/-- R98, R205: the PC is at or beyond XB. Acts on the strand at hand. -/
def execOverlayFetch (s : State) : Host.Outcome State Fault Refusal :=
  .next (match fetchAct s with
    | .event .overlayFetch => s.takeTrap 4 0 (s.me.pc.zeroExtend 64)
    | _ => s)

/-- R208: `trap` completes as an instruction. -/
def execTrap (f : Fields) (s : State) : Host.Outcome State Fault Refusal :=
  issue (.trap f) s fun r =>
    let s := s.setMe { r with issuedAt := s.cycle + 1 }
    s.trapAt (nextPc r f) 20 (f.imm10.signExtend 32).toNat 0

/-- R208: `eret`. -/
def execEret (f : Fields) (s : State) : Host.Outcome State Fault Refusal :=
  issue (.eret f) s fun r => s.setMe { r.eret with issuedAt := s.cycle + 1 }

/-- R226: SPANDEPTH. -/
def Strand.spanDepth (r : Strand) : Word :=
  BitVec.ofNat 64 ((if r.thr then 4096 else 0) + r.esc.toNat * 256 + r.hp.toNat * 16 + r.depth)

/-- R215: TILEID. -/
def State.tileId (s : State) (tile slot : Nat) : Word :=
  let l := s.launchOf tile
  BitVec.ofNat 64 (dieOf tile * 2 ^ 48 + clusterOf tile * 2 ^ 40 + slot * 2 ^ 32 + tileY tile * 2 ^ 24 + tileX tile * 2 ^ 16 +
    l.fy tile * 2 ^ 8 + l.fx tile)

/-- R216: FIELD. -/
def Launch.field (l : Launch) : Word :=
  BitVec.ofNat 64 (l.number.toNat * 2 ^ 32 + l.lh * 2 ^ 20 + l.lw * 2 ^ 16 + l.oy * 2 ^ 8 + l.ox)

/-- R294: TOL rounded to fp64 by rne. -/
def Launch.tol (l : Launch) : Word := BitVec.ofNat 64 (deliver (ffmt 16 false) 0 false 0 (.fin false l.tolM l.tolE false)).1

/-- R95, R210: the value of a control register of a strand. -/
def State.control (s : State) (who n : Nat) : Word :=
  let r := s.strand who
  let tile := who / 8
  let t := s.tile tile
  let span (base : Nat) : Span := mapGet {} r.spans (n - base)
  if n = 0 then r.status
  else if n = 1 then r.seed
  else if n = 2 then r.srcnt
  else if n = 3 then BitVec.ofNat 64 t.xb
  else if n = 4 then r.ovh
  else if n = 5 then r.tvb
  else if n = 6 then r.epc
  else if n = 7 then r.cause
  else if n = 8 then r.badaddr
  else if n = 9 then r.spanDepth
  else if n < 14 then (span 10).openAt
  else if n < 18 then (span 14).minimum
  else if n < 22 then (span 18).maximum
  else if n < 26 then (span 22).handler
  else if n < 30 then (span 26).bound
  else if n < 34 then (mapGet (0 : BitVec 16) t.hbase (n - 30)).zeroExtend 64
  else if n = 34 then s.dt
  else if n = 35 then s.tileId tile (who % 8)
  else if n = 36 then (s.launchOf tile).field
  else if n = 37 then (s.launchOf tile).tol
  else r.tbr

def execCtlRd (f : Fields) (s : State) : Host.Outcome State Fault Refusal :=
  issue (.ctlRd f) s fun r => s.retire (writeX r f.d.toNat (s.control s.cur f.imm10.toNat)) f

/-- R210: a write of a register other than STATUS and HBASE: no reserved field changes. -/
def Strand.control (r : Strand) (n : Nat) (v : Word) : Strand :=
  if n = 1 then { r with seed := v }
  else if n = 2 then { r with srcnt := v }
  else if n = 4 then { r with ovh := v &&& 0xFFFFFFFC#64 }
  else if n = 5 then { r with tvb := v &&& 0xFFFFFFC0#64 }
  else if n = 6 then { r with epc := v &&& 0xFFFFFFFC#64 }
  else if n = 38 then { r with tbr := v &&& 0xFFFFFFFF#64 }
  else r

def execCtlWr (f : Fields) (s : State) : Host.Outcome State Fault Refusal :=
  issue (.ctlWr f) s fun r =>
    let n := f.imm10.toNat
    let v := readX r f.a.toNat
    if n = 0 then
      match statusWrite r.status v with
      | some w => s.retire { r with status := w } f
      | none => s.takeTrap 1 (bytesToNat (readBytes (s.tile s.myTile).store r.pc.toNat 4)) 0
    else if 30 ≤ n ∧ n ≤ 33 then
      let t := s.tile s.myTile
      (s.setTile s.myTile { t with hbase := mapPut 0 t.hbase (n - 30) (v.truncate 16) }).retire r f
    else s.retire (r.control n v) f

/-! System calls (R209, R322): the service's answer, given at issue; it is written when it returns. -/

/-- R186, R209: a system call: its service, then the outstanding answer. -/
def sysCall (i : Instr) (f : Fields) (s : State) (service : Word → Vf → State × Word) : Host.Outcome State Fault Refusal :=
  answered i s fun r =>
    let (s, v) := service (readX r f.a.toNat) (s.vf (s.launchOf s.myTile).vf)
    s.startLong s.me f { awaited f with waiting := 0, data := v.zeroExtend 2048 }

def execSysCallEcho (f : Fields) (s : State) : Host.Outcome State Fault Refusal := sysCall (.sysCallEcho f) f s fun a _ => (s, a)
def execSysCallTablegen (f : Fields) (s : State) : Host.Outcome State Fault Refusal :=
  sysCall (.sysCallTablegen f) f s fun _ v => (s, BitVec.ofNat 64 v.tableGen)
def execSysCallPost (f : Fields) (s : State) : Host.Outcome State Fault Refusal :=
  sysCall (.sysCallPost f) f s fun a _ =>
    let item := s.dt.toNat * 2 ^ 192 + a.toNat * 2 ^ 128 + s.cur * 2 ^ 64 + 9 * 2 ^ 56
    let (s, ok) := s.postEvent (s.launchOf s.myTile).vf item
    (s, if ok then 0 else 1)
def execSysCallDefer (f : Fields) (s : State) : Host.Outcome State Fault Refusal :=
  sysCall (.sysCallDefer f) f s fun _ v => (s, BitVec.ofNat 64 v.defer)
def execSysCallOwned (f : Fields) (s : State) : Host.Outcome State Fault Refusal :=
  sysCall (.sysCallOwned f) f s fun _ v => (s, v.clusters)
def execSysCallUnassigned (f : Fields) (s : State) : Host.Outcome State Fault Refusal :=
  sysCall (.sysCallUnassigned f) f s fun _ _ => (s, BitVec.allOnes 64)

end Sys2Proof.Machine
end

