-- ==== Sys2Proof/Machine/Hoist.lean ====
section
/-! DEFINITION. Tasks: the instructions that act on them (R191 to R198), and the hoists: heaps, dispatch, stealing, the residual and
termination (R279 to R295). -/

namespace Sys2Proof.Machine

/-! The task table (R279, R280). -/

/-- The handle entry of a launch's task table; that only its base and length are used is log 38. -/
def State.taskEntry (s : State) (l : Launch) : BitVec 256 :=
  match l.tasks with
  | some i => s.tableEntry l.vf l.ctx i
  | none => 0

/-- R279: Q, the records in each cluster's part. -/
def State.taskQ (s : State) (l : Launch) : Nat := entryLen (s.taskEntry l) / (32 * l.clusterCount)

/-- R279: the parts of an id, and whether it is a bad one. -/
def idFc (id : Nat) : Nat := id / 2 ^ 26 % 64
def idIndex (id : Nat) : Nat := id % 2 ^ 26
def makeId (fc index : Nat) : Nat := fc * 2 ^ 26 + index
def State.badId (s : State) (l : Launch) (id : Nat) : Bool := decide (l.clusterCount ≤ idFc id) || decide (s.taskQ l ≤ idIndex id)

/-- The virtual address of a record, and its physical address; none where its page is not mapped. -/
def State.recordVa (s : State) (l : Launch) (id : Nat) : Nat := entryVa (s.taskEntry l) ((idFc id * s.taskQ l + idIndex id) * 32)
def State.recordPa (s : State) (l : Launch) (id : Nat) : Option Nat :=
  match s.walk l.tag (s.recordVa l id) with
  | .leaf e => some (e.pa + s.recordVa l id % 2 ^ e.bits)
  | _ => none

/-- R358, R361: what a hoist's read of `n` bytes of a record, from byte `pos` of it, meets: the violation kind and address of an uncorrectable word of the
tables or of the record, or of a page beyond the VF's reach (R309; log 38). -/
def State.recordLost (s : State) (l : Launch) (id pos n : Nat) : Option (Nat × Nat) :=
  (l.tasks.bind (s.tableLost l.vf l.ctx)).orElse fun _ => match s.walk l.tag (s.recordVa l id) with
    | .leaf e => s.lostAt (e.pa + s.recordVa l id % 2 ^ e.bits + pos) n
    | .violation => some (1, s.recordVa l id)
    | .lost kind a => some (kind, a)
    | .fault => none

/-- A record; zero where it is not mapped. -/
def State.record (s : State) (l : Launch) (id : Nat) : Nat :=
  match s.recordPa l id with
  | some a => readNat s.mem a 32
  | none => 0

/-- R353: a VF that is not frozen yet is frozen. -/
def State.freezeOwner (s : State) (v kind addr : Nat) : State := if (s.vf v).frozen then s else s.freezeVf v kind addr

/-- Bytes that a hoist writes at a virtual address; a logged page is logged first (R329). A page beyond the VF's reach, or an uncorrectable table entry,
freezes the VF (R309, R353; log 38). -/
def State.hoistWrite (s : State) (tag va : Nat) (bytes : List Byte) : State :=
  match s.walk tag va with
  | .leaf e => (s.logWrite tag va (if e.log then some e.leaf else none)).writeDevice (e.pa + va % 2 ^ e.bits) bytes
  | .fault => s
  | .violation => s.freezeOwner (tag / 8) 1 va
  | .lost kind a => s.freezeOwner (tag / 8) kind a

/-- Bytes of a record written by the hoist. -/
def State.putRecord (s : State) (l : Launch) (id pos n v : Nat) : State := s.hoistWrite l.tag (s.recordVa l id + pos) (natToBytes n v)

/-- STATE of R280: bits 81 and 80, the lowest of byte 10. -/
def State.putState (s : State) (l : Launch) (id v : Nat) : State := s.putRecord l id 10 1 (natBits (s.record l id) 87 82 * 4 + v)
def State.putKey (s : State) (l : Launch) (id v : Nat) : State := s.putRecord l id 0 8 v

/-- R192, R195: a gain operand that raises the gain-operand fault: NaN, infinite or below −0. -/
def badGain (bits : Nat) : Bool := decide (0x7F800000 ≤ bits % 2 ^ 31) || (decide (2 ^ 31 ≤ bits) && decide (bits ≠ 2 ^ 31))
/-- −0 is +0. -/
def plusZero (bits : Nat) : Nat := if bits = 2 ^ 31 then 0 else bits
/-- R195, R280: a stored gain as the hoist reads it. -/
def storedGain (bits : Nat) : Nat := if badGain bits then 0 else plusZero bits

/-- KEY of a record as a key of the launch's mode. -/
def State.storedKey (s : State) (l : Launch) (id : Nat) : Nat :=
  let v := s.record l id
  if l.deadline then v % 2 ^ 64 else storedGain (v % 2 ^ 32)

/-! Order and levels (R282). Keys of gain mode are fp32 bits of values that are not negative, so their order is that of the bits. -/

/-- R282: whether one key and id comes before another. -/
def comesBefore (deadline : Bool) (k1 i1 k2 i2 : Nat) : Bool :=
  if k1 = k2 then decide (i1 < i2) else if deadline then decide (k1 < k2) else decide (k2 < k1)

abbrev Queued := List (Nat × Task)

/-- The queued tasks of a level. -/
def Cluster.level (c : Cluster) (n : Nat) : Queued := c.tasks.filter fun p => p.2.state == .queued && p.2.level == n
def Cluster.task (c : Cluster) (i : Nat) : Task := mapGet {} c.tasks i
def Cluster.setTask (c : Cluster) (i : Nat) (t : Task) : Cluster := { c with tasks := mapPut {} c.tasks i t }
def State.setTask (s : State) (cl i : Nat) (t : Task) : State := s.setCluster cl ((s.cluster cl).setTask i t)

/-- The first and the last of a level. -/
def firstQueued (dl : Bool) (q : Queued) : Option (Nat × Task) :=
  q.foldl (fun b p => match b with
    | none => some p
    | some o => if comesBefore dl p.2.key p.1 o.2.key o.1 then some p else b) none
def lastQueued (dl : Bool) (q : Queued) : Option (Nat × Task) :=
  q.foldl (fun b p => match b with
    | none => some p
    | some o => if comesBefore dl o.2.key o.1 p.2.key p.1 then some p else b) none

/-- Entries that the resident level and the spill each hold. -/
def levelRoom : Nat := 4096

def beforeAll (dl : Bool) (key i : Nat) (q : Queued) : Bool := q.all fun p => comesBefore dl key i p.2.key p.1
def beforeLast (dl : Bool) (key i : Nat) (q : Queued) : Bool :=
  match lastQueued dl q with
  | some p => comesBefore dl key i p.2.key p.1
  | none => false

/-- R282: a task becomes an overflowed one: its key and STATE 11 go to its record. -/
def State.overflowTask (s : State) (l : Launch) (cl i : Nat) (t : Task) : State :=
  let id := makeId (l.fc (clusterTile cl 0)) i
  ((s.setTask cl i { t with state := .queued, level := 2 }).putKey l id t.key).putState l id 3

/-- The last spilled task moves down when the spill has no room. -/
def State.makeSpillRoom (s : State) (l : Launch) (cl : Nat) (q : Queued) : State :=
  if q.length < levelRoom then s
  else match lastQueued l.deadline q with
    | some (i, t) => s.overflowTask l cl i t
    | none => s

/-- R282, R304: a 16-byte entry of a cluster's spill area: the key and the id (log 51). -/
def State.putSpill (s : State) (l : Launch) (cl i n key : Nat) : State :=
  let fc := l.fc (clusterTile cl 0)
  let va := (natBits (s.descriptor l.vf l.ctx) 447 384 + fc * 65536 + 16 * n) % 2 ^ 49
  match s.lostAt (mapGet 0 (s.vf l.vf).contexts l.ctx + 48) 8 with
  | some (kind, a) => s.freezeOwner l.vf kind a
  | none => s.hoistWrite l.tag va (natToBytes 8 key ++ natToBytes 8 (makeId fc i))

/-- The places of the spill area in use, and the lowest free one. -/
def Cluster.spillUsed (c : Cluster) : List Nat := (c.level 1).filterMap fun p => p.2.spillAt
def Cluster.spillFree (c : Cluster) : Nat := ((List.range levelRoom).find? fun n => !c.spillUsed.contains n).getD 0

/-- R282: tasks that have come to the spilled level get their entries. -/
def State.settleSpill (s : State) (l : Launch) (cl : Nat) : State :=
  (((s.cluster cl).level 1).filter fun p => p.2.spillAt.isNone).foldl (fun s p =>
    let n := (s.cluster cl).spillFree
    (s.setTask cl p.1 { p.2 with spillAt := some n }).putSpill l cl p.1 n p.2.key) s

/-- R282: a task enters its cluster's order with a key, at the level that the order gives. -/
def State.place (s : State) (l : Launch) (cl i key : Nat) : State :=
  let t : Task := { (s.cluster cl).task i with state := .queued, key := key, gain := 0, pushed := none, spillAt := none }
  let c := (s.cluster cl).setTask i { t with state := .idle }
  let q0 := c.level 0
  let q1 := c.level 1
  let q2 := c.level 2
  let dl := l.deadline
  if (q0.length < levelRoom ∧ beforeAll dl key i q1 ∧ beforeAll dl key i q2) ∨ beforeLast dl key i q0 then
    let s := s.setTask cl i { t with level := 0 }
    if q0.length < levelRoom then s
    else match lastQueued dl q0 with
      | some (j, u) => (s.makeSpillRoom l cl q1).setTask cl j { u with level := 1, spillAt := none }
      | none => s
  else if (q1.length < levelRoom ∧ beforeAll dl key i q2) ∨ beforeLast dl key i q1 then
    (s.makeSpillRoom l cl q1).setTask cl i { t with level := 1 }
  else s.overflowTask l cl i t

def State.enqueue (s : State) (l : Launch) (cl i key : Nat) : State := (s.place l cl i key).settleSpill l cl

/-- The first tasks of a level move up one level. -/
def liftFrom (dl : Bool) (level : Nat) : Nat → Cluster → Cluster
  | 0, c => c
  | n + 1, c =>
    match firstQueued dl (c.level level) with
    | some (i, t) => liftFrom dl level n (c.setTask i { t with level := level - 1, spillAt := none })
    | none => c

/-- R282: the moves up, below 2,048 entries to 3,072. -/
def Cluster.lift (c : Cluster) (dl : Bool) : Cluster :=
  if (c.level 0).length < 2048 ∧ c.level 1 ≠ [] then liftFrom dl 1 (3072 - (c.level 0).length) c
  else if (c.level 1).length < 2048 ∧ c.level 2 ≠ [] then liftFrom dl 2 (3072 - (c.level 1).length) c
  else c

/-- The moves up of a cluster's levels. -/
def State.liftLevels (s : State) (l : Launch) (cl : Nat) : State :=
  (s.setCluster cl ((s.cluster cl).lift l.deadline)).settleSpill l cl

/-- The launch whose tasks a cluster holds. -/
def State.clusterLaunch (s : State) (cl : Nat) : Nat := s.launchKeyOf (clusterTile cl 0)

/-- R353, R358: a hoist that meets an uncorrectable word of its heap or residual: the VF that owns the cluster is frozen, with a record of KIND 6; while
it is frozen the hoist does nothing with that heap. The same with another kind and address for what it reads in device memory (log 38). -/
def State.freezeHoist (s : State) (cl : Nat) (kind : Nat := 6) (addr : Nat := 0) : State :=
  match s.vfs.find? fun p => p.2.clusters.getLsbD cl with
  | some p => if p.2.frozen then s else s.freezeVf p.1 kind addr
  | none => s

/-- R358: a hoist's step that reads a record, unless what it reads is uncorrectable. -/
def State.unlessRecordLost (s : State) (cl : Nat) (lost : Option (Nat × Nat)) (k : State) : State :=
  match lost with
  | some (kind, addr) => s.freezeHoist cl kind addr
  | none => k

/-- R282: the hoist moves entries between its levels, unless its heap is uncorrectable (R358). Acts on `cluster`. -/
def execHeapLevelMove (s : State) : Host.Outcome State Fault Refusal :=
  let cl := s.arg.cluster
  let l := s.launch (s.clusterLaunch cl)
  .next (if (s.cluster cl).bad then (if (s.cluster cl).lift l.deadline = s.cluster cl then s else s.freezeHoist cl) else s.liftLevels l cl)

/-- R193, R284: a task retires. -/
def State.retireTask (s : State) (l : Launch) (cl i : Nat) : State :=
  (s.setTask cl i { (s.cluster cl).task i with state := .retired, key := 0, gain := 0, pushed := none, level := 0, killed := false }).putState l
    (makeId (l.fc (clusterTile cl 0)) i) 2

/-! Instructions (R191 to R198). -/

/-- R198: step 7 for a task instruction that names an id: rights, the id, the operand. -/
def State.taskTrap (s : State) (l : Launch) (gainOnly : Bool) (a : Word) (operand : Option Word) : Option TrapInfo :=
  let id := a.toNat % 2 ^ 32
  if l.tasks.isNone then some (7, 0, a)
  else if gainOnly && l.deadline then some (7, 0, BitVec.ofNat 64 id)
  else if s.badId l id then some (6, 0, BitVec.ofNat 64 id)
  else match operand with
    | some b => if badGain (b.toNat % 2 ^ 32) then some (13, 0, b) else none
    | none => none

/-- The home of an id. -/
def Launch.homeOf (l : Launch) (id : Nat) : Home := .hoist (l.cluster (idFc id))

/-- R191: `tk.wait`. -/
def execTkWait (f : Fields) (s : State) : Host.Outcome State Fault Refusal :=
  issue (.tkWait f) s fun r =>
    let l := s.launchOf s.myTile
    if r.task.isSome then s.takeTrap 21 0 0
    else if l.tasks.isNone || l.term == .closed then s.retire (writeX r 1 (BitVec.allOnes 64)) f
    else s.setMe { r with run := .waiting, waitAt := s.cycle, issuedAt := s.cycle + 1 }

/-- R193: `tk.done`. -/
def execTkDone (f : Fields) (s : State) : Host.Outcome State Fault Refusal :=
  issue (.tkDone f) s fun r =>
    if r.task.isNone then s.takeTrap 21 0 0
    else
      let s := s.endTask s.cur
      s.retire s.me f

/-- R192: `tk.push`. -/
def execTkPush (f : Fields) (s : State) : Host.Outcome State Fault Refusal :=
  answered (.tkPush f) s fun r =>
    let a := readX r f.a.toNat
    let b := readX r f.b.toNat
    let l := s.launchOf s.myTile
    let id := a.toNat % 2 ^ 32
    match s.taskTrap l false a (if l.deadline then none else some b) with
    | some (code, info, bad) => s.takeTrap code info bad
    | none =>
      (s.touch (s.launchKeyOf s.myTile)).ask r f (l.homeOf id) fun op =>
        .push op (s.launchKeyOf s.myTile) (idIndex id) (if l.deadline then b.toNat else plusZero (b.toNat % 2 ^ 32))

/-- A posted task message leaves (R197). -/
def State.postTask (s : State) (f : Fields) (home : Home) (body : Nat → Body) : State :=
  let s := s.post { id := 0, src := s.cur, home := home, addr := 0, body := body 0 } 0 true body
  (s.touch (s.launchKeyOf s.myTile)).retire s.me f

/-- R195: a `gain.*`. `mode` is the resolved mode of `gain.add`. -/
def gainOp (i : Instr) (f : Fields) (s : State) (sub : Nat) : Host.Outcome State Fault Refusal :=
  issue i s fun r =>
    let a := readX r f.a.toNat
    let b := readX r f.b.toNat
    let l := s.launchOf s.myTile
    let id := a.toNat % 2 ^ 32
    match s.taskTrap l true a (some b) with
    | some (code, info, bad) => s.takeTrap code info bad
    | none =>
      let mode := if sub = 0 then resolveMode r.status f.rm else 0
      let s := s.setMe (countSr r mode)
      s.postTask f (l.homeOf id) fun p =>
        .gain p (s.launchKeyOf s.myTile) (idIndex id) sub (plusZero (b.toNat % 2 ^ 32)) mode r.seed r.srcnt

def execGainAdd (f : Fields) (s : State) : Host.Outcome State Fault Refusal := gainOp (.gainAdd f) f s 0
def execGainMax (f : Fields) (s : State) : Host.Outcome State Fault Refusal := gainOp (.gainMax f) f s 1
def execGainSet (f : Fields) (s : State) : Host.Outcome State Fault Refusal := gainOp (.gainSet f) f s 2

/-- R196: `dep.dec`. -/
def execDepDec (f : Fields) (s : State) : Host.Outcome State Fault Refusal :=
  issue (.depDec f) s fun r =>
    let a := readX r f.a.toNat
    let l := s.launchOf s.myTile
    let id := a.toNat % 2 ^ 32
    match s.taskTrap l false a none with
    | some (code, info, bad) => s.takeTrap code info bad
    | none => s.postTask f (l.homeOf id) fun p => .depDec p (s.launchKeyOf s.myTile) (idIndex id)

/-- R194: the checks of `tk.batch`. -/
def State.batchTrap (s : State) (l : Launch) (n : Word) (a : Nat) : Option TrapInfo :=
  let bad := BitVec.ofNat 64 a
  if l.tasks.isNone then some (7, 0, 0)
  else if 4096 < n.toNat then some (6, 0, n)
  else if a % 4 ≠ 0 then some (5, 0, bad)
  else if n = 0 then none
  else areaTrap (s.tile s.myTile) a (4 * n.toNat) bad

/-- R194, R295: pops while the count and the budget admit the next record; the ids popped, and what was uncorrectable among the costs read (R358). -/
def State.popBatch (s : State) (l : Launch) (cl : Nat) : Nat → Nat → State × List Nat × Option (Nat × Nat)
  | 0, _ => (s, [], none)
  | n + 1, budget =>
    let s := if (s.cluster cl).level 0 = [] then (s.liftLevels l cl).liftLevels l cl else s
    match firstQueued l.deadline ((s.cluster cl).level 0) with
    | none => (s, [], none)
    | some (i, _) =>
      let id := makeId (l.fc (clusterTile cl 0)) i
      let cost := natBits (s.record l id) 159 128
      if (s.recordLost l id 16 8).isSome then (s, [], s.recordLost l id 16 8)
      else if budget < cost then (s, [], none)
      else
        let (s, ids, lost) := (s.retireTask l cl i).popBatch l cl n (budget - cost)
        (s, id :: ids, lost)

/-- R194: `tk.batch`; popped records retire, and the id words are written before the answer; a pop from an uncorrectable heap, or of an uncorrectable
cost, freezes, and nothing is popped (R358). -/
def execTkBatch (f : Fields) (s : State) : Host.Outcome State Fault Refusal :=
  answered (.tkBatch f) s fun r =>
    let n := readX r f.b.toNat
    let a := (readX r f.a.toNat).toNat % 2 ^ 32
    let l := s.launchOf s.myTile
    match s.batchTrap l n a with
    | some (code, info, bad) => s.takeTrap code info bad
    | none =>
      let pops := l.term == .running && n ≠ 0
      if pops && (s.cluster (clusterOf s.myTile)).bad then s.freezeHoist (clusterOf s.myTile)
      else
        let (t, ids, lost) := if pops then s.popBatch l (clusterOf s.myTile) n.toNat (r.tbr.toNat % 2 ^ 32) else (s, [], none)
        s.unlessRecordLost (clusterOf s.myTile) lost <|
        let s := t
        let s := if ids.isEmpty then s else s.writeLocal s.myTile a (ids.flatMap (natToBytes 4))
        s.startLong s.me f { awaited f with waiting := 0, data := BitVec.ofNat 2048 ids.length }

/-! Task messages at their home (R192, R195, R196, R283 to R285, R293, R327). -/

/-- R291: whether a hoist has taken the snapshot of this cycle: what comes after it comes in a later cycle. -/
def State.snapped (s : State) (cl : Nat) : Bool :=
  s.cycle % 64 == 0 && (s.launch (s.clusterLaunch cl)).snaps.any fun p => p.epoch == s.cycle / 64 && p.cluster == cl

/-- A task message that its home may serve now: the earliest of its source (R197), fairly between the strands (R222). -/
def State.taskMessage (s : State) : Option (Msg × Nat) :=
  match s.message s.arg.message with
  | none => none
  | some m =>
    match m.home with
    | .hoist cl => if s.firstOf m && !s.snapped cl && (!m.body.isRequest || s.fairTo m.home m.src) then some (m, cl) else none
    | _ => none

/-- A task message is taken from the network; the strands' messages that wait have seen it served (R222). -/
def State.takeTask (s : State) (m : Msg) : State :=
  (if m.body.isRequest then s.markPassed m.home m.src s.arg.late else s).dropMessage m.id

/-- A hoist's part in a task message that it may serve now; one that holds an uncorrectable word freezes its VF instead (R358). -/
def State.onTask (s : State) (k : Msg → Nat → State) : Host.Outcome State Fault Refusal :=
  match s.taskMessage with
  | none => .next s
  | some (m, cl) => .next (if (s.cluster cl).bad then s.freezeHoist cl else k m cl)

/-- R192, R283: a push arrives. That one of a lent task replaces the key that its victim holds, and that one answered 1 leaves KEY as it is, is log 35. Acts
on `message`. -/
def execTaskPushArrival (s : State) : Host.Outcome State Fault Refusal :=
  s.onTask fun m cl =>
    match m.body with
    | .push op k i key =>
      let s := s.takeTask m
      let l := s.launch k
      let c := s.cluster cl
      let t := c.task i
      let id := makeId (l.fc (clusterTile cl 0)) i
      let full := decide (levelRoom ≤ (c.level 0).length) && decide (levelRoom ≤ (c.level 1).length)
      if l.term == .closed then s.answer m.src op 1
        else match t.state with
          | .queued => ((s.enqueue l cl i key).putKey l id key).answer m.src op 0
          | .lent => ((s.setTask cl i { t with key := key }).putKey l id key).answer m.src op 0
          | .running => ((s.setTask cl i { t with pushed := some key }).putKey l id key).answer m.src op 0
          | _ =>
            if full || t.killed then s.answer m.src op 1
            else ((s.putKey l id key).enqueue l cl i key).answer m.src op 0
    | _ => s

/-- R195: the new gain. -/
def newGain (sub mode : Nat) (seed srcnt : Word) (old b : Nat) : Nat :=
  if sub = 0 then
    let F := ffmt 10 false
    plusZero (deliver F mode true (if mode = 5 then draw seed srcnt 0 else 0) (addVal mode (readFloat F old) (readFloat F b))).1
  else if sub = 1 then (if old < b then b else old)
  else b

/-- R195, R285: a gain update arrives. Acts on `message`. -/
def execGainUpdateArrival (s : State) : Host.Outcome State Fault Refusal :=
  s.onTask fun m cl =>
    match m.body with
    | .gain p k i sub b mode seed srcnt =>
      let l := s.launch k
      let t := (s.cluster cl).task i
      let id := makeId (l.fc (clusterTile cl 0)) i
      s.unlessRecordLost cl (if l.term != .closed && (t.state == .idle || t.state == .retired) then s.recordLost l id 0 8 else none) <|
      let s := (s.takeTask m).ack m.src p false true
      let new (old : Nat) : Nat := newGain sub mode seed srcnt old b
      if l.term == .closed then s
        else match t.state with
          | .queued => s.enqueue l cl i (new t.key)
          | .lent => s.setTask cl i { t with key := new t.key }
          | .running => s.setTask cl i { t with gain := new t.gain }
          | .idle => s.putKey l id (new (s.storedKey l id))
          | .retired =>
            let g := new (s.storedKey l id)
            let s := s.putKey l id g
            if 0 < g then s.enqueue l cl i g else s
    | _ => s

/-- R196, R285: a dependence is released. Acts on `message`. -/
def execDepDecArrival (s : State) : Host.Outcome State Fault Refusal :=
  s.onTask fun m cl =>
    match m.body with
    | .depDec p k i =>
      let l := s.launch k
      let t := (s.cluster cl).task i
      let id := makeId (l.fc (clusterTile cl 0)) i
      let dep := natBits (s.record l id) 79 64
      s.unlessRecordLost cl (if l.term == .closed then none
        else (s.recordLost l id 8 8).orElse fun _ =>
          if dep = 1 ∧ (t.state = .idle ∨ t.state = .retired) ∧ !t.killed then s.recordLost l id 0 8 else none) <|
      let s := (s.takeTask m).ack m.src p false true
      if l.term == .closed ∨ dep = 0 then s
        else
          let s := s.putRecord l id 8 2 (dep - 1)
          if dep = 1 ∧ (t.state = .idle ∨ t.state = .retired) ∧ !t.killed then s.enqueue l cl i (s.storedKey l id) else s
    | _ => s

/-- R284: the end of a task arrives: re-insertion or retirement. An end that comes before a thief's acknowledgment waits for it.
Acts on `message`. -/
def execTaskEndArrival (s : State) : Host.Outcome State Fault Refusal :=
  s.onTask fun m cl =>
    match m.body with
    | .taskEnd k i =>
      let l := s.launch k
      let t := (s.cluster cl).task i
      if t.state = .lent then s
      else
        let s := s.takeTask m
        if t.state ≠ .running then s
          else if t.killed then s.retireTask l cl i
          else match t.pushed with
            | some p => s.enqueue l cl i (if l.deadline then p else Nat.max p t.gain)
            | none => if !l.deadline && decide (0 < t.gain) then s.enqueue l cl i t.gain else s.retireTask l cl i
    | _ => s

/-! Dispatch (R286). -/

/-- The strands of a cluster that wait in `tk.wait` and may be dispatched to: not those of a pre-empted tile, nor one that is to take the
span trap of R234. -/
def State.waiters (s : State) (cl : Nat) : List Nat :=
  ((clusterTiles cl).filter fun t => (s.tile t).preempt.runs).flatMap fun t => (strandsOf t).filter fun i => (s.strand i).run == .waiting && !(s.strand i).broken

/-- R286: the one that entered earliest; ties by tile number in the cluster, then by slot. -/
def State.firstWaiter (s : State) (cl : Nat) : Option Nat :=
  (s.waiters cl).foldl (fun b i => match b with
    | none => some i
    | some o => if (s.strand i).waitAt < (s.strand o).waitAt then some i else b) none

/-- R191: the record `v` of a task is written into a waiting strand. -/
def State.dispatchTo (s : State) (i id v : Nat) : State :=
  let r := s.strand i
  let arg (n : Nat) : Word := BitVec.ofNat 64 (natBits v (159 + 32 * n) (128 + 32 * n))
  let r := writeX (writeX (writeX (writeX (writeX r 1 (BitVec.ofNat 64 id)) 2 (arg 0)) 3 (arg 1)) 4 (arg 2)) 5 (arg 3)
  s.setStrand i { r with run := .running, pc := BitVec.ofNat 32 (natBits v 127 98 * 4), task := some id, startedAt := s.cycle + 1 }

/-- Whether a launch's hoists dispatch. -/
def Launch.dispatches (l : Launch) : Bool := l.tasks.isSome && l.term == .running

/-- R286: the hoist pops its first resident task into its earliest waiting strand, unless its record is uncorrectable (R358). Acts on `cluster`. -/
def execTaskDispatch (s : State) : Host.Outcome State Fault Refusal :=
  let cl := s.arg.cluster
  let l := s.launch (s.clusterLaunch cl)
  if !l.dispatches || s.snapped cl then .next s
  else if (s.cluster cl).bad then .next (s.freezeHoist cl)
  else match firstQueued l.deadline ((s.cluster cl).level 0), s.firstWaiter cl with
    | some (i, t), some w =>
      let id := makeId (l.fc (clusterTile cl 0)) i
      .next (s.unlessRecordLost cl (s.recordLost l id 8 24)
        ((s.setTask cl i { t with state := .running, gain := 0, pushed := none, key := 0 }).dispatchTo w id (s.record l id)))
    | _, _ => .next s

/-! Stealing (R287 to R289). -/

/-- The package clusters of a launch. -/
def Launch.clusters (l : Launch) : List Nat := (List.range l.clusterCount).map l.cluster

/-- R287: at a cycle ≡ 0 (mod 64) a hoist publishes its first resident key; the other hoists see it at once, and it publishes none where only its lower
levels hold tasks (log 35). Acts on `cluster`. -/
def execKeyPublication (s : State) : Host.Outcome State Fault Refusal :=
  let cl := s.arg.cluster
  let l := s.launch (s.clusterLaunch cl)
  let c := s.cluster cl
  if s.cycle % 64 ≠ 0 ∨ l.tasks.isNone ∨ c.pubAt = s.cycle / 64 + 1 then .next s
  else if c.bad then .next (s.freezeHoist cl)
  else .next (s.setCluster cl { c with
    published := some ((firstQueued l.deadline (c.level 0)).map fun p => p.2.key), pubAt := s.cycle / 64 + 1 })

/-- R288: the other cluster of the launch with the best published key; ties go to the lower fc. -/
def State.bestVictim (s : State) (l : Launch) (cl : Nat) : Option Nat :=
  (l.clusters.filterMap fun c => if c = cl then none else ((s.cluster c).published.getD none).map fun k => (c, k)).foldl
    (fun b p => match b with
      | none => some p
      | some o => if (if l.deadline then p.2 < o.2 else o.2 < p.2) then some p else b) none |>.map fun p => p.1

/-- The number of a hoist as a source of messages, beside the strands. -/
def hoistSource (cl : Nat) : Nat := 8192 + cl

/-- R288: whether a hoist may ask: after "none", not before the next publication. -/
def State.maySteal (s : State) (l : Launch) (cl : Nat) : Bool :=
  let c := s.cluster cl
  l.dispatches && !(s.waiters cl).isEmpty && (c.level 0).isEmpty && !c.stealing && c.refusedAt != some c.pubAt

/-- R288: a hoist without work asks the cluster with the best published key. Acts on `cluster`. -/
def execStealRequest (s : State) : Host.Outcome State Fault Refusal :=
  let cl := s.arg.cluster
  let k := s.clusterLaunch cl
  let l := s.launch k
  match s.bestVictim l cl with
  | none => .next s
  | some v =>
    .next (if s.maySteal l cl then
        if (s.cluster cl).bad then s.freezeHoist cl
        else (s.setCluster cl { s.cluster cl with stealing := true }).send (hoistSource cl) (.hoist v) (.stealRequest k cl)
      else s)

/-- R288: the victim answers "none", also while its launch is stopped (log 35), or lends its first resident task. Acts on `message`. -/
def execStealRequestArrival (s : State) : Host.Outcome State Fault Refusal :=
  s.onTask fun m cl =>
    match m.body with
    | .stealRequest k thief =>
      let l := s.launch k
      match (if l.dispatches then firstQueued l.deadline ((s.cluster cl).level 0) else none) with
        | none => (s.takeTask m).send (hoistSource cl) (.hoist thief) (.stealNone k)
        | some (i, t) =>
          let id := makeId (l.fc (clusterTile cl 0)) i
          s.unlessRecordLost cl (s.recordLost l id 8 24)
            (((s.takeTask m).setTask cl i { t with state := .lent }).send (hoistSource cl) (.hoist thief) (.stolen k id t.key (s.record l id)))
    | _ => s

/-- R288: the record reaches the thief: a waiting strand takes it, or it is refused. Acts on `message`. -/
def execStolenRecordArrival (s : State) : Host.Outcome State Fault Refusal :=
  s.onTask fun m cl =>
    match m.body with
    | .stolen k id _ item =>
      let s := s.takeTask m
      let l := s.launch k
      let s := s.setCluster cl { s.cluster cl with stealing := false }
      match (if l.dispatches then s.firstWaiter cl else none) with
        | some w => (s.dispatchTo w id item).send (hoistSource cl) (l.homeOf id) (.stealAck k (idIndex id))
        | none => s.send (hoistSource cl) (l.homeOf id) (.stealRefuse k (idIndex id))
    | _ => s

/-- R289: the acknowledgment: the lent task runs, and its pending gain starts at +0. Acts on `message`. -/
def execStealAcknowledgment (s : State) : Host.Outcome State Fault Refusal :=
  s.onTask fun m cl =>
    match m.body with
    | .stealAck _ i =>
      let s := s.takeTask m
      let t := (s.cluster cl).task i
      if t.state = .lent then s.setTask cl i { t with state := .running, key := 0, gain := 0, pushed := none } else s
    | _ => s

/-- R289: the refusal: the victim restores the task with its key as it then stands. Acts on `message`. -/
def execStealRefusal (s : State) : Host.Outcome State Fault Refusal :=
  s.onTask fun m cl =>
    match m.body with
    | .stealRefuse k i =>
      let s := s.takeTask m
      let t := (s.cluster cl).task i
      if t.state = .lent then s.enqueue (s.launch k) cl i t.key else s
    | _ => s

/-- R288: the thief may ask again after the next publication. Acts on `message`. -/
def execStealNoneAnswer (s : State) : Host.Outcome State Fault Refusal :=
  s.onTask fun m cl =>
    match m.body with
    | .stealNone _ =>
      let s := s.takeTask m
      let c := s.cluster cl
      s.setCluster cl { c with stealing := false, refusedAt := some c.pubAt }
    | _ => s

/-! The residual (R290, R291). -/

/-- A gain that is not negative, in units of 2^−200. -/
def gainUnits (bits : Nat) : Nat :=
  let e := bits / 2 ^ 23 % 256
  let m := bits % 2 ^ 23
  if e = 0 then m * 2 ^ 51 else (2 ^ 23 + m) * 2 ^ (e + 50)

/-- R290: what a task adds to the residual. -/
def Task.residual (t : Task) (deadline : Bool) : Nat :=
  match t.state with
  | .queued => if deadline then 2 ^ 200 else gainUnits t.key
  | .lent => if deadline then 2 ^ 200 else gainUnits t.key
  | .running => if deadline then 2 ^ 200 else gainUnits t.gain
  | _ => 0

/-- R290: a hoist's part of RSD. -/
def Cluster.residual (c : Cluster) (deadline : Bool) : LongWord :=
  BitVec.ofNat 384 ((c.tasks.map fun p => p.2.residual deadline).foldl (· + ·) 0)

/-- A task message of a launch. -/
def Body.taskOf (b : Body) : Option Nat :=
  match b with
  | .push _ k _ _ => some k
  | .taskEnd k _ => some k
  | .gain _ k _ _ _ _ _ _ => some k
  | .depDec _ k _ => some k
  | _ => none

/-- R292: nothing runs, nothing is lent, and every task message has been performed. -/
def State.drainedTasks (s : State) (k : Nat) : Bool :=
  ((s.launch k).clusters.all fun cl => (s.cluster cl).tasks.all fun p => p.2.state != .running && p.2.state != .lent) &&
    s.net.all fun m => m.body.taskOf != some k

/-- R291: a hoist's snapshot at a cycle ≡ 0 (mod 64), after the cycle's slots; with those of the epoch that decides, whether a task message is
still under way (R292; log 35). Acts on `cluster`. -/
def execRsdSnapshot (s : State) : Host.Outcome State Fault Refusal :=
  let cl := s.arg.cluster
  let k := s.clusterLaunch cl
  let l := s.launch k
  let e := s.cycle / 64
  if s.cycle % 64 ≠ 0 ∨ (nextStrand s).isSome ∨ l.tasks.isNone ∨ !l.started ∨ l.term == .closed ∨ (l.snaps.any fun p => p.epoch == e && p.cluster == cl) then .next s
  else if (s.cluster cl).bad then .next (s.freezeHoist cl)
  else .next (s.setLaunch k { l with snaps := l.snaps ++ [⟨e, cl, (s.cluster cl).residual l.deadline⟩]
                                     touched := if l.term = .stopped (some e) then !s.drainedTasks k else l.touched })

/-- The snapshots of an epoch. -/
def Launch.epoch (l : Launch) (e : Nat) : List Snapshot := l.snaps.filter fun p => p.epoch == e

/-- R291: the earliest epoch of which every hoist's snapshot is there and known. -/
def Launch.knownEpoch (l : Launch) (cycle : Nat) : Option Nat :=
  (l.snaps.find? fun p => decide (64 * (p.epoch + 2) ≤ cycle) && (l.epoch p.epoch).length == l.clusterCount).map fun p => p.epoch

/-- R292: whether a combined residual is below TOL; TOLE is at least −200. -/
def Launch.below (l : Launch) (rsd : LongWord) : Bool := decide (rsd.toNat < l.tolM * 2 ^ (l.tolE + 200).toNat)

/-! Termination (R292, R293). -/

/-- R191: a strand leaves `tk.wait` with "done". -/
def Strand.done (r : Strand) (cycle : Nat) : Strand :=
  { writeX r 1 (BitVec.allOnes 64) with run := .running, pc := r.pc + 8, startedAt := cycle + 1 }

/-- R191: the waiting strands of a launch, but those of pre-empted tiles, are released. -/
def State.releaseWaiters (s : State) (l : Launch) : State :=
  ((l.tiles.filter fun t => (s.tile t).preempt.runs).flatMap strandsOf).foldl (fun s i =>
    if (s.strand i).run = .waiting ∧ (s.strand i).broken = false then s.setStrand i ((s.strand i).done s.cycle) else s) s

/-- R292: the queued tasks of a cluster go to their records; those of an uncorrectable heap do not (R358). -/
def State.writeQueued (s : State) (l : Launch) (cl : Nat) : State :=
  if (s.cluster cl).bad then s.freezeHoist cl
  else
    let s := (s.cluster cl).tasks.foldl (fun s p =>
      if p.2.state = .queued then
        let id := makeId (l.fc (clusterTile cl 0)) p.1
        (s.putKey l id p.2.key).putState l id 1
      else s) s
    s.setCluster cl { s.cluster cl with tasks := [] }

/-- R292: the heaps of a launch close. -/
def State.closeHeaps (s : State) (k : Nat) : State :=
  let l := s.launch k
  let s := l.clusters.foldl (fun s cl => s.writeQueued l cl) s
  (s.setLaunch k { s.launch k with term := .closed, snaps := [] }).releaseWaiters l

/-- R291, R292, R299: a combined residual becomes known: it stops the launch, ends it, or lets it resume. A task message that was under way
at the snapshots that decide, or was issued after them, makes the launch drain anew (R299; log 35). Acts on `launch`. -/
def execRsdCombine (s : State) : Host.Outcome State Fault Refusal :=
  let k := s.arg.launch
  let l := s.launch k
  match l.knownEpoch s.cycle with
  | none => .next s
  | some e =>
    let rsd := ((l.epoch e).map fun p => p.part).foldl (· + ·) 0
    let below := l.below rsd
    let l := { l with snaps := l.snaps.filter fun p => decide (e < p.epoch) }
    let s := s.setLaunch k l
    .next (match l.term with
      | .running => if below ∧ l.skipTo ≤ e then s.setLaunch k { l with term := .stopped none } else s
      | .stopped (some last) =>
        if e < last then s
        else if below then (if l.touched then s.setLaunch k { l with term := .stopped none } else s.closeHeaps k)
        else s.setLaunch k { l with term := .running, skipTo := e + 1 }
      | _ => s)

/-- R292: the drain is complete: the final combine is that of the first epoch whose snapshots are taken at or after this cycle. Acts on
`launch`. -/
def execTerminationDrain (s : State) : Host.Outcome State Fault Refusal :=
  let k := s.arg.launch
  let l := s.launch k
  .next (match l.term with
    | .stopped none =>
      if s.drainedTasks k then s.setLaunch k { l with term := .stopped (some ((s.cycle + 63) / 64)), touched := false }
      else s
    | _ => s)

end Sys2Proof.Machine
end

