-- ==== Sys2Proof/Machine/Launch.lean ====
section
/-! DEFINITION. Launches from queue to end (R212 to R224, R314, R316, R334, R335), pre-emption and restore (R233, R323, R325), commands
(R337) and the reset of a VF (R326, R327). -/

namespace Sys2Proof.Machine

/-- Whether a running or starting launch holds a tile (R212). -/
def State.tileHeld (s : State) (t : Nat) : Bool :=
  match (s.tile t).launch with
  | some k => !(s.launch k).ended
  | none => false

/-- Whether a key names a launch that holds its tiles. -/
def State.active (s : State) (k : Nat) : Bool :=
  let l := s.launch k
  !l.ended && (s.tile (tileAt l.ox l.oy)).launch == some k

/-- The owner of a cluster. -/
def State.clusterOwner (s : State) (c : Nat) : Option Nat := (s.vfs.find? fun p => p.2.clusters.getLsbD c).map fun p => p.1

/-- R28, R318, R361: a cluster is retired: its bit is cleared, and its owner receives a new table and a CODE 10 event. -/
def State.retireCluster (s : State) (c : Nat) : State :=
  let s := s.setCluster c { s.cluster c with retired := true, retiring := false }
  match s.clusterOwner c with
  | some v =>
    (s.setVf v { s.vf v with clusters := (s.vf v).clusters &&& ~~~ BitVec.ofNat 64 (2 ^ c), tableGen := (s.vf v).tableGen + 1 }).event v 10
      (BitVec.ofNat 64 c) 0
  | none => s

/-! The launch queue (R316, R334, R335). -/

/-- R334: TOLE, read as −200 when below it and as 119 when above it. -/
def tolExp (e : Int) : Int := if e < -200 then -200 else if 119 < e then 119 else e

/-- R334: the launch that a ring entry describes. -/
def entryLaunch (vf e : Nat) : Launch :=
  { vf := vf, ctx := natBits e 42 40, ox := natBits e 4 0, oy := natBits e 12 8, lw := natBits e 34 32, lh := natBits e 37 35
    scr := natBits e 191 181 * 256, xb := natBits e 180 174 * 4096, entry := BitVec.ofNat 32 (natBits e 153 136 * 4)
    fmode := natBits e 43 43 == 1, seed := BitVec.ofNat 64 (natBits e 511 448), tbr := BitVec.ofNat 32 (natBits e 351 320)
    tolM := natBits e 447 384, tolE := tolExp (readInt true 16 (natBits e 383 368))
    tasks := if natBits e 47 47 = 1 then some (natBits e 367 352) else none
    deadline := natBits e 44 44 == 1, race := natBits e 46 46 == 1, table := natBits e 45 45 == 1 }

/-- R213, R72, R255, R279, R334: the first status that applies, in the order ALIGN, OWNER, SHAPE, SCRATCH; 0 where the launch may
start. -/
def State.launchStatus (s : State) (l : Launch) (slen : Nat) : Nat :=
  if l.ox % l.w ≠ 0 ∨ l.oy % l.h ≠ 0 ∨ 32 < l.ox + l.w ∨ 32 < l.oy + l.h then 2
  else if (s.vf l.vf).reset.isSome || l.tiles.any fun t => !(s.vf l.vf).clusters.getLsbD (clusterOf t) then 3
  else if l.tasks.isSome && (decide (l.w < 4) || decide (l.h < 4) || s.taskQ l == 0) then 4
  else if l.scr < slen ∨ Config.localBytes < l.xb + l.scr ∨ (l.race ∧ l.scr < 4096) then 1
  else 0

/-- R331: whether a host port faces a host: A always, B in upstream mode; and the place of a host's byte. -/
def State.hostPort (s : State) (port : Nat) : Bool := port == 0 || (port == 1 && s.portB == .upstream)
def hostPlace (port iova : Nat) : Nat := port * 2 ^ 64 + iova

/-- R331, R334, R335: the ring entry at LQHEAD, read through the port on which LQBASE was last written. -/
def State.headEntry (s : State) (v : Nat) : Nat :=
  readNat s.hostMem (hostPlace (s.vf v).lqPort (s.vf v).lqbase.toNat + 64 * ((s.vf v).lqhead.toNat % 256)) 64

/-- R212, R316, R353: whether the head launch of a VF can be taken: there is one, none of the VF is about to start, and it is
rejected or its tiles are free. -/
def State.headReady (s : State) (v : Nat) : Bool :=
  let e := s.headEntry v
  let l := entryLaunch v e
  (s.vf v).lqtail != (s.vf v).lqhead && !(s.vf v).frozen && decide (5 ≤ s.trust.stage) &&
    !(s.launches.any fun p => p.2.vf == v && !p.2.started && !p.2.ended) &&
    (s.launchStatus l (natBits e 173 154) != 0 || l.tiles.all fun t => !s.tileHeld t)

/-- The credit that a visit adds. -/
def Vf.quantum (v : Vf) : Int := ((v.weight * 2 ^ 20 : Nat) : Int)

/-- R316: how many visits a VF whose head can start needs until its credit is positive. -/
def Vf.rounds (v : Vf) : Nat := if 0 ≤ v.deficit then 1 else (-v.deficit).toNat / (v.weight * 2 ^ 20) + 1

/-- R316: a VF's credit after some visits. -/
def Vf.visited (v : Vf) (ready : Bool) (visits : Nat) : Vf :=
  if visits = 0 then v
  else if ready then
    let d := v.deficit + (visits : Int) * v.quantum
    { v with deficit := if 4 * v.quantum < d then 4 * v.quantum else d }
  else { v with deficit := if v.deficit < 0 then v.deficit else 0 }

/-- R316: the VFs from the one after the last served. -/
def State.serviceOrder (s : State) : List Nat := (List.range 96).map fun i => (s.served + 1 + i) % 96

/-- R316: the VF that the round robin comes to: fewest rounds, then the order. -/
def State.nextServed (s : State) : Option (Nat × Nat) :=
  (s.serviceOrder.filter s.headReady).foldl (fun b v =>
    match b with
    | none => some (v, (s.vf v).rounds)
    | some (u, n) => if (s.vf v).rounds < n then some (v, (s.vf v).rounds) else some (u, n)) none

/-- The credits of every VF when the visits end at `v` in round `n`. -/
def State.credited (s : State) (v n : Nat) : State :=
  let at_ := (s.serviceOrder.findIdx? fun u => u == v).getD 0
  { s.serviceOrder.zipIdx.foldl (fun (r : State) p =>
      r.setVf p.1 ((r.vf p.1).visited (s.headReady p.1) (if p.2 ≤ at_ then n else n - 1))) s with served := v }

/-- The part of a memory that is copied to another place. -/
def sliceMem (m : Memory) (src n dst : Nat) : Memory :=
  (m.filter fun c => decide (src ≤ c.1) && decide (c.1 < src + n)).map fun c => (c.1 - src + dst, c.2)

/-- The uncorrectable words outside a tile's stores. -/
def outsideTile (bad : Map Nat) (t : Nat) : Map Nat :=
  let inside (base a : Nat) : Bool := decide (base ≤ a) && decide (a < base + 2 ^ 20)
  bad.filter fun w => !(inside (localPa t 0) (w.1 * 8) || inside (slotPa t 0 0) (w.1 * 8) || inside (bankPa t 0 0) (w.1 * 8) ||
    inside (regPa (t * 8) 0) (w.1 * 8) || inside (histPa t 0 0) (w.1 * 8))

/-- R314 steps 2 to 4 on one tile, with the field index `i`. The lines that survive a smaller L1 are the newest (log 7). -/
def State.prepareTile (s : State) (k : Nat) (l : Launch) (cimg simg slen t i : Nat) : State :=
  let old := s.tile t
  let same := old.l1.filter fun x => x.owner == l.tag
  let excess := same.length - (Config.localBytes - l.xb - l.scr) / 128
  let lost := (old.l1.filter fun x => x.owner != l.tag) ++ same.take excess
  let s := { s with badWords := outsideTile s.badWords t }
  let s := s.setTile t { store := sliceMem s.mem cimg l.xb 0 ++ sliceMem s.mem simg slen l.xb, launch := some k, xb := l.xb, scr := l.scr
                         race := l.race, l1 := same.drop excess, tlb := old.tlb }
  let s := (List.range 8).foldl (fun s j =>
    s.setStrand (t * 8 + j) { seed := l.seed, srcnt := BitVec.ofNat 64 (i * 2 ^ 48 + j * 2 ^ 44) }) s
  lost.foldl (fun s x => s.writeback (t * 8 + x.writer) x) s

/-- R314 step 5: a cluster's heap is empty. -/
def Cluster.emptyHeap (c : Cluster) : Cluster :=
  { c with tasks := [], published := none, pubAt := 0, stealing := false, refusedAt := none, bad := false }

/-- R314: the tiles of a launch are prepared. -/
def State.prepare (s : State) (l : Launch) (cimg simg slen : Nat) : State :=
  let k := launchKey l.vf l.number
  let s := s.setLaunch k l
  let s := l.tiles.zipIdx.foldl (fun s p => s.prepareTile k l cimg simg slen p.1 p.2) s
  if l.tasks.isSome then l.clusters.foldl (fun s c => s.setCluster c (s.cluster c).emptyHeap) s else s

/-- R358, R361: uncorrectable data that the launch engine reads for a launch with a status: the entry of its task table, then its images (log 40). -/
def State.launchLost (s : State) (l : Launch) (status cimg simg slen : Nat) : Option (Nat × Nat) :=
  (if status = 2 ∨ status = 3 then none else l.tasks.bind (s.tableLost l.vf l.ctx)).orElse fun _ =>
    (if status ≠ 0 ∨ l.xb = 0 then none else s.lostAt cimg l.xb).orElse fun _ => if status ≠ 0 ∨ slen = 0 then none else s.lostAt simg slen

/-- R316: the launch engine takes one VF's head launch: it ends at once with its status, or its tiles are prepared. Where no head can start
its visits leave no VF a credit. A rejected launch takes a number too, also while a reset runs (log 34). Where what it reads is uncorrectable the VF is
frozen (log 40). -/
def execLaunchQueueService (s : State) : Host.Outcome State Fault Refusal :=
  match s.nextServed with
  | none => .next ((s.vfs.filter fun p => decide (0 < p.2.deficit)).foldl (fun s p => s.setVf p.1 ((s.vf p.1).visited false 1)) s)
  | some (v, n) =>
    let e := s.headEntry v
    let slen := natBits e 173 154
    match s.launchLost (entryLaunch v e) (s.launchStatus (entryLaunch v e) slen) (natBits e 255 192) (natBits e 319 256) slen with
    | some (kind, a) => .next (s.freezeVf v kind a)
    | none =>
    let s := s.credited v n
    let f := s.vf v
    let l := { entryLaunch v e with number := f.launchNo + 1 }
    let s := s.setVf v { f with launchNo := l.number }
    let status := s.launchStatus l slen
    .next (if status = 0 then s.prepare l (natBits e 255 192) (natBits e 319 256) slen
      else (s.setVf v { s.vf v with lqhead := (s.vf v).lqhead + 1 }).endedEvent l status)

/-- R214: strand 0 of every tile starts in one cycle c with c mod 8 = 0, once the writebacks are acknowledged; not while its VF is
frozen (R353). Acts on `launch`. -/
def execLaunchStart (s : State) : Host.Outcome State Fault Refusal :=
  let k := s.arg.launch
  let l := s.launch k
  if !s.active k || l.started || (s.vf l.vf).frozen || s.cycle % 8 != 0 || l.strands.any (fun i => !(s.strand i).posted.isEmpty) then .next s
  else
    let s := s.setLaunch k { l with started := true, startAt := s.cycle, stall := 0 }
    let s := l.tiles.foldl (fun s t =>
      let r := s.strand (t * 8)
      s.setStrand (t * 8) (r.start s.cycle l.entry [] (statusStart 0 l.fmode) r.tvb r.ovh (l.tbr.zeroExtend 64))) s
    .next (s.setVf l.vf { s.vf l.vf with lqhead := (s.vf l.vf).lqhead + 1 })

/-! The end of a launch (R219, R224). -/

/-- R219: every strand has halted or is parked. -/
def State.strandsEnded (s : State) (l : Launch) : Bool := l.strands.all fun i => (s.strand i).run.ended

/-- R219: the work that the strands issued has completed or been acknowledged. -/
def State.workDone (s : State) (l : Launch) : Bool :=
  (l.strands.all fun i =>
    let r := s.strand i
    r.longs.isEmpty && r.posted.all (fun p => p.rejected) && r.copies.isEmpty && r.drains.isEmpty) &&
  (l.tiles.all fun t => (s.tile t).array.isEmpty && (s.tile t).encodes.isEmpty && (s.tile t).spill.isEmpty &&
    (s.cluster (clusterOf t)).encoder.all fun e => e.tile != t) &&
  (s.net.all fun m => if m.src < 8192 then !l.tiles.contains (m.src / 8) else !l.clusters.contains (m.src - 8192)) &&
  s.acks.all fun a => !l.tiles.contains (a.src / 8)

/-- The dirty bytes of every L1 of a launch are written back, charged to the strand that last wrote each line (R163, R314). -/
def State.cleanField (s : State) (l : Launch) : State :=
  l.tiles.foldl (fun s t =>
    let lines := (s.tile t).l1
    let s := s.setTile t { s.tile t with l1 := lines.map L1Line.cleaned }
    lines.foldl (fun s x => s.writeback (t * 8 + x.writer) x) s) s

def Launch.status (l : Launch) : Nat := if l.stalled then 6 else if l.faulted then 5 else 0

/-- R219: the tiles become free; parked strands keep their state; frozen masters are unfrozen (R353), but for those of a failed security core
(R358). -/
def State.freeTiles (s : State) (l : Launch) : State :=
  let s := l.tiles.foldl (fun s t => s.setTile t { s.tile t with preempt := .running, copyFrozen := if s.trust.dead then (s.tile t).copyFrozen else none }) s
  l.strands.foldl (fun s i => if (s.strand i).run = .frozen ∧ s.trust.dead = false then s.setStrand i { s.strand i with run := .parked } else s) s

/-- R318: clusters marked for retirement are retired when no launch runs in them. -/
def State.retireMarked (s : State) (l : Launch) : State :=
  (l.tiles.map clusterOf).dedup.foldl (fun s c =>
    if (s.cluster c).retiring && (clusterTiles c).all (fun t => !s.tileHeld t) then s.retireCluster c else s) s

/-- R219: the launch ends: dirty L1 bytes are written back first; then the records of tasks still queued (R280), the event, the credit (R316) and the tiles. Acts on `launch`. -/
def execLaunchEnd (s : State) : Host.Outcome State Fault Refusal :=
  let k := s.arg.launch
  let l := s.launch k
  if !s.active k || !l.started || !s.strandsEnded l || !s.workDone l then .next s
  else if l.tiles.any fun t => (s.tile t).l1.any fun x => x.dirty != 0 then .next (s.cleanField l)
  else
    let s := if l.tasks.isSome ∧ l.term ≠ .closed then l.clusters.foldl (fun s cl => s.writeQueued l cl) s else s
    let s := (s.freeTiles l).setLaunch k { l with ended := true, term := .closed, snaps := [] }
    let v := s.vf l.vf
    let s := s.setVf l.vf { v with deficit := v.deficit - ((l.w * l.h * (s.cycle - l.startAt) : Nat) : Int) }
    .next ((s.endedEvent l l.status).retireMarked l)

/-- R224: the stall detector fires: every strand that has not halted is parked with CODE 18. Acts on `launch`. -/
def execFieldStall (s : State) : Host.Outcome State Fault Refusal :=
  let k := s.arg.launch
  let l := s.launch k
  if !s.active k || !l.started || l.stalled || decide (l.stall < Config.stallLimit) then .next s
  else
    let s := s.setLaunch k { l with stalled := true, term := .closed, snaps := [] }
    .next (l.strands.foldl (fun s i =>
      let r := s.strand i
      if r.run.ended then s
      else (s.setStrand i { r with run := .parked, cause := causeOf 0 18, epc := r.pc.zeroExtend 64, badaddr := 0, fence := none
                                   hyIssue := none, walk := none }).endTask i) s)

/-! Commands (R337): the step of a command is the write of CMDA that starts it. Each acts on `vf` and `value` (what is written). -/

def cmdOp (v : Word) : Nat := natBits v.toNat 3 0
def cmdCtx (v : Word) : Nat := natBits v.toNat 10 8
def cmdTile (v : Word) : Nat := natBits v.toNat 41 32

/-- R337: whether a VF owns the cluster of a tile. -/
def State.ownsTile (s : State) (v t : Nat) : Bool := (s.vf v).clusters.getLsbD (clusterOf t)

/-- R337, R349, R353: a CMDA write: dropped from a frozen VF and while there is none; ignored with LOST while a command runs; rejected with ERR, of
whatever OP where the VF does not own the cluster of TILE; else it runs. -/
def State.command (s : State) (ok : Bool) (k : State → State) : State :=
  let v := s.vf s.arg.vf
  let w := s.arg.value
  if v.frozen ∨ s.trust.stage < 5 then s
  else if v.command.isSome then s.setVf s.arg.vf { v with cmdLost := true }
  else
    let v := { v with cmda := w &&& 0x3FF0000070F#64 }
    if !ok || !s.ownsTile s.arg.vf (cmdTile w) then s.setVf s.arg.vf { v with cmdErr := true }
    else k (s.setVf s.arg.vf { v with cmdErr := false, cmdLost := false, command := some { op := cmdOp w, tile := cmdTile w, ctx := cmdCtx w } })

/-- A command step is one only where the written OP is its own. -/
def State.commandOf (s : State) (op : Nat) (ok : Bool) (k : State → State) : Host.Outcome State Fault Refusal :=
  .next (if cmdOp s.arg.value = op then s.command ok k else s)

/-- R337: whether a tile is held by a launch of a VF. -/
def State.runsFor (s : State) (v t : Nat) : Bool := s.tileHeld t && (s.launchOf t).vf == v

/-- R233, R337: PREEMPT: the tile's deferral starts. -/
def execPreempt (s : State) : Host.Outcome State Fault Refusal :=
  let t := cmdTile s.arg.value
  let v := s.arg.vf
  s.commandOf 5 (s.runsFor v t && (s.launchOf t).started && (s.tile t).preempt == .running) fun s =>
    s.setTile t { s.tile t with preempt := .deferring (s.dt + BitVec.ofNat 64 (s.vf v).defer) }

/-- R233, R234: the limit passes: the strands stop, and those with an open level are marked broken. Acts on `tile`. -/
def execPreemptionDeferralExpiry (s : State) : Host.Outcome State Fault Refusal :=
  let t := s.arg.tile
  match (s.tile t).preempt with
  | .deferring limit =>
    if s.dt < limit then .next s
    else
      let s := s.setTile t { s.tile t with preempt := .expired }
      .next ((strandsOf t).foldl (fun s i => if (s.strand i).spanOpen then s.setStrand i { s.strand i with broken := true } else s) s)
  | _ => .next s

/-- R323 step 3: near copies, output ports and the encode in progress have drained. -/
def State.tileDrained (s : State) (t : Nat) : Bool :=
  ((strandsOf t).all fun i => (s.strand i).copies.all (fun c => c.far) && (s.strand i).drains.isEmpty) &&
    !((s.cluster (clusterOf t)).targets.isSome && (s.cluster (clusterOf t)).encoder.head?.any fun e => e.tile == t)

/-- R233: whether the save instant of a tile has come. -/
def State.saveInstant (s : State) (t : Nat) : Bool :=
  (s.tile t).array.isEmpty && match (s.tile t).preempt with
    | .deferring _ => (strandsOf t).all fun i => !(s.strand i).spanOpen
    | .expired => true
    | _ => false

/-- R323: at the save instant the tile stops and diverts, and its queued blocks are withdrawn (R150); once it has drained, its L1 is written back
and dropped, its state goes to its save area (R324), and CODE 6 is posted. Acts on `tile`. -/
def execTileSave (s : State) : Host.Outcome State Fault Refusal :=
  let t := s.arg.tile
  .next (if s.saveInstant t then (s.setTile t { s.tile t with preempt := .saving }).withdrawBlocks t
    else if (s.tile t).preempt ≠ .saving ∨ s.tileDrained t = false then s
    else
      let lines := (s.tile t).l1
      let s := lines.foldl (fun s x => s.writeback (t * 8 + x.writer) x) (s.setTile t { s.tile t with preempt := .saved, l1 := [] })
      let broken := ((strandsOf t).filter fun i => (s.strand i).broken).length
      (match s.saveLost t false with
        | some (kind, a) => s.freezeOwner (s.launchOf t).vf kind a
        | none => s.writeSaveArea t).event (s.launchOf t).vf 6 (BitVec.ofNat 64 t) (BitVec.ofNat 64 broken))

/-- R325, R337: RESTORE: the save area is read back, the diverted messages are performed in the order of diversion, and the strands resume; a strand that waits
for tasks of closed heaps returns (R293). An uncorrectable save area freezes the VF instead (log 40). -/
def execRestore (s : State) : Host.Outcome State Fault Refusal :=
  let t := cmdTile s.arg.value
  let v := s.arg.vf
  s.commandOf 6 (s.runsFor v t && (s.tile t).preempt == .saved) fun s => match s.saveLost t true with
  | some (kind, a) => s.freezeOwner v kind a
  | none =>
    let spill := (s.tile t).spill
    let s := s.readSaveArea t
    let s := (s.setTile t { s.tile t with preempt := .running, spill := [] }).returnBlocks t
    let s := spill.foldl (fun s m => s.deliverSpilled t m) s
    let l := s.launchOf t
    if l.tasks.isSome && l.term == .closed then
      (strandsOf t).foldl (fun s i =>
        if (s.strand i).run = .waiting ∧ (s.strand i).broken = false then s.setStrand i ((s.strand i).done s.cycle) else s) s
    else s

/-! The reset of a VF (R326, R327). -/

/-- R326 step 1: an FLR stops a VF; before stage 5 there is none (R349). Acts on `vf`. -/
def execVfReset (s : State) : Host.Outcome State Fault Refusal :=
  let v := s.vf s.arg.vf
  .next (if v.reset.isSome ∨ s.trust.stage < 5 then s else s.setVf s.arg.vf { v with reset := some ⟨s.dt + 100000, false⟩ })

/-- The launches of a VF that hold tiles, by their keys. -/
def State.launchesOf (s : State) (v : Nat) : List Nat := (s.launches.filter fun p => p.2.vf == v && s.active p.1).map fun p => p.1

/-- R326: the tiles of a VF: those that its launches hold or held last, and the free ones of its clusters. -/
def State.tilesOf (s : State) (v : Nat) : List Nat :=
  (s.tiles.filter fun p => (p.2.launch.any fun k => k / 2 ^ 32 == v) ||
    ((s.vf v).clusters.getLsbD (clusterOf p.1) && !s.tileHeld p.1)).map fun p => p.1

/-- R326 steps 3 and 5: a tile's work is discarded, and its state is zero. -/
def State.clearTile (s : State) (t : Nat) : State :=
  let s := { s with
    net := s.net.filter fun m => m.src / 8 != t
    acks := s.acks.filter fun a => a.src / 8 != t
    badWords := outsideTile s.badWords t }
  let s := (s.setTile t {})
  let s := (strandsOf t).foldl (fun s i => s.setStrand i {}) s
  let c := s.cluster (clusterOf t)
  let busy := c.targets.isSome && c.encoder.head?.any fun e => e.tile == t
  s.setCluster (clusterOf t) { c.emptyHeap with encoder := c.encoder.filter (fun e => e.tile != t),
                                                targets := if busy then none else c.targets }

/-- R326 step 4: every translation and handle-cache entry of a VF's contexts is invalidated. -/
def State.dropTags (s : State) (v : Nat) : State :=
  { s with
    tiles := s.tiles.filterMap fun p =>
      let t := { p.2 with tlb := p.2.tlb.filter (fun e => e.tag / 8 != v), l1 := p.2.l1.filter fun x => x.owner / 8 != v }
      if t = {} then none else some (p.1, t)
    clusters := s.clusters.filterMap fun p =>
      let c := { p.2 with tlb := p.2.tlb.filter (fun e => e.tag / 8 != v), handles := p.2.handles.filter fun e => e.tag / 8 != v }
      if c = {} then none else some (p.1, c) }

/-- R327: one record of a serving table: bit 31 of ARG3 is set, and the task leaves its heap, or is not inserted again. -/
def State.resetRecord (s : State) (l : Launch) (cl i v : Nat) : State :=
  let id := makeId (l.fc (clusterTile cl 0)) i
  let w := s.record l id
  let t := (s.cluster cl).task i
  if (s.recordLost l id 24 8).isSome then s.unlessRecordLost cl (s.recordLost l id 24 8) s
  else if natBits w 230 224 ≠ v ∨ t.state = .retired then s
  else
    let s := s.putRecord l id 31 1 (natBits w 255 248 ||| 128)
    match t.state with
    | .running => s.setTask cl i { t with killed := true }
    | .idle => s.setTask cl i { t with killed := true }
    | _ => s.retireTask l cl i

/-- R327: every serving table of a launch that holds its tiles. -/
def State.resetServing (s : State) (v : Nat) : State :=
  ((s.launches.filter fun p => p.2.vf != v && s.active p.1).map fun p => p.2).foldl (fun s l =>
    if (s.taskEntry l).getLsbD 138 then
      l.clusters.foldl (fun s cl =>
        if (s.cluster cl).bad then s.freezeHoist cl else (List.range (s.taskQ l)).foldl (fun s i => s.resetRecord l cl i v) s) s
    else s) s

/-- R326 steps 3 to 5, after 100 µs. Its launches are gone, and the next one has number 1 (R216). Acts on `vf`. -/
def execVfResetDrainExpiry (s : State) : Host.Outcome State Fault Refusal :=
  let v := s.arg.vf
  match (s.vf v).reset with
  | none => .next s
  | some w =>
    if w.cleared || decide (s.dt < w.until_) || decide (s.trust.stage < 5) then .next s
    else
      let keys := s.launchesOf v
      let ls := keys.map s.launch
      let s := { s with net := s.net.filter fun m =>
        !(match m.home with
          | .hoist c => ls.any fun l => l.clusters.contains c
          | _ => false) }
      let s := (s.tilesOf v).foldl State.clearTile s
      let s := (s.dropTags v).resetServing v
      let s := { s with launches := s.launches.filter fun p => p.2.vf != v }
      let f := s.vf v
      .next (s.setVf v { f with reset := some { w with cleared := true }, launchNo := 0, command := none, lqhead := f.lqtail, halfRate := [] })

/-- R326 step 6. Acts on `vf`. -/
def execVfResetComplete (s : State) : Host.Outcome State Fault Refusal :=
  let v := s.arg.vf
  match (s.vf v).reset with
  | none => .next s
  | some w =>
    if !w.cleared || decide (s.trust.stage < 5) then .next s
    else .next ((s.setVf v { s.vf v with reset := none, flrDone := true }).event v 7 0 0)

end Sys2Proof.Machine
end

