-- ==== Sys2Proof/Machine/HostPort.lean ====
section
/-! DEFINITION. The host ports: commands, the register window and BAR2 (R306, R311, R312, R331 to R337). -/

namespace Sys2Proof.Machine

/-! Commands (R337). Each acts on `vf` and `value`. -/

/-- R306: OP 1: the handle-cache entries of a context are invalidated. -/
def execHandleInvalidation (s : State) : Host.Outcome State Fault Refusal :=
  s.commandOf 1 true fun s =>
    let tag := s.arg.vf * 8 + cmdCtx s.arg.value
    { s with clusters := s.clusters.filterMap fun p =>
        let c := { p.2 with handles := p.2.handles.filter fun e => e.tag != tag }
        if c = {} then none else some (p.1, c) }

/-- R312: a virtual range of a tag; a length of 0 is the whole tag. -/
structure InvRange where
  tag : Nat
  lo  : Nat
  len : Nat
deriving DecidableEq, Repr

/-- Whether `n` bytes from a virtual address meet the range. -/
def InvRange.meets (r : InvRange) (tag va n : Nat) : Bool :=
  r.tag == tag && (r.len == 0 || (decide (va < r.lo + r.len) && decide (r.lo < va + n)))

def TlbEntry.inRange (e : TlbEntry) (r : InvRange) : Bool := r.meets e.tag (e.page * 2 ^ e.bits) (2 ^ e.bits)

/-- R312, R363: whether an access of a tag at an address passed translation through an entry that the command removes: the page that the entry gave it
(log2 of its size is kept with the access) meets the range. -/
def InvRange.removes (r : InvRange) (tag va page : Nat) : Bool := r.meets tag (va / 2 ^ page * 2 ^ page) (2 ^ page)

/-- An L1 line that came through a removed entry. -/
def InvRange.removesLine (r : InvRange) (x : L1Line) : Bool :=
  match x.home with
  | .channel _ => r.removes x.context (x.line * 128) x.page
  | _ => false

/-- R312: the caches without the range's entries; L1 lines that came through one may not be written back any more (R363). -/
def Tile.invalidate (t : Tile) (r : InvRange) : Tile :=
  { t with tlb := t.tlb.filter (fun e => !e.inRange r)
           l1 := t.l1.map fun x => if r.removesLine x then { x with withdrawn := true } else x }

/-- R312: walks in flight are discarded, those of the strand's engine work too; held pool elements of the range are tried again (R311). -/
def Strand.invalidate (x : Strand) (r : InvRange) : Strand :=
  let keep (w : Walk) : Option Walk := if r.meets w.tag w.va 1 then none else some w
  let x := x.onEngineWalks keep
  { x with
    walk := x.walk.bind keep
    copies := x.copies.map fun c => match c.held with
      | some va => if r.meets c.tag va.toNat 1 then { c with held := none } else c
      | none => c }

/-- R363: a message that passed translation through a removed entry. -/
def InvRange.removesMsg (r : InvRange) (m : Msg) : Bool :=
  match m.tag, m.home with
  | some tag, .channel _ => (m.parts m.bytes).any fun p => r.removes tag p.1.va p.1.page
  | _, _ => false

/-- R312, R363: everything of a range is withdrawn. -/
def State.withdraw (s : State) (r : InvRange) : State :=
  { s with
    tiles := s.tiles.filterMap fun p =>
      let t := p.2.invalidate r
      if t = {} then none else some (p.1, t)
    clusters := s.clusters.filterMap fun p =>
      let c := { p.2 with tlb := p.2.tlb.filter fun e => !e.inRange r }
      if c = {} then none else some (p.1, c)
    strands := s.strands.filterMap fun p => if p.2.invalidate r = {} then none else some (p.1, p.2.invalidate r)
    net := s.net.map fun m => if r.removesMsg m then { m with withdrawn := true } else m }

/-- R312: OP 2: translations of a context over CMDB to CMDB + CMDC − 1. -/
def execTranslationInvalidation (s : State) : Host.Outcome State Fault Refusal :=
  s.commandOf 2 true fun s =>
    let v := s.vf s.arg.vf
    let r : InvRange := ⟨s.arg.vf * 8 + cmdCtx s.arg.value, v.cmdb.toNat, v.cmdc.toNat⟩
    let wait := (s.net.filter r.removesMsg).map fun m => m.id
    (s.withdraw r).setVf s.arg.vf { v with command := v.command.map fun c => { c with wait := wait } }

/-- The held pool copy of a tile, of its lowest slot that has one (R311). -/
def State.heldCopy (s : State) (t : Nat) : Option (Nat × CopyOp) :=
  (strandsOf t).findSome? fun i => ((s.strand i).copies.find? fun c => c.held.isSome).map fun c => (i, c)

/-- R337: OP 3: the held pool element is tried again. -/
def execResume (s : State) : Host.Outcome State Fault Refusal :=
  let t := cmdTile s.arg.value
  s.commandOf 3 (s.heldCopy t).isSome fun s =>
    match s.heldCopy t with
    | some (i, c) => s.setStrand i ((s.strand i).onCopy c.num fun c => { c with held := none, resumed := true })
    | none => s

/-- R175, R337: OP 4: the copy that holds a pool element fails. -/
def execRefuse (s : State) : Host.Outcome State Fault Refusal :=
  let t := cmdTile s.arg.value
  s.commandOf 4 (s.heldCopy t).isSome fun s =>
    match s.heldCopy t with
    | some (i, c) =>
      let va := (c.held.getD 0).toNat
      let c := { c with refused := true }
      let s := s.setStrand i ((s.strand i).onCopy c.num fun _ => c)
      (if c.writing then s.failCopy i c va else s.setStrand i ((s.strand i).onCopy c.num fun c => c.lostElem va)).resave t
    | none => s

/-- R337: OP 0 and 7 to 15 are rejected. -/
def execCommandUndefinedOp (s : State) : Host.Outcome State Fault Refusal :=
  let op := cmdOp s.arg.value
  .next (if op = 0 ∨ 7 ≤ op then s.command false id else s)

/-- R337: whether a running command's completion condition holds: OP 2 waits for the accesses that it withdrew, OP 3 until
the element is retried, OP 4 until the copy is marked failed, OP 5 for the save. -/
def State.commandDone (s : State) (c : Command) : Bool :=
  if c.op = 2 then s.net.all fun m => !c.wait.contains m.id
  else if c.op = 3 ∨ c.op = 4 then (strandsOf c.tile).all fun i => (s.strand i).copies.all fun x => !x.resumed && !x.refused
  else if c.op = 5 then (s.tile c.tile).preempt == .saved || (s.tile c.tile).preempt == .running
  else true

/-- R337: BUSY is cleared. Acts on `vf`. -/
def execCommandComplete (s : State) : Host.Outcome State Fault Refusal :=
  let v := s.vf s.arg.vf
  .next (match v.command with
    | some c => if s.commandDone c then s.setVf s.arg.vf { v with command := none } else s
    | none => s)

/-! The register window (R333). -/

/-- R334: what a host has stored in its own memory before it writes to the device. Acts on `port`, `offset`, `data`. -/
def State.hostStores (s : State) : State :=
  match s.arg.data with
  | some bytes => if s.hostPort s.arg.port then { s with hostMem := writeBytes s.hostMem (hostPlace s.arg.port s.arg.offset) bytes } else s
  | none => s

/-- R335: the host's own stores, then its write of LQTAIL; ignored where more than 256 entries would be covered. Acts on `vf`, `value`,
`port` and, for the host's stores, `offset`, `data`. -/
def execLqtailWrite (s : State) : Host.Outcome State Fault Refusal :=
  let s := s.hostStores
  let v := s.vf s.arg.vf
  let w : BitVec 32 := s.arg.value.truncate 32
  .next (if !s.hostPort s.arg.port ∨ s.trust.stage < 5 ∨ v.frozen ∨ 256 < (w - v.lqhead).toNat then s else s.setVf s.arg.vf { v with lqtail := w })

/-- R337: CMDSTAT. -/
def Vf.cmdStat (v : Vf) : Word :=
  BitVec.ofNat 64 ((if v.cmdLost then 4 else 0) + (if v.cmdErr then 2 else 0) + (if v.command.isSome then 1 else 0))

/-- R333: what a register of the window reads as. -/
def State.windowRead (s : State) (n offset : Nat) : Word :=
  let v := s.vf n
  if offset = 0x000 then BitVec.ofNat 64 (n % 128 + s.linkId.toNat * 65536)
  else if offset = 0x008 then v.lqbase
  else if offset = 0x010 then v.lqtail.zeroExtend 64
  else if offset = 0x018 then v.lqhead.zeroExtend 64
  else if offset = 0x020 then v.evq
  else if offset = 0x028 then v.log
  else if offset = 0x030 then v.ien
  else if offset = 0x038 then v.wctx
  else if offset = 0x100 then v.cmda
  else if offset = 0x108 then v.cmdb
  else if offset = 0x110 then v.cmdc
  else if offset = 0x118 then v.cmdStat
  else 0

/-- R333: a write of a register that has no step of its own; read-only and unlisted offsets ignore it. -/
def Vf.windowWrite (v : Vf) (port offset : Nat) (w : Word) : Vf :=
  if offset = 0x008 then { v with lqbase := w &&& ~~~ 0x3FFF#64, lqPort := port }
  else if offset = 0x020 then { v with evq := w }
  else if offset = 0x028 then { v with log := w }
  else if offset = 0x030 then { v with ien := w &&& 1 }
  else if offset = 0x038 then { v with wctx := w &&& 7 }
  else if offset = 0x108 then { v with cmdb := w }
  else if offset = 0x110 then { v with cmdc := w }
  else v

/-- A host read is answered (R333). -/
def State.hostAnswer (s : State) (bytes : List Byte) : State := { s with hostReads := s.hostReads ++ [bytes] }

/-- R333, R345, R349, R353: a host access of the register window: 8 bytes wide and aligned, or without effect, as while there is no VF; `data`
is none for a read. Acts on `vf`, `port`, `offset`, `size`, `data`, `value`. -/
def execBar0RegisterWrite (s : State) : Host.Outcome State Fault Refusal :=
  let n := s.arg.vf
  let v := s.vf n
  let bad := v.frozen || decide (s.trust.stage < 5) || s.arg.size != 8 || s.arg.offset % 8 != 0
  .next (if !s.hostPort s.arg.port then s else match s.arg.data with
    | none => s.hostAnswer (if bad then List.replicate s.arg.size 0xFF else natToBytes 8 (s.windowRead n s.arg.offset).toNat)
    | some _ => if bad then s else s.setVf n (v.windowWrite s.arg.port s.arg.offset s.arg.value))

/-! BAR2 (R333). -/

/-- Where the bytes of an access by a context are (R309): addresses with their table entries where logged; or a fault; or a
violation. -/
def State.hostTranslate (s : State) (tag va : Nat) (rd wr : Bool) : Nat → Except Bool (List (Nat × Option Nat))
  | 0 => .ok []
  | n + 1 =>
    match s.walk tag va with
    | .violation => .error true
    | .fault => .error false
    | .lost _ _ => .error false
    | .leaf e =>
      match e.trans va rd wr, s.hostTranslate tag (va + 1) rd wr n with
      | .page pa leaf, .ok r => .ok ((pa, leaf) :: r)
      | .page _ _, .error x => .error x
      | _, _ => .error false

/-- What an access does with the bytes at its home: those it writes, its answer, its flags. -/
abbrev Effect := List Byte → Option (List Byte) × List Byte × Flags

def readEffect : Effect := fun old => (none, old, 0)
def writeEffect (bytes : List Byte) : Effect := fun _ => (some bytes, [], 0)

/-- An access by a context from outside the tiles: performed at its home, or refused; that uncorrectable data, in its bytes or in a table entry, and a
retired channel refuse it is log 37. `looks`: it examines the bytes there. The answer: the bytes and flags, none where it is refused; `freeze` is what
an ownership violation does to the master. -/
def State.outsideAccess (s : State) (tag va size : Nat) (rd wr looks : Bool) (effect : Effect) (freeze : Nat → State → State) :
    State × Option (List Byte × Flags) :=
  match s.hostTranslate tag va rd wr size with
  | .error true => (freeze va s, none)
  | .error false => (s, none)
  | .ok places =>
    if places.any fun p => s.homeRetired (.channel (p.1 / Config.channelBytes)) then (s, none)
    else if looks && places.any fun p => (badIn s.badWords p.1 1).isSome then (s, none)
    else
      let (new, answer, fl) := effect (places.map fun p => readByte s.mem p.1)
      match new with
      | none => (places.foldl (fun s p => s.bankAccess (tag / 8) (.channel (p.1 / Config.channelBytes)) p.1 false) s, some (answer, fl))
      | some bytes =>
        let s := places.zipIdx.foldl (fun s p => s.logWrite tag (va + p.2) p.1.2) s
        let s := places.foldl (fun s p => s.bankAccess (tag / 8) (.channel (p.1 / Config.channelBytes)) p.1 true) s
        let runs := (places.map fun p => p.1).zip bytes
        let s := { s with mem := runs.foldl (fun m p => writeByte m p.1 p.2) s.mem
                          badWords := s.badWords.filter fun w => !((List.range 8).all fun i => runs.any fun p => p.1 == w.1 * 8 + i) }
        (s, some (answer, fl))

/-- R333: a host access through BAR2, by context WCTX. Acts on `vf`, `port`, `offset`, `size`, `data`. -/
def execBar2Access (s : State) : Host.Outcome State Fault Refusal :=
  let n := s.arg.vf
  let v := s.vf n
  let ones := List.replicate s.arg.size (0xFF : Byte)
  if !s.hostPort s.arg.port then .next s
  else if v.frozen ∨ s.trust.stage < 5 then .next (if s.arg.data.isNone then s.hostAnswer ones else s)
  else
    let act := match s.arg.data with
      | some d => writeEffect (d.take s.arg.size)
      | none => readEffect
    let (s', got) := s.outsideAccess (n * 8 + v.wctx.toNat % 8) (s.arg.offset % 2 ^ 36) s.arg.size s.arg.data.isNone s.arg.data.isSome s.arg.data.isNone act
      fun va s => s.freezeVf n 1 va
    .next (if s.arg.data.isSome then s' else s'.hostAnswer ((got.map fun g => g.1).getD ones))

end Sys2Proof.Machine
end

