-- ==== Sys2Proof/Machine/Thermal.lean ====
section
/-! DEFINITION. Thermal protection: the steps of the arithmetic clock (R26, R27). -/

namespace Sys2Proof.Machine

/-- The steps of the arithmetic clock (R26). -/
def clockStep (mhz : Nat) : Bool := mhz == 600 || mhz == 480 || mhz == 360

/-- R27: a hot die requests a lower step. Acts on `die`, `mhz`. -/
def execSoftThrottleRequest (s : State) : Host.Outcome State Fault Refusal :=
  .next (if clockStep s.arg.mhz ∧ s.arg.mhz < s.mhz then
      { s with throttles := s.throttles ++ [⟨s.arg.die, s.arg.mhz, s.dt, false⟩] }
    else s)

/-- R27: a die at its critical temperature hard-throttles the package at once. Acts on `die`, `mhz`. -/
def execCriticalTemperature (s : State) : Host.Outcome State Fault Refusal :=
  .next (if clockStep s.arg.mhz ∧ s.arg.mhz < s.mhz then
      { s with throttles := s.throttles ++ [⟨s.arg.die, s.arg.mhz, s.dt, true⟩] }
    else s)

/-- R27: a soft request that still waits after 1 ms. -/
def Throttle.overdue (t : Throttle) (now : Word) : Bool := !t.hard && decide (t.at_.toNat + 1000000 ≤ now.toNat)

/-- R27: overdue soft requests become hard throttles, made at this instant. -/
def execHardThrottle (s : State) : Host.Outcome State Fault Refusal :=
  .next { s with throttles := s.throttles.map fun t => if t.overdue s.dt then { t with hard := true, at_ := s.dt } else t }

/-- R27, R235: whether a span is open on any tile. -/
def State.spanOpenAnywhere (s : State) : Bool := s.strands.any fun p => p.2.spanOpen

/-- R27: whether a hard throttle must take effect at this cycle boundary: the next one is more than 2 µs after it was made. -/
def State.throttleDue (s : State) (t : Throttle) : Bool :=
  t.hard && decide (36 * (t.at_.toNat + 2000) < s.dt36 + 36000 / s.mhz)

/-- R27: a request may take effect: a hard one at any time, a soft one while no span is open. -/
def State.throttleRipe (s : State) (t : Throttle) : Bool := t.hard || !s.spanOpenAnywhere

/-- R27, R321: a step takes effect on all dies, and every VF that owns a cluster receives CODE 3. -/
def State.stepClock (s : State) (die mhz : Nat) : State :=
  let s := { s with mhz := mhz }
  (s.vfs.filter fun p => p.2.clusters != 0).foldl (fun s p => s.event p.1 3 (BitVec.ofNat 64 die) (BitVec.ofNat 64 mhz)) s

/-- R27: at a cycle boundary, the first request that may take effect steps the clock down; with no request waiting a restored clock steps it up. Acts on
`die`, `mhz` for a step up. -/
def execThrottleStep (s : State) : Host.Outcome State Fault Refusal :=
  .next (if s.cursor ≠ 0 then s else match s.throttles.find? s.throttleRipe with
    | some t =>
      let s' := { s with throttles := s.throttles.filter fun u => u != t }
      if t.mhz < s.mhz then s'.stepClock t.die t.mhz else s'
    | none =>
      if s.throttles = [] ∧ clockStep s.arg.mhz ∧ s.mhz < s.arg.mhz then s.stepClock s.arg.die s.arg.mhz else s)

end Sys2Proof.Machine
end

