-- ==== Sys2Proof/Machine/Fabric.lean ====
section
/-! DEFINITION. Ghemal Link and the pool: flits, ports, requests of other devices, occupancy and the loss of the pool link (R317, R332,
R338 to R343). -/

namespace Sys2Proof.Machine

/-! Flits (R338). -/

/-- The ECMA-182 polynomial. -/
def crcPoly : BitVec 64 := 0x42F0E1EBA9EA3693

/-- One bit into the CRC, most significant first. -/
def crcBit (c : BitVec 64) (b : Bool) : BitVec 64 :=
  let c' := c <<< 1
  if c.getLsbD 63 != b then c' ^^^ crcPoly else c'

/-- The CRC of bytes from the first up. -/
def crcBytes (bs : List Byte) : BitVec 64 :=
  bs.foldl (fun c b => (List.range 8).foldl (fun c i => crcBit c (b.getLsbD (7 - i))) c) 0

/-- The header and the payload in the order of their bytes. -/
def flitBytes (f : Flit) : List Byte := natToBytes 8 f.header.toNat ++ natToBytes 240 f.payload.toNat
def flitIntact (f : Flit) : Bool := f.crc == crcBytes (flitBytes f)
/-- The sequence number: header bits 7 to 0 (log 41). -/
def flitSeq (f : Flit) : BitVec 8 := f.header.truncate 8

/-- R338: what a port that carries flits does with one: deliver the expected one; ask for retransmission of a bad one and discard what follows. -/
def LinkPort.take (p : LinkPort) (f : Flit) : LinkPort :=
  if !p.live then p
  else if !flitIntact f then
    if p.nak && flitSeq f != p.expect then p else { p with nak := true, failures := p.failures + 1 }
  else if flitSeq f = p.expect then { p with expect := p.expect + 1, failures := 0, nak := false, delivered := p.delivered ++ [f.payload] }
  else p

/-- R360: the instants of the last 24 hours. -/
def recent (now : Word) (ts : List Word) : List Word := ts.filter fun t => decide (now.toNat < t.toNat + 86400000000000)

/-- R361: a port's retry is counted. -/
def LinkPort.retried (p : LinkPort) (now : Word) : LinkPort := { p with retries := recent now p.retries ++ [now] }

/-- R338, R356: a link port receives a flit, or, with `refused`, the other side's wish for retransmission from the oldest flit it lacks; each retry is
counted (R361). Port 96 + n is link n of the mesh, whose retries alone are counted (log 41). Acts on `port`, `flit`, `refused`. -/
def execFlitReceive (s : State) : Host.Outcome State Fault Refusal :=
  let n := s.arg.port
  let p := s.link n
  .next (if 96 ≤ n then
      (if s.arg.refused ∨ flitIntact s.arg.flit = false then
        { s with trust := { s.trust with meshRetries := mapPut [] s.trust.meshRetries (n - 96) (recent s.dt (mapGet [] s.trust.meshRetries (n - 96)) ++ [s.dt]) } }
      else s)
    else if s.arg.refused then (if p.live then s.setLink n { p.retried s.dt with sendFails := p.sendFails + 1 } else s)
    else
      let q := p.take s.arg.flit
      s.setLink n (if p.failures < q.failures then q.retried s.dt else q))

/-- R338, R339: a flit that has failed, and then 8 retransmissions of it, take the port down, in either direction; the pairs move. Acts on
`port`. -/
def execFabricPortDown (s : State) : Host.Outcome State Fault Refusal :=
  let p := s.link s.arg.port
  .next (if 9 ≤ p.failures ∨ 9 ≤ p.sendFails then (s.setLink s.arg.port { p with down := true, sendFails := 0 }).movePort s.arg.port else s)

/-- R339, R345, R353: a port retrains and returns to service, unless it is retired. Acts on `port`. -/
def execFabricPortRetrain (s : State) : Host.Outcome State Fault Refusal :=
  let p := s.link s.arg.port
  .next (if p.retired || s.trust.dead then s
    else s.setLink s.arg.port { p with down := false, frozen := false, expect := 0, failures := 0, nak := false, sendSeq := 0, sendFails := 0 })

/-- R339, R353: a fabric port is frozen by an ownership violation, and its pairs move. -/
def State.freezePort (s : State) (port vf addr : Nat) : State :=
  ((s.setLink port { s.link port with frozen := true }).movePort port).violation addr 1 3 port vf

/-- R254, R340: what a request of another device does at its home. -/
def remoteEffect (op : RemoteOp) (data : Option (List Byte)) : Effect :=
  match op with
  | .plain => match data with
    | none => readEffect
    | some bytes => writeEffect bytes
  | .compare want => fun old => (if old = want then data else none, [], 0)
  | .atomic sub fmt b c => fun old =>
    let (v, fl) := atomicNew sub fmt (bytesToNat old) b c
    (some (natToBytes old.length v), old, fl)

/-- The rights that it needs: to read, to write. -/
def remoteRights (op : RemoteOp) (data : Option (List Byte)) : Bool × Bool :=
  match op with
  | .plain => (data.isNone, data.isSome)
  | .compare _ => (false, true)
  | .atomic _ _ _ _ => (true, true)

/-- Whether it examines the bytes at its home: it reads or compares them (R358). -/
def remoteLooks (op : RemoteOp) (data : Option (List Byte)) : Bool :=
  match op with
  | .plain => data.isNone
  | _ => true

/-- R254, R340: a request of another device arrives on a port for a context of a VF here: translated, checked and performed at its home, or
refused. Acts on `port`, `vf`, `ctx`, `offset`, `size`, `data`, `remote`. -/
def execFabricRequestArrival (s : State) : Host.Outcome State Fault Refusal :=
  let p := s.link s.arg.port
  let v := s.arg.vf
  if !p.live || !(s.vf v).fabric.getLsbD s.arg.port then .next s
  else
    let tag := v * 8 + s.arg.ctx % 8
    let data := s.arg.data.map fun d => d.take s.arg.size
    let (rd, wr) := remoteRights s.arg.remote data
    let (s', got) := s.outsideAccess tag (s.arg.offset % 2 ^ 49) s.arg.size rd wr (remoteLooks s.arg.remote data) (remoteEffect s.arg.remote data)
      fun va s => s.freezePort s.arg.port v va
    let q := s'.link s.arg.port
    .next (s'.setLink s.arg.port { q with answers := q.answers ++ [got] })

/-! The pool and its occupancy. -/

/-- R317: the controllers' publication: each VF's clusters issue at half rate to the channels listed for it. Acts on `busy`. -/
def execPoolOccupancyPublication (s : State) : Host.Outcome State Fault Refusal :=
  let busy := s.arg.busy.filter fun p => s.pooled.getLsbD p.2
  .next ((List.range 96).foldl (fun s v =>
    s.setVf v { s.vf v with halfRate := (busy.filter fun p => p.1 == v).map fun p => p.2 }) s)

/-- The pool end of a copy where its next element touches the pool. -/
def CopyOp.poolPlace (c : CopyOp) : Option (Place × Int) :=
  let isPool (p : Place) : Bool := match p with
    | .handle _ e _ => entrySpace e == 1
    | _ => false
  if c.writing then
    if isPool c.dst then some (c.dst, (c.row : Int) * c.ds + (elemByte (fmtWidth c.df) c.elem : Nat)) else none
  else if isPool c.src then some (c.src, (c.row : Int) * c.ss + (elemByte (fmtWidth c.sf) c.elem : Nat)) else none

/-- R332: the pool element in flight of one strand is held, with a CODE 5 event; from the save instant of its tile on none is in flight (R323). -/
def State.holdPool (s : State) (who : Nat) : State :=
  match if s.diverts (who / 8) then none else (s.strand who).copyAt true with
  | some c =>
    if c.rows ≤ c.row then s
    else match c.poolPlace with
    | some (.handle i e o, shift) =>
      s.holdCopy who c (.handle i e o) (entryVa e (((o : Int) + shift) % ((2 ^ 48 : Nat) : Int)).toNat)
    | _ => s
  | none => s

/-- R332: port B's link goes down: every pool element in flight is held, and so is each that is tried until the link is up again. Acts on
`up`. -/
def execPoolLinkDown (s : State) : Host.Outcome State Fault Refusal :=
  .next (if s.arg.up then { s with poolDown := false }
    else (s.strands.map fun p => p.1).foldl State.holdPool { s with poolDown := true })

end Sys2Proof.Machine
end

