-- ==== Sys2Proof/Machine/Crypto.lean ====
section
/-! DEFINITION. The cryptography of boot and attestation (R347, R352): SHA-384 and SHA-256 (FIPS 180-4), ECDSA over P-384 (FIPS 186-5) and LMS
(RFC 8554), of which the spec fixes the parameters (R346; log 11). -/

namespace Sys2Proof.Machine

/-! Hashes. -/

/-- The round constants of SHA-384. -/
def k512 : List (BitVec 64) :=
  [0x428A2F98D728AE22, 0x7137449123EF65CD, 0xB5C0FBCFEC4D3B2F, 0xE9B5DBA58189DBBC] ++
  [0x3956C25BF348B538, 0x59F111F1B605D019, 0x923F82A4AF194F9B, 0xAB1C5ED5DA6D8118] ++
  [0xD807AA98A3030242, 0x12835B0145706FBE, 0x243185BE4EE4B28C, 0x550C7DC3D5FFB4E2] ++
  [0x72BE5D74F27B896F, 0x80DEB1FE3B1696B1, 0x9BDC06A725C71235, 0xC19BF174CF692694] ++
  [0xE49B69C19EF14AD2, 0xEFBE4786384F25E3, 0x0FC19DC68B8CD5B5, 0x240CA1CC77AC9C65] ++
  [0x2DE92C6F592B0275, 0x4A7484AA6EA6E483, 0x5CB0A9DCBD41FBD4, 0x76F988DA831153B5] ++
  [0x983E5152EE66DFAB, 0xA831C66D2DB43210, 0xB00327C898FB213F, 0xBF597FC7BEEF0EE4] ++
  [0xC6E00BF33DA88FC2, 0xD5A79147930AA725, 0x06CA6351E003826F, 0x142929670A0E6E70] ++
  [0x27B70A8546D22FFC, 0x2E1B21385C26C926, 0x4D2C6DFC5AC42AED, 0x53380D139D95B3DF] ++
  [0x650A73548BAF63DE, 0x766A0ABB3C77B2A8, 0x81C2C92E47EDAEE6, 0x92722C851482353B] ++
  [0xA2BFE8A14CF10364, 0xA81A664BBC423001, 0xC24B8B70D0F89791, 0xC76C51A30654BE30] ++
  [0xD192E819D6EF5218, 0xD69906245565A910, 0xF40E35855771202A, 0x106AA07032BBD1B8] ++
  [0x19A4C116B8D2D0C8, 0x1E376C085141AB53, 0x2748774CDF8EEB99, 0x34B0BCB5E19B48A8] ++
  [0x391C0CB3C5C95A63, 0x4ED8AA4AE3418ACB, 0x5B9CCA4F7763E373, 0x682E6FF3D6B2B8A3] ++
  [0x748F82EE5DEFB2FC, 0x78A5636F43172F60, 0x84C87814A1F0AB72, 0x8CC702081A6439EC] ++
  [0x90BEFFFA23631E28, 0xA4506CEBDE82BDE9, 0xBEF9A3F7B2C67915, 0xC67178F2E372532B] ++
  [0xCA273ECEEA26619C, 0xD186B8C721C0C207, 0xEADA7DD6CDE0EB1E, 0xF57D4F7FEE6ED178] ++
  [0x06F067AA72176FBA, 0x0A637DC5A2C898A6, 0x113F9804BEF90DAE, 0x1B710B35131C471B] ++
  [0x28DB77F523047D84, 0x32CAAB7B40C72493, 0x3C9EBE0A15C9BEBC, 0x431D67C49C100D4C] ++
  [0x4CC5D4BECB3E42B6, 0x597F299CFC657E2A, 0x5FCB6FAB3AD6FAEC, 0x6C44198C4A475817]

/-- The round constants of SHA-256. -/
def k256 : List (BitVec 32) :=
  [0x428A2F98, 0x71374491, 0xB5C0FBCF, 0xE9B5DBA5, 0x3956C25B, 0x59F111F1, 0x923F82A4, 0xAB1C5ED5] ++
  [0xD807AA98, 0x12835B01, 0x243185BE, 0x550C7DC3, 0x72BE5D74, 0x80DEB1FE, 0x9BDC06A7, 0xC19BF174] ++
  [0xE49B69C1, 0xEFBE4786, 0x0FC19DC6, 0x240CA1CC, 0x2DE92C6F, 0x4A7484AA, 0x5CB0A9DC, 0x76F988DA] ++
  [0x983E5152, 0xA831C66D, 0xB00327C8, 0xBF597FC7, 0xC6E00BF3, 0xD5A79147, 0x06CA6351, 0x14292967] ++
  [0x27B70A85, 0x2E1B2138, 0x4D2C6DFC, 0x53380D13, 0x650A7354, 0x766A0ABB, 0x81C2C92E, 0x92722C85] ++
  [0xA2BFE8A1, 0xA81A664B, 0xC24B8B70, 0xC76C51A3, 0xD192E819, 0xD6990624, 0xF40E3585, 0x106AA070] ++
  [0x19A4C116, 0x1E376C08, 0x2748774C, 0x34B0BCB5, 0x391C0CB3, 0x4ED8AA4A, 0x5B9CCA4F, 0x682E6FF3] ++
  [0x748F82EE, 0x78A5636F, 0x84C87814, 0x8CC70208, 0x90BEFFFA, 0xA4506CEB, 0xBEF9A3F7, 0xC67178F2]

/-- The first chaining values. -/
def h384 : List (BitVec 64) :=
  [0xCBBB9D5DC1059ED8, 0x629A292A367CD507, 0x9159015A3070DD17, 0x152FECD8F70E5939] ++
  [0x67332667FFC00B31, 0x8EB44A8768581511, 0xDB0C2E0D64F98FA7, 0x47B5481DBEFA4FA4]
def h256 : List (BitVec 32) :=
  [0x6A09E667, 0xBB67AE85, 0x3C6EF372, 0xA54FF53A, 0x510E527F, 0x9B05688C, 0x1F83D9AB, 0x5BE0CD19]

/-- What a hash of the family is built from: its round constants and the rotations of its functions; the last of each small one is a shift. -/
structure ShaParams (w : Nat) where
  k  : List (BitVec w)
  S1 : Nat × Nat × Nat
  S0 : Nat × Nat × Nat
  s1 : Nat × Nat × Nat
  s0 : Nat × Nat × Nat

def sha384Params : ShaParams 64 := ⟨k512, (14, 18, 41), (28, 34, 39), (19, 61, 6), (1, 8, 7)⟩
def sha256Params : ShaParams 32 := ⟨k256, (6, 11, 25), (2, 13, 22), (17, 19, 10), (7, 18, 3)⟩

def bigSigma {w : Nat} (r : Nat × Nat × Nat) (x : BitVec w) : BitVec w := x.rotateRight r.1 ^^^ x.rotateRight r.2.1 ^^^ x.rotateRight r.2.2
def smallSigma {w : Nat} (r : Nat × Nat × Nat) (x : BitVec w) : BitVec w := x.rotateRight r.1 ^^^ x.rotateRight r.2.1 ^^^ (x >>> r.2.2)

/-- The message schedule, newest word first. -/
def shaSchedule {w : Nat} (p : ShaParams w) : Nat → List (BitVec w) → List (BitVec w)
  | 0, ws => ws
  | n + 1, ws => shaSchedule p n
      ((smallSigma p.s1 (ws.getD 1 0) + ws.getD 6 0 + smallSigma p.s0 (ws.getD 14 0) + ws.getD 15 0) :: ws)

/-- One round on the eight working words. -/
def shaRound {w : Nat} (p : ShaParams w) (v : List (BitVec w)) (kw : BitVec w × BitVec w) : List (BitVec w) :=
  match v with
  | [a, b, c, d, e, f, g, h] =>
    let t1 := h + bigSigma p.S1 e + ((e &&& f) ^^^ (~~~ e &&& g)) + kw.1 + kw.2
    let t2 := bigSigma p.S0 a + ((a &&& b) ^^^ (a &&& c) ^^^ (b &&& c))
    [t1 + t2, a, b, c, d + t1, e, f, g]
  | v => v

/-- One block of 16 words. -/
def shaBlock {w : Nat} (p : ShaParams w) (h block : List (BitVec w)) : List (BitVec w) :=
  let ws := (shaSchedule p (p.k.length - 16) block.reverse).reverse
  List.zipWith (· + ·) h ((p.k.zip ws).foldl (shaRound p) h)

/-- A number from bytes, the first the highest; and back. -/
def beNat (bs : List Byte) : Nat := bytesToNat bs.reverse
def beBytes (n v : Nat) : List Byte := (natToBytes n v).reverse

/-- The words of a padded message, block after block. -/
def shaBlocks {w : Nat} (p : ShaParams w) : Nat → List Byte → List (BitVec w) → List (BitVec w)
  | 0, _, h => h
  | n + 1, bs, h =>
    let block := (List.range 16).map fun i => BitVec.ofNat w (beNat ((bs.drop (w / 8 * i)).take (w / 8)))
    shaBlocks p n (bs.drop (2 * w)) (shaBlock p h block)

/-- The padded message: a one bit, zeros, and the length in bits in the last quarter of the 16 words of a block. -/
def shaPad (w : Nat) (msg : List Byte) : List Byte :=
  let block := 2 * w
  let last := w / 4
  let zeros := (block - (msg.length + 1 + last) % block) % block
  msg ++ [0x80] ++ List.replicate zeros 0 ++ beBytes last (8 * msg.length)

def shaBytes {w : Nat} (p : ShaParams w) (h : List (BitVec w)) (msg : List Byte) : List Byte :=
  let m := shaPad w msg
  (shaBlocks p (m.length / (2 * w)) m h).flatMap fun x => beBytes (w / 8) x.toNat

/-- SHA-384: 48 bytes. -/
def sha384Bytes (msg : List Byte) : List Byte := (shaBytes sha384Params h384 msg).take 48
/-- SHA-256: 32 bytes. -/
def sha256Bytes (msg : List Byte) : List Byte := shaBytes sha256Params h256 msg
/-- SHA-384 with its first byte lowest, as it lies in memory. -/
def sha384 (msg : List Byte) : BitVec 384 := BitVec.ofNat 384 (bytesToNat (sha384Bytes msg))

/-! ECDSA over P-384. -/

def curveP : Nat := 2 ^ 384 - 2 ^ 128 - 2 ^ 96 + 2 ^ 32 - 1
def curveOrder : Nat := 0xFFFFFFFFFFFFFFFFFFFFFFFFFFFFFFFFFFFFFFFFFFFFFFFFC7634D81F4372DDF581A0DB248B0A77AECEC196ACCC52973
def curveB : Nat := 0xB3312FA7E23EE7E4988E056BE3F82D19181D9C6EFE8141120314088F5013875AC656398D8A2ED19D2A85C8EDD3EC2AEF
/-- A point; none at infinity. -/
abbrev Point := Option (Nat × Nat)
def curveG : Point := some (0xAA87CA22BE8B05378EB1C71EF320AD746E1D3B628BA79B9859F741E082542A385502F25DBF55296C3A545E3872760AB7,
  0x3617DE4A96262C6F5D9E98BF9292DC29F8F41DBD289A147CE9DA3113B5F0B8C00A60B1CE1D7E819D7A431D7C90EA0E5F)

/-- A power by squaring; `n` counts the bits of the exponent. -/
def powMod (m : Nat) : Nat → Nat → Nat → Nat
  | 0, _, _ => 1 % m
  | n + 1, b, e =>
    let r := powMod m n (b * b % m) (e / 2)
    if e % 2 = 1 then r * b % m else r
/-- The inverse for a prime modulus of 384 bits. -/
def invMod (m a : Nat) : Nat := powMod m 384 (a % m) (m - 2)

/-- The sum of two points. -/
def pointAdd (p q : Point) : Point :=
  match p, q with
  | none, q => q
  | p, none => p
  | some (x1, y1), some (x2, y2) =>
    if x1 = x2 ∧ (y1 + y2) % curveP = 0 then none
    else
      let l := if x1 = x2 then (3 * x1 * x1 + (curveP - 3)) * invMod curveP (2 * y1) % curveP
        else (y2 + (curveP - y1)) * invMod curveP (x2 + (curveP - x1)) % curveP
      let x := (l * l + 2 * curveP - x1 - x2) % curveP
      some (x, (l * (x1 + (curveP - x)) + (curveP - y1)) % curveP)

/-- A multiple of a point; `n` counts the bits of the factor. -/
def pointMul : Nat → Nat → Point → Point
  | 0, _, _ => none
  | n + 1, k, p =>
    let r := pointMul n (k / 2) (pointAdd p p)
    if k % 2 = 1 then pointAdd r p else r

/-- A public key: a point of the curve. -/
def onCurve (x y : Nat) : Bool := decide (x < curveP) && decide (y < curveP) && decide (y * y % curveP = (x * x * x + (curveP - 3) * x + curveB) % curveP)

/-- ECDSA verification of a message under a public key: signature r, then s, each 48 bytes, lowest first (R346). -/
def ecdsaVerify (key : Nat × Nat) (msg sig : List Byte) : Bool :=
  let r := bytesToNat (sig.take 48)
  let s := bytesToNat ((sig.drop 48).take 48)
  if r = 0 ∨ curveOrder ≤ r ∨ s = 0 ∨ curveOrder ≤ s ∨ onCurve key.1 key.2 = false then false
  else
    let w := invMod curveOrder s
    let u1 := beNat (sha384Bytes msg) * w % curveOrder
    let u2 := r * w % curveOrder
    match pointAdd (pointMul 384 u1 curveG) (pointMul 384 u2 (some key)) with
    | none => false
    | some (x, _) => x % curveOrder == r

/-! LMS: LMS_SHA256_M32_H10 with LMOTS_SHA256_N32_W4. -/

/-- One chain of the one-time signature from a digit to its end: `n` hashes, the first numbered 15 − n. -/
def lmsChain (pre : List Byte) : Nat → List Byte → List Byte
  | 0, x => x
  | n + 1, x => lmsChain pre n (sha256Bytes (pre ++ beBytes 1 (14 - n) ++ x))

/-- The 67 digits of four bits of a hash and its checksum. -/
def lmsDigits (q : List Byte) : List Nat :=
  let nibbles (bs : List Byte) : List Nat := bs.flatMap fun b => [b.toNat / 16, b.toNat % 16]
  let ds := nibbles q
  let sum := (ds.map fun d => 15 - d).foldl (· + ·) 0
  ds ++ (nibbles (beBytes 2 (sum * 16))).take 3

/-- From a leaf to the root along the path; `node` is the leaf's number. -/
def lmsRoot (id : List Byte) : List (List Byte) → Nat → List Byte → List Byte
  | [], _, x => x
  | y :: ys, node, x =>
    lmsRoot id ys (node / 2) (sha256Bytes (id ++ beBytes 4 (node / 2) ++ [0x83, 0x83] ++ if node % 2 = 1 then y ++ x else x ++ y))

/-- LMS verification of a message under a public key: an identifier of 16 bytes and a root of 32. -/
def lmsVerify (key : List Byte × List Byte) (msg sig : List Byte) : Bool :=
  let part (at_ n : Nat) : List Byte := (sig.drop at_).take n
  let q := beNat (part 0 4)
  let pre := key.1 ++ beBytes 4 q
  let digest := sha256Bytes (pre ++ [0x81, 0x81] ++ part 8 32 ++ msg)
  let ends := (lmsDigits digest).zipIdx.map fun d => lmsChain (pre ++ beBytes 2 d.2) (15 - d.1) (part (40 + 32 * d.2) 32)
  let leaf := sha256Bytes (key.1 ++ beBytes 4 (1024 + q) ++ [0x82, 0x82] ++ sha256Bytes (pre ++ [0x80, 0x80] ++ ends.flatten))
  let path := (List.range 10).map fun i => part (2188 + 32 * i) 32
  decide (sig.length = 2508) && decide (q < 1024) && beNat (part 4 4) == 3 && beNat (part 2184 4) == 6 && lmsRoot key.1 path (1024 + q) leaf == key.2

end Sys2Proof.Machine
end

