-- ==== Sys2Proof/Machine/Trust.lean ====
section
/-! DEFINITION. Boot, trust and repair (R303, R315, R318, R345 to R361). -/

namespace Sys2Proof.Machine

/-! Firmware images (R346, R347). -/

/-- A little-endian field of an image. -/
def imageField (img : List Byte) (at_ n : Nat) : Nat := bytesToNat ((img.drop at_).take n)

/-- R347: the conditions on which an image of a KIND is accepted. -/
def Trust.accepts (t : Trust) (kind : Nat) (img : List Byte) : Bool :=
  let slot := imageField img 0x18 4
  let len := imageField img 0x10 8
  let body := (img.drop 0xB00).take len
  let signed := img.take 0x50
  decide (imageField img 0 4 = 0x4956524B) && decide (imageField img 4 4 = kind) && decide (slot < 4) &&
    !(mapGet (0 : BitVec 4) t.revoked kind).getLsbD slot && decide (mapGet 0 t.fusedSvn kind ≤ imageField img 8 8) &&
    decide (body.length = len) && decide ((sha384 body).toNat = imageField img 0x20 48) &&
    ecdsaVerify (Config.ecdsaKey slot) signed ((img.drop 0x50).take 96) && lmsVerify (Config.lmsKey slot) signed ((img.drop 0xB0).take 2508)

/-- The header bytes that the measurements show (R352). -/
def imageHeader (img : List Byte) : List Byte := img.take 0xA7C

/-! Boot (R345, R349). -/

/-- R345 stages 4 and 5: the management firmware, from the management port, else from the boot peer; with it PF 0 opens. Otherwise
the fetch is tried again after 10 s. -/
def Trust.fetchFirmware (t : Trust) (now : Word) : Trust :=
  match [t.mgmtImage, t.peerImage].find? (t.accepts 2) with
  | some img => { t with fwHeader := imageHeader img, stage := 5, pfReady := true, frozenCores := 0 }
  | none => { t with stage := 3, pfReady := false, retryAt := now + 10000000000 }

/-- R345 stage 3: the trusted part, copy A, else copy B; else ROM recovery (R349). -/
def Trust.loadTrusted (t : Trust) (now : Word) (copies : List (List Byte)) : Trust :=
  match copies.find? (t.accepts 1) with
  | some img => ({ t with partHeader := imageHeader img, stage := 3, recovery := false } : Trust).fetchFirmware now
  | none => { t with stage := 2, recovery := true }

/-- What the repair table takes out of service (R345 stage 2, R359): channels. -/
def retiredChannels (table : List Failing) : BitVec 384 :=
  table.foldl (fun b f => match f with
    | .channel n => b ||| BitVec.ofNat 384 (2 ^ n)
    | _ => b) 0
def retiredClusters (table : List Failing) : Map Cluster :=
  table.foldl (fun m f => match f with
    | .cluster n _ => mapPut {} m n { retired := true }
    | _ => m) []
def retiredLinks (table : List Failing) : Map LinkPort :=
  table.foldl (fun m f => match f with
    | .link n => mapPut {} m n { down := true, retired := true }
    | _ => m) []
def retiredMesh (table : List Failing) : BitVec 2048 :=
  table.foldl (fun b f => match f with
    | .meshLink n => b ||| BitVec.ofNat 2048 (2 ^ n)
    | _ => b) 0

/-- The bytes that a repair table's digest and MAC cover (log 11). -/
def failingBytes (f : Failing) : List Byte :=
  match f with
  | .row sram place n => natToBytes 16 ((n * 2048 + place * 2 + if sram then 1 else 0) * 8)
  | .channel n => natToBytes 16 (n * 8 + 1)
  | .cluster n _ => natToBytes 16 (n * 8 + 2)
  | .link n => natToBytes 16 (n * 8 + 3)
  | .meshLink n => natToBytes 16 (n * 8 + 4)

/-- R359: Crivis writes entries, and the MAC of the table. -/
def Trust.addRepair (t : Trust) (fs : List Failing) : Trust :=
  if fs = [] then t
  else { t with repair := t.repair ++ fs, repairMac := Config.repairMac t.secret ((t.repair ++ fs).flatMap failingBytes) }

/-- R345, R359, R360: what stage 1 can find: a channel or a mesh link that fails training, an SRAM row to repair, a cluster with an SRAM that
cannot be repaired. -/
def failingAtBoot : Failing → Bool
  | .row sram _ _ => sram
  | .cluster _ fatal => !fatal
  | _ => true

/-- R345, R25: package power-on reset: the flash, the fuses, the images on offer, host memory and other devices stay; everything else
starts again, and the boot runs as far as the images admit: what the self test and the training find joins the repair table, and all that the table
names is out of service, whether or not its MAC holds (R359). Acts on `portB` (R331), `tests`. -/
def execPowerOnReset (s : State) : Host.Outcome State Fault Refusal :=
  let t := s.trust
  let t' : Trust := { flashA := t.flashA, flashB := t.flashB, mgmtImage := t.mgmtImage, peerImage := t.peerImage, fusedSvn := t.fusedSvn,
                      revoked := t.revoked, secret := t.secret, repair := t.repair, repairMac := t.repairMac }
  let t' := t'.addRepair (s.arg.tests.filter failingAtBoot)
  let t' := { t' with meshDown := retiredMesh t'.repair }
  .next { State.reset with
    hostMem := s.hostMem, remote := s.remote, linkId := s.linkId, agenda := s.agenda, portB := s.arg.portB
    retired := retiredChannels t'.repair, clusters := retiredClusters t'.repair, links := retiredLinks t'.repair
    trust := t'.loadTrusted 0 [t.flashA, t.flashB] }

/-- R349: every 10 s Crivis tries again. Acts on `image` (what the management port offers now, where not empty). -/
def execManagementFirmwareRetry (s : State) : Host.Outcome State Fault Refusal :=
  let t := s.trust
  .next (if t.stage = 3 ∧ t.dead = false ∧ t.recovery = false ∧ t.retryAt ≤ s.dt then
      let t := if s.arg.image = [] then t else { t with mgmtImage := s.arg.image }
      { s with trust := t.fetchFirmware s.dt }
    else s)

/-- R349: in ROM recovery a trusted part received over the management port is verified and run. Acts on `image`. -/
def execRomRecoveryLoad (s : State) : Host.Outcome State Fault Refusal :=
  .next (if s.trust.recovery ∧ s.trust.dead = false then { s with trust := s.trust.loadTrusted s.dt [s.arg.image] } else s)

/-! Requests of the management firmware (R348, R350, R353). -/

/-- R350, R353, R358: a request that a management core (`id`) can make and Crivis performs. -/
def State.mayRequest (s : State) : Bool :=
  decide (5 ≤ s.trust.stage) && !s.trust.dead && !s.trust.frozenCores.getLsbD (s.arg.id % 4)

/-- R348: the SVN of the running image of a KIND. -/
def Trust.runningSvn (t : Trust) (kind : Nat) : Nat := imageField (if kind = 1 then t.partHeader else t.fwHeader) 8 8

/-- R348: a commit. Acts on `id` (the core that asks), `commit`. -/
def execFuseCommit (s : State) : Host.Outcome State Fault Refusal :=
  let t := s.trust
  .next (if !s.mayRequest then s
    else match s.arg.commit with
    | .raiseSvn kind =>
      if kind = 1 ∨ kind = 2 then
        { s with trust := { t with fusedSvn := mapPut 0 t.fusedSvn kind (Nat.max (mapGet 0 t.fusedSvn kind) (Nat.min (t.runningSvn kind) 64)) } }
      else s
    | .revoke kind slot =>
      let now := mapGet (0 : BitVec 4) t.revoked kind
      let new := now ||| BitVec.ofNat 4 (2 ^ (slot % 4))
      if (kind = 1 ∨ kind = 2) ∧ slot < 4 ∧ new ≠ BitVec.allOnes 4 then { s with trust := { t with revoked := mapPut 0 t.revoked kind new } }
      else s)

/-- Whether two bitmaps share no bit. -/
def apart {w : Nat} (a b : BitVec w) : Bool := a &&& b == 0

/-- R317: the units of a shared resource: planes and boundaries 256, the pool 128 for each pooled channel. -/
def minimaCapacity (pooled : BitVec 384) (res : Nat) : Nat :=
  if res < 8 then 256 else 128 * ((List.range 384).filter fun c => pooled.getLsbD c).length

/-- R317: a VF's minimum: at least the floor of 1 unit, but none of a pool that does not exist. -/
def minimum (pooled : BitVec 384) (minima : Map Nat) (res : Nat) : Nat :=
  if res = 8 ∧ pooled = 0 then 0 else Nat.max 1 (mapGet 0 minima res)

/-- R317: the sum that a resource's minima come to over the 96 VFs, with one VF's new ones. -/
def State.minimaSum (s : State) (pooled : BitVec 384) (v : Nat) (new : Map Nat) (res : Nat) : Nat :=
  ((List.range 96).map fun u => minimum pooled (if u = v then new else (s.vf u).minima) res).foldl (· + ·) 0

/-- The grant's maps. -/
def mapOf {α : Type} [DecidableEq α] (dflt : α) (ps : List (Nat × α)) : Map α := ps.foldl (fun m p => mapPut dflt m p.1 p.2) []

/-- The pool, and its cache banks, with a grant: a channel that is granted leaves it (R315). -/
def State.poolWith (s : State) (g : Grant) : BitVec 384 := (s.pooled ||| g.pooled) &&& ~~~ g.channels
def State.bankPoolWith (s : State) (g : Grant) : BitVec 384 := (s.pooledBanks ||| g.pooledBanks) &&& ~~~ g.banks

/-- R361: the tiles that a set of tiles reaches over the mesh; link n leads from tile n to the tile on its right, link 1,024 + n to the one below. -/
def meshFlood (down : BitVec 2048) : Nat → BitVec 1024 → BitVec 1024
  | 0, r => r
  | n + 1, r =>
    let inRow : BitVec 1024 := BitVec.ofNat 1024 (((List.range 32).map fun y => (2 ^ 31 - 1) * 2 ^ (32 * y)).foldl (· + ·) 0)
    let right := inRow &&& ~~~ down.extractLsb' 0 1024
    let below := ~~~ down.extractLsb' 1024 1024
    meshFlood down n (r ||| ((r &&& right) <<< 1) ||| ((r >>> 1) &&& right) ||| ((r &&& below) <<< 32) ||| ((r >>> 32) &&& below))

/-- R361: whether the mesh reaches every one of some clusters from the first. -/
def meshReaches (down : BitVec 2048) (clusters : BitVec 64) : Bool :=
  if down = 0 then true
  else
    let cs := (List.range 64).filter fun c => clusters.getLsbD c
    match cs with
    | [] => true
    | c :: _ =>
      let r := meshFlood down 1024 (BitVec.ofNat 1024 (2 ^ clusterTile c 0))
      cs.all fun c => (clusterTiles c).all fun t => r.getLsbD t

/-- The owned clusters with a grant. -/
def State.ownedWith (s : State) (g : Grant) : BitVec 64 := (s.vfs.filter fun p => p.1 != g.vf).foldl (fun b p => b ||| p.2.clusters) g.clusters

/-- R303, R315, R317, R340, R343, R345: the checks of a partition. -/
def State.grantOk (s : State) (g : Grant) : Bool :=
  let others := (s.vfs.filter fun p => p.1 != g.vf).map fun p => p.2
  let minima := mapOf 0 g.minima
  decide (g.vf < 96) && decide (g.defer ≤ 10 ^ 9) && decide (1 ≤ g.weight) && decide (g.weight ≤ 255) &&
    (others.all fun v => apart v.clusters g.clusters && apart v.banks g.banks && apart v.channels g.channels &&
      apart v.viterbi g.viterbi && apart v.fabric g.fabric && apart v.channels g.pooled && apart v.banks g.pooledBanks) &&
    apart g.channels g.pooled && apart g.banks g.pooledBanks && apart s.retired (g.channels ||| g.pooled) &&
    ((List.range 96).all fun p => !(g.fabric.getLsbD p && (s.link p).retired)) &&
    ((List.range 64).all fun c => !(g.clusters.getLsbD c && (s.cluster c).retired)) &&
    ((List.range 9).all fun res =>
      decide (s.minimaSum (s.poolWith g) g.vf minima res ≤ minimaCapacity (s.poolWith g) res) &&
        decide (minimum (s.poolWith g) minima res = mapGet 0 minima res)) &&
    (g.minima.all fun m => decide (m.1 < 9)) && (g.targets.all fun t => decide (t.1 < 256)) &&
    (g.groups.all fun r => decide (r.1 < 64) && decide (1 ≤ r.2.length) && decide (r.2.length ≤ 8)) &&
    (g.contexts.all fun c => decide (c.1 < 8))

/-- R340: a target entry with its reserved bits zero. -/
def targetBits (w : Word) : Word := w &&& 0x0000FFFF00000FFD#64

/-- R28, R303, R361: Crivis checks and applies a partition, and publishes the VF's table; where the mesh does not reach every owned cluster it
admits none and reports the device. Acts on `id` (the core that asks), `grant`. -/
def execPartitionRequest (s : State) : Host.Outcome State Fault Refusal :=
  match s.arg.grant with
  | none => .next s
  | some g =>
    if !s.mayRequest then .next s
    else if !meshReaches s.trust.meshDown (s.ownedWith g) then .next { s with trust := { s.trust with needsService := true } }
    else if !s.grantOk g then .next s
    else
      let v := s.vf g.vf
      let v := { v with
        clusters := g.clusters, banks := g.banks, channels := g.channels, viterbi := g.viterbi, fabric := g.fabric
        minima := mapOf 0 g.minima, defer := g.defer, weight := g.weight, tableGen := v.tableGen + 1
        targets := mapOf 0 (g.targets.map fun t => (t.1, targetBits t.2)), groups := mapOf [] g.groups, contexts := mapOf 0 g.contexts }
      .next { s.setVf g.vf v with pooled := s.poolWith g, pooledBanks := s.bankPoolWith g }

/-- R353, R358: Crivis unfreezes a master under the condition of its class, a VF on a management core's request; a core needs
the firmware that stage 5 runs (R349). Acts on `id` (the core that asks), `master`. -/
def execUnfreezeRequest (s : State) : Host.Outcome State Fault Refusal :=
  .next (if s.trust.dead then s else match s.arg.master with
    | .strand tile slot =>
      let i := tile * 8 + slot % 8
      if (s.strand i).run = .frozen ∧ !s.tileHeld tile then s.setStrand i { s.strand i with run := .parked } else s
    | .copyEngine tile => if s.tileHeld tile then s else s.setTile tile { s.tile tile with copyFrozen := none }
    | .vf n => if s.mayRequest ∧ (s.vf n).frozen ∧ (s.vf n).flrDone then s.setVf n { s.vf n with frozen := false, flrDone := false } else s
    | .fabricPort _ => s
    | .mgmtCore n =>
      let t := s.trust
      match (if t.stage < 5 then none else [t.mgmtImage, t.peerImage].find? (t.accepts 2)) with
      | some img =>
        { s with trust := { t with fwHeader := imageHeader img, frozenCores := t.frozenCores &&& ~~~ BitVec.ofNat 4 (2 ^ (n % 4)) } }
      | none => s)

/-- R349, R350, R353, R354: an access outside its window by a management core that runs freezes the core. Acts on `id` (the core), `offset`. -/
def execManagementWindowViolation (s : State) : Host.Outcome State Fault Refusal :=
  let n := s.arg.id % 4
  let t := s.trust
  .next (if !s.mayRequest then s
    else { s with trust := { t with frozenCores := t.frozenCores ||| BitVec.ofNat 4 (2 ^ n) } }.violation s.arg.offset 2 4 n 0)

/-! Attestation (R351, R352). The layouts of what is hashed or signed are the model's (log 11). -/

/-- R352: a measurement block. -/
def State.measurement (s : State) (index : Nat) : List Byte :=
  let t := s.trust
  let svns : List Byte := ([1, 2].map fun k => BitVec.ofNat 8 (mapGet 0 t.fusedSvn k)) ++
    [1, 2].map fun k => BitVec.ofNat 8 (mapGet (0 : BitVec 4) t.revoked k).toNat
  let vfBytes (p : Nat × Vf) : List Byte :=
    let v := p.2
    natToBytes 2 p.1 ++ natToBytes 8 v.clusters.toNat ++ natToBytes 48 v.banks.toNat ++ natToBytes 48 v.channels.toNat ++
      natToBytes 8 v.viterbi.toNat ++ natToBytes 12 v.fabric.toNat ++ ((List.range 9).flatMap fun r => natToBytes 4 (mapGet 0 v.minima r)) ++
      natToBytes 8 v.tableGen
  if index = 1 then natToBytes 48 (sha384 Config.romImage).toNat
  else if index = 2 then t.partHeader
  else if index = 3 then t.fwHeader
  else if index = 4 then svns
  else if index = 5 then natToBytes 48 (sha384 (t.repair.flatMap failingBytes)).toNat
  else natToBytes 48 (sha384 (s.vfs.flatMap vfBytes)).toNat

/-- R352: a request on the management port is answered, once the trusted part and its key are there. -/
def State.respond (s : State) (r : Spdm) : State :=
  if s.trust.stage < 5 ∨ s.trust.dead then s else { s with trust := { s.trust with responses := s.trust.responses ++ [r] } }

/-- The digest of certificate slot 0. -/
def certificateDigest : BitVec 384 := sha384 Config.certificateChain

/-- R352: SPDM 1.3. -/
def execGetVersion (s : State) : Host.Outcome State Fault Refusal := .next (s.respond (.version [(1, 3)]))
/-- R352: the requests that are supported, by their codes of SPDM 1.3: GET_DIGESTS, GET_CERTIFICATE, CHALLENGE, GET_VERSION, GET_MEASUREMENTS,
GET_CAPABILITIES, NEGOTIATE_ALGORITHMS (log 11). -/
def execGetCapabilities (s : State) : Host.Outcome State Fault Refusal :=
  .next (s.respond (.capabilities [0x81, 0x82, 0x83, 0x84, 0xE0, 0xE1, 0xE3]))
/-- R352: ECDSA P-384 with SHA-384, where it is offered, and nothing else. Acts on `offered`. -/
def execNegotiateAlgorithms (s : State) : Host.Outcome State Fault Refusal :=
  .next (s.respond (.algorithms (if s.arg.offered.contains .ecdsaP384Sha384 then some .ecdsaP384Sha384 else none)))
def execGetDigests (s : State) : Host.Outcome State Fault Refusal := .next (s.respond (.digests certificateDigest))
/-- The certificate of slot 0. Acts on `slot`. -/
def execGetCertificate (s : State) : Host.Outcome State Fault Refusal :=
  .next (s.respond (if s.arg.slot = 0 then .certificate 0 Config.certificateChain else .unsupported 1))
/-- R352: signed with the ensign key. Acts on `slot`, `nonce`. -/
def execChallenge (s : State) : Host.Outcome State Fault Refusal :=
  let msg := natToBytes 48 certificateDigest.toNat ++ natToBytes 32 s.arg.nonce.toNat ++ (List.range 6).flatMap fun i => s.measurement (i + 1)
  .next (s.respond (if s.arg.slot = 0 then .challengeAuth 0 s.arg.nonce (Config.ensignSignature s.trust.secret msg) else .unsupported 1))
/-- R352: one block, or all six for index 255; signed with the ensign key. Acts on `id`, `nonce`. -/
def execGetMeasurements (s : State) : Host.Outcome State Fault Refusal :=
  let wanted := if s.arg.id = 255 then [1, 2, 3, 4, 5, 6] else if 1 ≤ s.arg.id ∧ s.arg.id ≤ 6 then [s.arg.id] else []
  let blocks := wanted.map fun i => (i, s.measurement i)
  let msg := natToBytes 32 s.arg.nonce.toNat ++ blocks.flatMap fun b => b.2
  .next (s.respond (.measurements s.arg.id blocks (Config.ensignSignature s.trust.secret msg)))
/-- R352: ERROR UnsupportedRequest. Acts on `id` (the request's code). -/
def execSpdmUnsupportedRequest (s : State) : Host.Outcome State Fault Refusal := .next (s.respond (.unsupported s.arg.id))

/-! Readback (R355). -/

/-- A 64-bit word of a vector register. -/
def wordOf (v : VReg) (n : Nat) : Word := v.extractLsb' (64 * n) 64

/-- What the buffer of a port holds, with its error marks: elements fetched, or elements to be drained. -/
def Strand.buffer (r : Strand) (q : Nat) : List (VReg × Bool) :=
  ((readPort r q).buf.map fun e => (e.data, e.spoilt)) ++ r.drains.filterMap fun d => match d with
    | .elem p _ _ _ v _ bad => if p = q then some (v, bad) else none
    | .mark _ _ _ => none

/-- R355: the word that the plane reads, and its error flag. -/
def State.readback (s : State) (t : ReadTarget) : Word × Bool :=
  let bad (a : Nat) : Bool := (badIn s.badWords a 8).isSome
  let reg (tile slot off : Nat) : Bool := bad (regPa (tile * 8 + slot) off)
  let nth (ws : List Nat) (n : Nat) (lost : Bool := false) : Word × Bool := (BitVec.ofNat 64 (ws.getD n 0), lost)
  let two (m : Map (BitVec 32)) (k : Nat) : Word := mapGet 0 m (k + 1) ++ mapGet 0 m k
  match t with
  | .scratch tile o => (BitVec.ofNat 64 (readNat (s.tile tile).store (o / 8 * 8) 8), bad (localPa tile (o / 8 * 8)))
  | .slot tile n o => (BitVec.ofNat 64 (readNat (slotAt (s.tile tile) n).mem (o / 8 * 8) 8), bad (slotPa tile n (o / 8 * 8)))
  | .bank tile b i => (two (s.tile tile).banks (bankKey b 0 0 + i / 2 * 2), bad (bankPa tile b (i / 2 * 2)))
  | .hist tile b i => (two (s.tile tile).hist (b * 64 + i / 2 * 2), bad (histPa tile b (i / 2 * 2)))
  | .hbase tile b => ((mapGet (0 : BitVec 16) (s.tile tile).hbase b).zeroExtend 64, false)
  | .scalar tile n r => (readX (s.strand (tile * 8 + n)) r, reg tile n (8192 + 8 * r))
  | .vector tile n r w => (wordOf (readV (s.strand (tile * 8 + n)) r) w, reg tile n (256 * r + 8 * w))
  | .mask tile n r => (readK (s.strand (tile * 8 + n)) r, reg tile n (8704 + 8 * r))
  | .window tile n r => ((readW (s.strand (tile * 8 + n)) r).zeroExtend 64, reg tile n (8768 + 8 * r))
  | .longAcc tile n w => ((s.strand (tile * 8 + n)).la.extractLsb' (64 * w) 64, reg tile n (8896 + 8 * w))
  | .control tile n c => (s.control (tile * 8 + n) c, reg tile n (8960 + 8 * c))
  | .pc tile n => ((s.strand (tile * 8 + n)).pc.zeroExtend 64, reg tile n 16376)
  | .device a => (BitVec.ofNat 64 (readNat s.mem (a / 8 * 8) 8), bad (a / 8 * 8))
  | .strand tile n w => nth (s.strand (tile * 8 + n)).words w
  | .portBuffer tile n q e w =>
    let (v, lost) := ((s.strand (tile * 8 + n)).buffer q)[e]?.getD (0, false)
    (wordOf v w, lost)
  | .tile tile w => nth (s.tile tile).words w
  | .l1 tile i w => (match (s.tile tile).l1[i]? with
    | some l => (BitVec.ofNat 64 (l.words.getD w 0), decide (w < 16) && (l.bad.extractLsb' (8 * w) 8) != 0)
    | none => (0, false))
  | .tileTlb tile i w => nth (((s.tile tile).tlb[i]?.map TlbEntry.words).getD []) w ((s.tile tile).tlb[i]?.any fun e => e.bad)
  | .cluster c w => nth (s.cluster c).words w (s.cluster c).bad
  | .task c i w => nth ((s.cluster c).task i).words w (s.cluster c).bad
  | .clusterTlb c i w => nth (((s.cluster c).tlb[i]?.map TlbEntry.words).getD []) w ((s.cluster c).tlb[i]?.any fun e => e.bad)
  | .handle c i w => nth (((s.cluster c).handles[i]?.map HcEntry.words).getD []) w ((s.cluster c).handles[i]?.any fun e => e.bad)
  | .bankLine c i w => nth (((mapGet [] s.banks c)[i]?.map BankLine.words).getD []) w
  | .message i w => nth ((s.net[i]?.map Msg.words).getD []) w
  | .ack i w => nth ((s.acks[i]?.map Ack.words).getD []) w
  | .spilled tile i w => nth (((s.tile tile).spill[i]?.map Spilled.words).getD []) w
  | .violation i w => nth (wordsOf 4 (mapGet 0 s.trust.ring (i % 1024)).toNat) w
  | .vf n w => nth (s.vf n).words w
  | .launch k w => nth (s.launch k).words w
  | .link p w => nth (s.link p).words w
  | .package w => nth s.packageWords w

/-- Whether the words of a target are the security core's own: Crivis reads its ring for the management firmware (R354, R355). -/
def ownOfSecurity : ReadTarget → Bool
  | .violation _ _ => true
  | _ => false

/-- R354, R355: the management readback plane reads one word; Crivis reads one of the ring for a core that may ask. Acts on `target`, `id` (the core). -/
def execReadback (s : State) : Host.Outcome State Fault Refusal :=
  .next (if ownOfSecurity s.arg.target ∧ s.mayRequest = false then s
    else { s with trust := { s.trust with readback := s.trust.readback ++ [s.readback s.arg.target] } })

/-! Soft errors and retirement (R357, R360, R361). -/

/-- The tile or the channel of what the scrubber visits. -/
def scrubPlace (v : Scrub) : Nat :=
  match v.unit with
  | .word => if v.sram then v.word * 8 / 2 ^ 20 % 1024 else v.word * 8 / Config.channelBytes
  | .l1 t _ _ => t
  | .tileTlb t _ => t
  | .clusterTlb c _ => clusterTile c 0
  | .handle c _ => clusterTile c 0
  | .hoist c => clusterTile c 0
  | .portElem t _ _ _ => t
  | .drain t _ _ => t
  | .security => 1024

/-- The keys under which corrected errors are counted, per row of each kind, and uncorrectable words, per channel and per tile. -/
def rowKey (sram : Bool) (place row : Nat) : Nat := (row * 2048 + place) * 2 + if sram then 1 else 0
def placeKey (sram : Bool) (place : Nat) : Nat := place * 2 + if sram then 1 else 0

/-- A list with one item changed. -/
def changeAt {α : Type} (xs : List α) (n : Nat) (g : α → α) : List α := xs.zipIdx.map fun p => if p.2 = n then g p.1 else p.1

/-- R353, R354: a master that is not yet frozen is frozen, with a record of a failed SRAM. -/
def State.freezeMaster (s : State) : Master → State
  | .strand t n => s.freeze (t * 8 + n) 3 0
  | .copyEngine t => if (s.tile t).copyFrozen.isSome then s else s.freezeEngine t 3 0 0
  | .vf v => if (s.vf v).frozen then s else (s.setVf v { s.vf v with frozen := true, flrDone := false }).violation 0 3 2 v v
  | .fabricPort p => if (s.link p).frozen then s else ((s.setLink p { s.link p with frozen := true }).movePort p).violation 0 3 3 p 0
  | .mgmtCore n =>
    if s.trust.frozenCores.getLsbD n then s
    else { s with trust := { s.trust with frozenCores := s.trust.frozenCores ||| BitVec.ofNat 4 (2 ^ n) } }.violation 0 3 4 n 0

/-- Every master (R353): the strands, the copy engines, the VFs, the fabric ports, the management cores. -/
def State.masters (s : State) : List Master :=
  (s.strands.map fun p => .strand (p.1 / 8) (p.1 % 8)) ++ ((List.range 1024).map .copyEngine) ++ ((List.range 96).map .vf) ++
    ((List.range 96).map .fabricPort) ++ (List.range 4).map .mgmtCore

/-- R358: a failure of the security core freezes every master until power-on reset. -/
def State.freezeAll (s : State) : State :=
  let s := s.masters.foldl State.freezeMaster s
  { s with trust := { s.trust with dead := true } }

/-- R358: an uncorrectable word of each kind is marked for its consumer and left as it is: words of memory, of the pool (KIND 5), of a store, a slot, a
bank, a register or a counter by their keys; an L1 line's byte, a cache entry, a port's element, a hoist in its own structure; the security core is
its own consumer. -/
def State.spoil (s : State) (v : Scrub) : State :=
  match v.unit with
  | .word =>
    let kind := if v.sram then 3 else if Config.poolBase ≤ v.word * 8 then 5 else 4
    { s with badWords := mapPut 0 s.badWords v.word kind }
  | .l1 t n b =>
    let m : BitVec 128 := BitVec.ofNat 128 (255 * 2 ^ (b / 8 % 16 * 8))
    s.setTile t { s.tile t with l1 := changeAt (s.tile t).l1 n fun l => { l with bad := l.bad ||| (m &&& l.valid) } }
  | .tileTlb t n => s.setTile t { s.tile t with tlb := changeAt (s.tile t).tlb n fun e => { e with bad := true } }
  | .clusterTlb c n => s.setCluster c { s.cluster c with tlb := changeAt (s.cluster c).tlb n fun e => { e with bad := true } }
  | .handle c n => s.setCluster c { s.cluster c with handles := changeAt (s.cluster c).handles n fun e => { e with bad := true } }
  | .hoist c => s.setCluster c { s.cluster c with bad := true }
  | .portElem t n q i =>
    let r := s.strand (t * 8 + n % 8)
    if (readPort r q).isOpen then
      s.setStrand (t * 8 + n % 8) (writePort r q { readPort r q with buf := changeAt (readPort r q).buf i fun e => { e with spoilt := true } })
    else s
  | .drain t n i =>
    let r := s.strand (t * 8 + n % 8)
    s.setStrand (t * 8 + n % 8) { r with drains := changeAt r.drains i fun d => match d with
      | .elem q p shift tag data done _ => .elem q p shift tag data done true
      | d => d }
  | .security => s.freezeAll

/-- R360: an uncorrectable word is counted once in 24 hours, at its latest visit. -/
def countWord (now : Word) (seen : List (Word × Scrub)) (v : Scrub) : List (Word × Scrub) :=
  (seen.filter fun p => decide (now.toNat < p.1.toNat + 86400000000000) && !(p.2.word == v.word && p.2.unit == v.unit)) ++ [(now, v)]

/-- R357: the scrubber visits a word: a corrected error is counted for its row; an uncorrectable word is logged and left as it is. That the word
is uncorrectable is what the visit finds: it is recorded from then on (log 40). Acts on `visit`. -/
def execPatrolScrub (s : State) : Host.Outcome State Fault Refusal :=
  let v := s.arg.visit
  let t := s.trust
  let row := rowKey v.sram (scrubPlace v) v.row
  let place := placeKey v.sram (scrubPlace v)
  .next (if v.uncorrectable then
      ({ s with trust := { t with scrubLog := t.scrubLog ++ [v]
                                  uncorrected := mapPut [] t.uncorrected place (countWord s.dt (mapGet [] t.uncorrected place) v) } }).spoil v
    else { s with trust := { t with corrected := mapPut [] t.corrected row (recent s.dt (mapGet [] t.corrected row) ++ [s.dt]) } })

/-- R318: the scaled minima: max(1, ⌊m × k / 256⌋). -/
def scaledMinimum (m k : Nat) : Nat := Nat.max 1 (m * k / 256)

/-- R318 step 1: the largest k for which the scaled minima fit. -/
def largestScale (ms : List Nat) (capacity : Nat) : Nat :=
  (((List.range 257).filter fun k => decide ((ms.map fun m => scaledMinimum m k).foldl (· + ·) 0 ≤ capacity)).getLast?).getD 0

/-- R318: one VF's pool minimum after the retirement, its new table, and the contract-degraded event where the minimum changed. -/
def State.degrade (s : State) (v old new : Nat) : State :=
  let f := { s.vf v with minima := mapPut 0 (s.vf v).minima 8 new, tableGen := (s.vf v).tableGen + 1 }
  let s := s.setVf v f
  if new = old then s else s.event v 4 (BitVec.ofNat 64 f.tableGen) 0

/-- R317, R318: the minima of the 96 VFs when a pooled channel is gone, where the pool's capacity falls below their sum; with no channel left each
is 0, which is an event to each that held one, the floor of 1 unit too (R317). -/
def State.shrinkPool (s : State) : State :=
  let capacity := minimaCapacity s.pooled 8
  let vs := List.range 96
  let floor (v : Nat) : Nat := Nat.max 1 (mapGet 0 (s.vf v).minima 8)
  if capacity = 0 then vs.foldl (fun s v => s.degrade v (floor v) 0) s
  else if (vs.map floor).foldl (· + ·) 0 ≤ capacity then vs.foldl (fun s v => s.degrade v (floor v) (floor v)) s
  else
    let k := largestScale (vs.map floor) capacity
    vs.foldl (fun s v => s.degrade v (floor v) (scaledMinimum (floor v) k)) s

/-- R361: a channel stops serving at once; a pooled one leaves the pool (R318), and what still reaches it is refused there; an owner receives a new table
(R28). -/
def State.retireChannel (s : State) (n : Nat) : State :=
  let bit : BitVec 384 := BitVec.ofNat 384 (2 ^ n)
  let pooled := s.pooled.getLsbD n
  let s := { s with retired := s.retired ||| bit, pooled := s.pooled &&& ~~~ bit, lostPool := s.lostPool ||| (s.pooled &&& bit) }
  let s := (s.vfs.filter fun p => p.2.channels.getLsbD n).foldl (fun s p =>
    s.setVf p.1 { s.vf p.1 with tableGen := (s.vf p.1).tableGen + 1 }) s
  if pooled then s.shrinkPool else s

/-- R353, R361: every strand of a cluster is frozen at once. -/
def State.freezeCluster (s : State) (c : Nat) : State :=
  ((clusterTiles c).flatMap strandsOf).foldl (fun s i => s.freeze i 3 0) s

/-- R360: the rows of a channel that have been repaired. -/
def Trust.repaired (t : Trust) (channel : Nat) : List Nat :=
  t.repair.filterMap fun f => match f with
    | .row false c r => if c = channel then some r else none
    | _ => none

/-- R360: whether a row of a channel has seen 16 corrected errors in 24 hours. -/
def Trust.worn (t : Trust) (now : Word) (channel row : Nat) : Bool :=
  decide (16 ≤ (recent now (mapGet [] t.corrected (rowKey false channel row))).length)

/-- R360: whether a channel or a tile has seen 4 uncorrectable words in 24 hours. -/
def Trust.lost (t : Trust) (now : Word) (sram : Bool) (place : Nat) : Bool :=
  decide (4 ≤ ((mapGet [] t.uncorrected (placeKey sram place)).filter fun p => decide (now.toNat < p.1.toNat + 86400000000000)).length)

/-- R360: whether a further row of a channel crosses the threshold with its spares exhausted. -/
def Trust.exhausted (t : Trust) (now : Word) (channel : Nat) : Bool :=
  decide (Config.spareRows channel ≤ (t.repaired channel).length) &&
    t.corrected.any fun p => p.1 % 4096 == placeKey false channel && !(t.repaired channel).contains (p.1 / 4096) && t.worn now channel (p.1 / 4096)

/-- R350, R361: the failure that a step names: a fatal fault of a cluster is found by the hardware itself, and no management core can plead it (log 42). -/
def State.failing (s : State) : Failing :=
  match s.arg.failing with
  | .cluster n fatal => .cluster n (fatal && !s.arg.asked)
  | f => f

/-- R350, R360, R361: the case for an entry of the repair table. -/
def State.failingOk (s : State) : Bool :=
  let t := s.trust
  match s.failing with
  | .row sram c r => !sram && t.worn s.dt c r && !(t.repaired c).contains r && decide ((t.repaired c).length < Config.spareRows c)
  | .channel c => t.lost s.dt false c || t.exhausted s.dt c
  | .cluster n fatal => fatal || (clusterTiles n).any (t.lost s.dt true)
  | .link n => decide (16 ≤ (recent s.dt (s.link n).retries).length)
  | .meshLink n => decide (16 ≤ (recent s.dt (mapGet [] t.meshRetries n)).length)

/-- R350, R360, R361: an error count has crossed its threshold, or a management core asks for a retirement (`asked`): Crivis checks the case; the
repair table gets an entry, and the resource is retired: a channel at once, a cluster at the end of its launch, a link at the next boot. Acts on
`failing`, `asked`, `id` (the core that asks). -/
def execErrorThreshold (s : State) : Host.Outcome State Fault Refusal :=
  if s.trust.stage < 3 ∨ s.trust.dead ∨ (s.arg.asked ∧ s.mayRequest = false) ∨ s.failingOk = false then .next s
  else
    let f := s.failing
    let s := { s with trust := s.trust.addRepair [f] }
    .next (match f with
      | .channel n => s.retireChannel n
      | .cluster n fatal =>
        let s := s.setCluster n { s.cluster n with retiring := true }
        let s := if fatal then s.freezeCluster n else s
        if (clusterTiles n).all fun t => !s.tileHeld t then s.retireCluster n else s
      | _ => s)

end Sys2Proof.Machine
end

