-- ==== Sys2Proof/Machine/Dispatch.lean ====
section
/-! DEFINITION. One arm per row of spec/opcode_table.json. -/

namespace Sys2Proof.Machine

def exec (i : Instr) (s : State) : Host.Outcome State Fault Refusal :=
  match i with
  | .nop f => Sys2Proof.Machine.execNop f s
  | .add f => Sys2Proof.Machine.execAdd f s
  | .sub f => Sys2Proof.Machine.execSub f s
  | .mul f => Sys2Proof.Machine.execMul f s
  | .mulh f => Sys2Proof.Machine.execMulh f s
  | .div f => Sys2Proof.Machine.execDiv f s
  | .rem f => Sys2Proof.Machine.execRem f s
  | .min f => Sys2Proof.Machine.execMin f s
  | .max f => Sys2Proof.Machine.execMax f s
  | .and f => Sys2Proof.Machine.execAnd f s
  | .or f => Sys2Proof.Machine.execOr f s
  | .xor f => Sys2Proof.Machine.execXor f s
  | .andn f => Sys2Proof.Machine.execAndn f s
  | .shl f => Sys2Proof.Machine.execShl f s
  | .shr f => Sys2Proof.Machine.execShr f s
  | .rot f => Sys2Proof.Machine.execRot f s
  | .clz f => Sys2Proof.Machine.execClz f s
  | .ctz f => Sys2Proof.Machine.execCtz f s
  | .popc f => Sys2Proof.Machine.execPopc f s
  | .bext f => Sys2Proof.Machine.execBext f s
  | .bins f => Sys2Proof.Machine.execBins f s
  | .sext f => Sys2Proof.Machine.execSext f s
  | .li f => Sys2Proof.Machine.execLi f s
  | .lea f => Sys2Proof.Machine.execLea f s
  | .mov f => Sys2Proof.Machine.execMov f s
  | .sel f => Sys2Proof.Machine.execSel f s
  | .setEq f => Sys2Proof.Machine.execSetEq f s
  | .setNe f => Sys2Proof.Machine.execSetNe f s
  | .setLt f => Sys2Proof.Machine.execSetLt f s
  | .setGe f => Sys2Proof.Machine.execSetGe f s
  | .setLo f => Sys2Proof.Machine.execSetLo f s
  | .setHs f => Sys2Proof.Machine.execSetHs f s
  | .setLe f => Sys2Proof.Machine.execSetLe f s
  | .setGt f => Sys2Proof.Machine.execSetGt f s
  | .setLs f => Sys2Proof.Machine.execSetLs f s
  | .setHi f => Sys2Proof.Machine.execSetHi f s
  | .kmov f => Sys2Proof.Machine.execKmov f s
  | .kget f => Sys2Proof.Machine.execKget f s
  | .kopAnd f => Sys2Proof.Machine.execKopAnd f s
  | .kopOr f => Sys2Proof.Machine.execKopOr f s
  | .kopXor f => Sys2Proof.Machine.execKopXor f s
  | .kopAndn f => Sys2Proof.Machine.execKopAndn f s
  | .kopNot f => Sys2Proof.Machine.execKopNot f s
  | .kpop f => Sys2Proof.Machine.execKpop f s
  | .kfill f => Sys2Proof.Machine.execKfill f s
  | .br f => Sys2Proof.Machine.execBr f s
  | .bEq f => Sys2Proof.Machine.execBEq f s
  | .bNe f => Sys2Proof.Machine.execBNe f s
  | .bLt f => Sys2Proof.Machine.execBLt f s
  | .bGe f => Sys2Proof.Machine.execBGe f s
  | .bLo f => Sys2Proof.Machine.execBLo f s
  | .bHs f => Sys2Proof.Machine.execBHs f s
  | .bLe f => Sys2Proof.Machine.execBLe f s
  | .bGt f => Sys2Proof.Machine.execBGt f s
  | .bLs f => Sys2Proof.Machine.execBLs f s
  | .bHi f => Sys2Proof.Machine.execBHi f s
  | .jr f => Sys2Proof.Machine.execJr f s
  | .call f => Sys2Proof.Machine.execCall f s
  | .callr f => Sys2Proof.Machine.execCallr f s
  | .ret f => Sys2Proof.Machine.execRet f s
  | .loop f => Sys2Proof.Machine.execLoop f s
  | .dtRd f => Sys2Proof.Machine.execDtRd f s
  | .dtUntil f => Sys2Proof.Machine.execDtUntil f s
  | .fAdd f => Sys2Proof.Machine.execFAdd f s
  | .fSub f => Sys2Proof.Machine.execFSub f s
  | .fMul f => Sys2Proof.Machine.execFMul f s
  | .fFma f => Sys2Proof.Machine.execFFma f s
  | .fDiv f => Sys2Proof.Machine.execFDiv f s
  | .fSqrt f => Sys2Proof.Machine.execFSqrt f s
  | .fCvt f => Sys2Proof.Machine.execFCvt f s
  | .fCmpEq f => Sys2Proof.Machine.execFCmpEq f s
  | .fCmpNe f => Sys2Proof.Machine.execFCmpNe f s
  | .fCmpLt f => Sys2Proof.Machine.execFCmpLt f s
  | .fCmpGe f => Sys2Proof.Machine.execFCmpGe f s
  | .fCmpLe f => Sys2Proof.Machine.execFCmpLe f s
  | .fCmpGt f => Sys2Proof.Machine.execFCmpGt f s
  | .fCmpUn f => Sys2Proof.Machine.execFCmpUn f s
  | .fCmpOrd f => Sys2Proof.Machine.execFCmpOrd f s
  | .fMin f => Sys2Proof.Machine.execFMin f s
  | .fMax f => Sys2Proof.Machine.execFMax f s
  | .fAbs f => Sys2Proof.Machine.execFAbs f s
  | .fNeg f => Sys2Proof.Machine.execFNeg f s
  | .fCvti f => Sys2Proof.Machine.execFCvti f s
  | .vAdd f => Sys2Proof.Machine.execVAdd f s
  | .vSub f => Sys2Proof.Machine.execVSub f s
  | .vMul f => Sys2Proof.Machine.execVMul f s
  | .vFma f => Sys2Proof.Machine.execVFma f s
  | .vFms f => Sys2Proof.Machine.execVFms f s
  | .vFnma f => Sys2Proof.Machine.execVFnma f s
  | .vMin f => Sys2Proof.Machine.execVMin f s
  | .vMax f => Sys2Proof.Machine.execVMax f s
  | .vAbs f => Sys2Proof.Machine.execVAbs f s
  | .vNeg f => Sys2Proof.Machine.execVNeg f s
  | .vDiv f => Sys2Proof.Machine.execVDiv f s
  | .vSqrt f => Sys2Proof.Machine.execVSqrt f s
  | .vRcp f => Sys2Proof.Machine.execVRcp f s
  | .vRsq f => Sys2Proof.Machine.execVRsq f s
  | .vExp2 f => Sys2Proof.Machine.execVExp2 f s
  | .vLog2 f => Sys2Proof.Machine.execVLog2 f s
  | .vSin f => Sys2Proof.Machine.execVSin f s
  | .vCos f => Sys2Proof.Machine.execVCos f s
  | .vTanh f => Sys2Proof.Machine.execVTanh f s
  | .vSig f => Sys2Proof.Machine.execVSig f s
  | .vCvt f => Sys2Proof.Machine.execVCvt f s
  | .vCvti f => Sys2Proof.Machine.execVCvti f s
  | .vCmpEq f => Sys2Proof.Machine.execVCmpEq f s
  | .vCmpNe f => Sys2Proof.Machine.execVCmpNe f s
  | .vCmpLt f => Sys2Proof.Machine.execVCmpLt f s
  | .vCmpGe f => Sys2Proof.Machine.execVCmpGe f s
  | .vCmpLo f => Sys2Proof.Machine.execVCmpLo f s
  | .vCmpHs f => Sys2Proof.Machine.execVCmpHs f s
  | .vCmpLe f => Sys2Proof.Machine.execVCmpLe f s
  | .vCmpGt f => Sys2Proof.Machine.execVCmpGt f s
  | .vCmpLs f => Sys2Proof.Machine.execVCmpLs f s
  | .vCmpHi f => Sys2Proof.Machine.execVCmpHi f s
  | .vCmpUn f => Sys2Proof.Machine.execVCmpUn f s
  | .vCmpOrd f => Sys2Proof.Machine.execVCmpOrd f s
  | .vSel f => Sys2Proof.Machine.execVSel f s
  | .vAnd f => Sys2Proof.Machine.execVAnd f s
  | .vOr f => Sys2Proof.Machine.execVOr f s
  | .vXor f => Sys2Proof.Machine.execVXor f s
  | .vAndn f => Sys2Proof.Machine.execVAndn f s
  | .vShl f => Sys2Proof.Machine.execVShl f s
  | .vShr f => Sys2Proof.Machine.execVShr f s
  | .vRot f => Sys2Proof.Machine.execVRot f s
  | .vClz f => Sys2Proof.Machine.execVClz f s
  | .vDot4 f => Sys2Proof.Machine.execVDot4 f s
  | .vDot8 f => Sys2Proof.Machine.execVDot8 f s
  | .vRedAdd f => Sys2Proof.Machine.execVRedAdd f s
  | .vRedMin f => Sys2Proof.Machine.execVRedMin f s
  | .vRedMax f => Sys2Proof.Machine.execVRedMax f s
  | .vRedAnd f => Sys2Proof.Machine.execVRedAnd f s
  | .vRedOr f => Sys2Proof.Machine.execVRedOr f s
  | .vRedXor f => Sys2Proof.Machine.execVRedXor f s
  | .vScanAdd f => Sys2Proof.Machine.execVScanAdd f s
  | .vScanMin f => Sys2Proof.Machine.execVScanMin f s
  | .vScanMax f => Sys2Proof.Machine.execVScanMax f s
  | .vScanXadd f => Sys2Proof.Machine.execVScanXadd f s
  | .vScanXmin f => Sys2Proof.Machine.execVScanXmin f s
  | .vScanXmax f => Sys2Proof.Machine.execVScanXmax f s
  | .vPerm f => Sys2Proof.Machine.execVPerm f s
  | .vBcast f => Sys2Proof.Machine.execVBcast f s
  | .vSplat f => Sys2Proof.Machine.execVSplat f s
  | .vExt f => Sys2Proof.Machine.execVExt f s
  | .vIns f => Sys2Proof.Machine.execVIns f s
  | .vIota f => Sys2Proof.Machine.execVIota f s
  | .vMov f => Sys2Proof.Machine.execVMov f s
  | .vCpr f => Sys2Proof.Machine.execVCpr f s
  | .vExpd f => Sys2Proof.Machine.execVExpd f s
  | .vHist f => Sys2Proof.Machine.execVHist f s
  | .vHistGet f => Sys2Proof.Machine.execVHistGet f s
  | .vAccept f => Sys2Proof.Machine.execVAccept f s
  | .vDraw f => Sys2Proof.Machine.execVDraw f s
  | .laAdd f => Sys2Proof.Machine.execLaAdd f s
  | .laNorm f => Sys2Proof.Machine.execLaNorm f s
  | .laRd f => Sys2Proof.Machine.execLaRd f s
  | .laClr f => Sys2Proof.Machine.execLaClr f s
  | .laGetw f => Sys2Proof.Machine.execLaGetw f s
  | .laSetw f => Sys2Proof.Machine.execLaSetw f s
  | .vHint n f => Sys2Proof.Machine.execVHint n f s
  | .oClaim f => Sys2Proof.Machine.execOClaim f s
  | .oRel f => Sys2Proof.Machine.execORel f s
  | .oTst f => Sys2Proof.Machine.execOTst f s
  | .mMma f => Sys2Proof.Machine.execMMma f s
  | .mMms f => Sys2Proof.Machine.execMMms f s
  | .mMmt f => Sys2Proof.Machine.execMMmt f s
  | .mCmp f => Sys2Proof.Machine.execMCmp f s
  | .mZero f => Sys2Proof.Machine.execMZero f s
  | .mRd f => Sys2Proof.Machine.execMRd f s
  | .mWr f => Sys2Proof.Machine.execMWr f s
  | .wSet f => Sys2Proof.Machine.execWSet f s
  | .wStep f => Sys2Proof.Machine.execWStep f s
  | .wVal f => Sys2Proof.Machine.execWVal f s
  | .vTdec f => Sys2Proof.Machine.execVTdec f s
  | .tEnc f => Sys2Proof.Machine.execTEnc f s
  | .ld f => Sys2Proof.Machine.execLd f s
  | .st f => Sys2Proof.Machine.execSt f s
  | .vLd f => Sys2Proof.Machine.execVLd f s
  | .vSt f => Sys2Proof.Machine.execVSt f s
  | .vGat f => Sys2Proof.Machine.execVGat f s
  | .vSct f => Sys2Proof.Machine.execVSct f s
  | .ldAcq f => Sys2Proof.Machine.execLdAcq f s
  | .stRel f => Sys2Proof.Machine.execStRel f s
  | .stRelCmp f => Sys2Proof.Machine.execStRelCmp f s
  | .atAdd f => Sys2Proof.Machine.execAtAdd f s
  | .atAnd f => Sys2Proof.Machine.execAtAnd f s
  | .atOr f => Sys2Proof.Machine.execAtOr f s
  | .atXor f => Sys2Proof.Machine.execAtXor f s
  | .atMin f => Sys2Proof.Machine.execAtMin f s
  | .atMax f => Sys2Proof.Machine.execAtMax f s
  | .atSwp f => Sys2Proof.Machine.execAtSwp f s
  | .atCas f => Sys2Proof.Machine.execAtCas f s
  | .atFadd f => Sys2Proof.Machine.execAtFadd f s
  | .atCas2 f => Sys2Proof.Machine.execAtCas2 f s
  | .cp f => Sys2Proof.Machine.execCp f s
  | .qOpen f => Sys2Proof.Machine.execQOpen f s
  | .qClose f => Sys2Proof.Machine.execQClose f s
  | .qFlush f => Sys2Proof.Machine.execQFlush f s
  | .l1Wb f => Sys2Proof.Machine.execL1Wb f s
  | .l1Inv f => Sys2Proof.Machine.execL1Inv f s
  | .l1Wbi f => Sys2Proof.Machine.execL1Wbi f s
  | .l1Wba f => Sys2Proof.Machine.execL1Wba f s
  | .l1Inva f => Sys2Proof.Machine.execL1Inva f s
  | .l1Wbia f => Sys2Proof.Machine.execL1Wbia f s
  | .tlRd t f => Sys2Proof.Machine.execTlRd t f s
  | .tlWait t f => Sys2Proof.Machine.execTlWait t f s
  | .tlTest t f => Sys2Proof.Machine.execTlTest t f s
  | .fork f => Sys2Proof.Machine.execFork f s
  | .spawn f => Sys2Proof.Machine.execSpawn f s
  | .halt f => Sys2Proof.Machine.execHalt f s
  | .tkWait f => Sys2Proof.Machine.execTkWait f s
  | .tkPush f => Sys2Proof.Machine.execTkPush f s
  | .tkDone f => Sys2Proof.Machine.execTkDone f s
  | .tkBatch f => Sys2Proof.Machine.execTkBatch f s
  | .gainAdd f => Sys2Proof.Machine.execGainAdd f s
  | .gainMax f => Sys2Proof.Machine.execGainMax f s
  | .gainSet f => Sys2Proof.Machine.execGainSet f s
  | .depDec f => Sys2Proof.Machine.execDepDec f s
  | .hyArrive f => Sys2Proof.Machine.execHyArrive f s
  | .hyWait f => Sys2Proof.Machine.execHyWait f s
  | .hyTry f => Sys2Proof.Machine.execHyTry f s
  | .fenceTile f => Sys2Proof.Machine.execFenceTile f s
  | .fenceClu f => Sys2Proof.Machine.execFenceClu f s
  | .fenceDie f => Sys2Proof.Machine.execFenceDie f s
  | .fenceDev f => Sys2Proof.Machine.execFenceDev f s
  | .fenceSys f => Sys2Proof.Machine.execFenceSys f s
  | .spanOpen f => Sys2Proof.Machine.execSpanOpen f s
  | .spanClose f => Sys2Proof.Machine.execSpanClose f s
  | .lnGo f => Sys2Proof.Machine.execLnGo f s
  | .trap f => Sys2Proof.Machine.execTrap f s
  | .eret f => Sys2Proof.Machine.execEret f s
  | .sysCallEcho f => Sys2Proof.Machine.execSysCallEcho f s
  | .sysCallTablegen f => Sys2Proof.Machine.execSysCallTablegen f s
  | .sysCallPost f => Sys2Proof.Machine.execSysCallPost f s
  | .sysCallDefer f => Sys2Proof.Machine.execSysCallDefer f s
  | .sysCallOwned f => Sys2Proof.Machine.execSysCallOwned f s
  | .sysCallUnassigned f => Sys2Proof.Machine.execSysCallUnassigned f s
  | .ctlRd f => Sys2Proof.Machine.execCtlRd f s
  | .ctlWr f => Sys2Proof.Machine.execCtlWr f s
  | .arrayOperationComplete => Sys2Proof.Machine.execArrayOperationComplete s
  | .viterbiBlockStart => Sys2Proof.Machine.execViterbiBlockStart s
  | .viterbiBlockComplete => Sys2Proof.Machine.execViterbiBlockComplete s
  | .copyElement => Sys2Proof.Machine.execCopyElement s
  | .copyComplete => Sys2Proof.Machine.execCopyComplete s
  | .portRefillElement => Sys2Proof.Machine.execPortRefillElement s
  | .portDrainElement => Sys2Proof.Machine.execPortDrainElement s
  | .homeRequestService => Sys2Proof.Machine.execHomeRequestService s
  | .storeAcknowledgment => Sys2Proof.Machine.execStoreAcknowledgment s
  | .atomicAcknowledgment => Sys2Proof.Machine.execAtomicAcknowledgment s
  | .longResultWrite => Sys2Proof.Machine.execLongResultWrite s
  | .walkComplete => Sys2Proof.Machine.execWalkComplete s
  | .spawnArrival => Sys2Proof.Machine.execSpawnArrival s
  | .answerReturn => Sys2Proof.Machine.execAnswerReturn s
  | .taskPushArrival => Sys2Proof.Machine.execTaskPushArrival s
  | .taskEndArrival => Sys2Proof.Machine.execTaskEndArrival s
  | .gainUpdateArrival => Sys2Proof.Machine.execGainUpdateArrival s
  | .depDecArrival => Sys2Proof.Machine.execDepDecArrival s
  | .hyWaitTimeout => Sys2Proof.Machine.execHyWaitTimeout s
  | .halyardPhaseComplete => Sys2Proof.Machine.execHalyardPhaseComplete s
  | .spanOverrun => Sys2Proof.Machine.execSpanOverrun s
  | .spanEscalation => Sys2Proof.Machine.execSpanEscalation s
  | .spanHandlerPark => Sys2Proof.Machine.execSpanHandlerPark s
  | .spanBroken => Sys2Proof.Machine.execSpanBroken s
  | .lnGoArrival => Sys2Proof.Machine.execLnGoArrival s
  | .taskDispatch => Sys2Proof.Machine.execTaskDispatch s
  | .heapLevelMove => Sys2Proof.Machine.execHeapLevelMove s
  | .keyPublication => Sys2Proof.Machine.execKeyPublication s
  | .stealRequest => Sys2Proof.Machine.execStealRequest s
  | .stealRequestArrival => Sys2Proof.Machine.execStealRequestArrival s
  | .stolenRecordArrival => Sys2Proof.Machine.execStolenRecordArrival s
  | .stealAcknowledgment => Sys2Proof.Machine.execStealAcknowledgment s
  | .stealRefusal => Sys2Proof.Machine.execStealRefusal s
  | .rsdSnapshot => Sys2Proof.Machine.execRsdSnapshot s
  | .rsdCombine => Sys2Proof.Machine.execRsdCombine s
  | .terminationDrain => Sys2Proof.Machine.execTerminationDrain s
  | .fieldStall => Sys2Proof.Machine.execFieldStall s
  | .launchQueueService => Sys2Proof.Machine.execLaunchQueueService s
  | .launchStart => Sys2Proof.Machine.execLaunchStart s
  | .launchEnd => Sys2Proof.Machine.execLaunchEnd s
  | .preempt => Sys2Proof.Machine.execPreempt s
  | .preemptionDeferralExpiry => Sys2Proof.Machine.execPreemptionDeferralExpiry s
  | .tileSave => Sys2Proof.Machine.execTileSave s
  | .restore => Sys2Proof.Machine.execRestore s
  | .handleInvalidation => Sys2Proof.Machine.execHandleInvalidation s
  | .translationInvalidation => Sys2Proof.Machine.execTranslationInvalidation s
  | .resume => Sys2Proof.Machine.execResume s
  | .refuse => Sys2Proof.Machine.execRefuse s
  | .commandComplete => Sys2Proof.Machine.execCommandComplete s
  | .lqtailWrite => Sys2Proof.Machine.execLqtailWrite s
  | .bar0RegisterWrite => Sys2Proof.Machine.execBar0RegisterWrite s
  | .bar2Access => Sys2Proof.Machine.execBar2Access s
  | .vfReset => Sys2Proof.Machine.execVfReset s
  | .vfResetDrainExpiry => Sys2Proof.Machine.execVfResetDrainExpiry s
  | .vfResetComplete => Sys2Proof.Machine.execVfResetComplete s
  | .softThrottleRequest => Sys2Proof.Machine.execSoftThrottleRequest s
  | .throttleStep => Sys2Proof.Machine.execThrottleStep s
  | .hardThrottle => Sys2Proof.Machine.execHardThrottle s
  | .criticalTemperature => Sys2Proof.Machine.execCriticalTemperature s
  | .poolOccupancyPublication => Sys2Proof.Machine.execPoolOccupancyPublication s
  | .flitReceive => Sys2Proof.Machine.execFlitReceive s
  | .fabricPortDown => Sys2Proof.Machine.execFabricPortDown s
  | .fabricPortRetrain => Sys2Proof.Machine.execFabricPortRetrain s
  | .fabricRequestArrival => Sys2Proof.Machine.execFabricRequestArrival s
  | .poolLinkDown => Sys2Proof.Machine.execPoolLinkDown s
  | .powerOnReset => Sys2Proof.Machine.execPowerOnReset s
  | .managementFirmwareRetry => Sys2Proof.Machine.execManagementFirmwareRetry s
  | .romRecoveryLoad => Sys2Proof.Machine.execRomRecoveryLoad s
  | .fuseCommit => Sys2Proof.Machine.execFuseCommit s
  | .partitionRequest => Sys2Proof.Machine.execPartitionRequest s
  | .unfreezeRequest => Sys2Proof.Machine.execUnfreezeRequest s
  | .managementWindowViolation => Sys2Proof.Machine.execManagementWindowViolation s
  | .getVersion => Sys2Proof.Machine.execGetVersion s
  | .getCapabilities => Sys2Proof.Machine.execGetCapabilities s
  | .negotiateAlgorithms => Sys2Proof.Machine.execNegotiateAlgorithms s
  | .getDigests => Sys2Proof.Machine.execGetDigests s
  | .getCertificate => Sys2Proof.Machine.execGetCertificate s
  | .challenge => Sys2Proof.Machine.execChallenge s
  | .getMeasurements => Sys2Proof.Machine.execGetMeasurements s
  | .spdmUnsupportedRequest => Sys2Proof.Machine.execSpdmUnsupportedRequest s
  | .readback => Sys2Proof.Machine.execReadback s
  | .patrolScrub => Sys2Proof.Machine.execPatrolScrub s
  | .errorThreshold => Sys2Proof.Machine.execErrorThreshold s
  | .illegalInstruction => Sys2Proof.Machine.execIllegalInstruction s
  | .overlayFetch => Sys2Proof.Machine.execOverlayFetch s
  | .taskMessageAcknowledgment => Sys2Proof.Machine.execTaskMessageAcknowledgment s
  | .stealNoneAnswer => Sys2Proof.Machine.execStealNoneAnswer s
  | .commandUndefinedOp => Sys2Proof.Machine.execCommandUndefinedOp s

end Sys2Proof.Machine
end

