-- ==== Sys2Proof/Machine/Schedule.lean ====
section
/-! DEFINITION. The default order of the machine's other agents (log 1): the first step that changes something. -/

namespace Sys2Proof.Machine

/-- A step and what it acts on. -/
abbrev Candidate := Instr × Args

/-- Whether a step changes the state. -/
def State.enabled (s : State) (c : Candidate) : Bool :=
  match exec c.1 { s with arg := c.2 } with
  | .next t => t != { s with arg := c.2 }
  | _ => false

/-- The step that serves a message. -/
def messageStep (m : Msg) : Candidate :=
  let i : Instr := match m.body with
    | .spawn _ _ _ _ _ _ _ _ _ => .spawnArrival
    | .lnGo _ _ _ _ _ _ _ _ _ _ _ => .lnGoArrival
    | .push _ _ _ _ => .taskPushArrival
    | .taskEnd _ _ => .taskEndArrival
    | .gain _ _ _ _ _ _ _ _ => .gainUpdateArrival
    | .depDec _ _ _ => .depDecArrival
    | .stealRequest _ _ => .stealRequestArrival
    | .stolen _ _ _ _ => .stolenRecordArrival
    | .stealAck _ _ => .stealAcknowledgment
    | .stealRefuse _ _ => .stealRefusal
    | .stealNone _ => .stealNoneAnswer
    | _ => .homeRequestService
  (i, { message := m.id })

/-- R218: starts by `ln.go` come before spawns. -/
def messageSteps (s : State) : List Candidate :=
  let isGo (m : Msg) : Bool := match m.body with
    | .lnGo _ _ _ _ _ _ _ _ _ _ _ => true
    | _ => false
  ((s.net.filter isGo) ++ s.net.filter fun m => !isGo m).map messageStep

def ackSteps (s : State) : List Candidate :=
  s.acks.map fun a => (if a.task then .taskMessageAcknowledgment else .storeAcknowledgment, { message := a.id })

/-- A strand's results, walk and engine work. -/
def strandSteps (p : Nat × Strand) : List Candidate :=
  let a : Args := { tile := p.1 / 8, slot := p.1 % 8 }
  let r := p.2
  (r.longs.filter fun o => o.waiting == 0).map (fun o =>
    (if o.atomic then Instr.atomicAcknowledgment else if o.answered then .answerReturn else .longResultWrite, { a with op := o.id })) ++
  (match r.walk with
    | some w => if w.failed then [] else [(.walkComplete, a)]
    | none => []) ++
  ((List.range r.engineWalks.length).map fun k => (.walkComplete, { a with far := true, op := k })) ++
  ([false, true].flatMap fun far => match r.copyAt far with
    | some c => if c.rows ≤ c.row then [(.copyComplete, { a with far := far })] else [(.copyElement, { a with far := far })]
    | none => []) ++
  (if r.drains.isEmpty then [] else [(.portDrainElement, a)]) ++
  (r.ports.filter fun q => q.2.isOpen && !q.2.out && decide (q.2.buf.length < 4) && decide (q.2.fetch < q.2.total)).map fun q =>
    (.portRefillElement, { a with op := q.1 })

/-- A tile's array, barriers and pre-emption. -/
def tileSteps (s : State) (p : Nat × Tile) : List Candidate :=
  let a : Args := { tile := p.1 }
  let t := p.2
  (if !t.array.isEmpty ∧ t.arrayDue ≤ s.cycle then [(.arrayOperationComplete, a)] else []) ++
  ((t.halyard.filter fun h => h.2.getLsbD 1).map fun h =>
    (.halyardPhaseComplete, { a with id := h.1 % 4, lw := h.1 / 4 % 8, lh := h.1 / 32 })) ++
  match t.preempt with
  | .running => []
  | .saved => []
  | .expired => [(.tileSave, a)]
  | .saving => [(.tileSave, a)]
  | .deferring limit => if limit ≤ s.dt then [(.preemptionDeferralExpiry, a)] else [(.tileSave, a)]

def clusterSteps (p : Nat × Cluster) : List Candidate :=
  if p.2.encoder.isEmpty then [] else [(if p.2.targets.isSome then .viterbiBlockComplete else .viterbiBlockStart, { cluster := p.1 })]

/-- The hoists of a launch (R282 to R288). -/
def hoistSteps (l : Launch) : List Candidate :=
  let each (i : Instr) : List Candidate := l.clusters.map fun c => (i, { cluster := c })
  if l.tasks.isNone then [] else each .heapLevelMove ++ each .taskDispatch ++ each .stealRequest

def launchSteps (s : State) (p : Nat × Launch) : List Candidate :=
  let a : Args := { launch := p.1 }
  if p.2.ended then []
  else if !p.2.started then [(.launchStart, a)]
  else hoistSteps p.2 ++ if s.strandsEnded p.2 then [(.launchEnd, a)] else []

def vfSteps (p : Nat × Vf) : List Candidate :=
  let a : Args := { vf := p.1 }
  (if p.2.command.isSome then [(.commandComplete, a)] else []) ++
  match p.2.reset with
  | some w => if w.cleared then [(.vfResetComplete, a)] else [(.vfResetDrainExpiry, a)]
  | none => []

/-- Clocks, ports and the management complex. -/
def packageSteps (s : State) : List Candidate :=
  (if s.vfs.any fun p => p.2.lqtail != p.2.lqhead || decide (0 < p.2.deficit) then [(.launchQueueService, ({} : Args))] else []) ++
  (if s.throttles.isEmpty then [] else [(.hardThrottle, ({} : Args)), (.throttleStep, ({} : Args))]) ++
  ((s.links.filter fun p => (decide (9 ≤ p.2.failures) || decide (9 ≤ p.2.sendFails)) && !p.2.down).map fun p => (.fabricPortDown, { port := p.1 })) ++
  if s.trust.stage = 3 ∧ s.trust.retryAt ≤ s.dt then [(.managementFirmwareRetry, ({} : Args))] else []

/-- The next step of an engine, a home or another agent that is enabled, with what it acts on. -/
def nextInternal (s : State) : Option Candidate :=
  (messageSteps s).find? s.enabled
    |>.orElse fun _ => (ackSteps s).find? s.enabled
    |>.orElse fun _ => (s.strands.flatMap strandSteps).find? s.enabled
    |>.orElse fun _ => (s.tiles.flatMap (tileSteps s)).find? s.enabled
    |>.orElse fun _ => (s.clusters.flatMap clusterSteps).find? s.enabled
    |>.orElse fun _ => (s.launches.flatMap (launchSteps s)).find? s.enabled
    |>.orElse fun _ => (s.vfs.flatMap vfSteps).find? s.enabled
    |>.orElse fun _ => (packageSteps s).find? s.enabled

/-- Steps that come at an instant of their own: at once when that instant has come, before anything else (log 1): a stall count that
reaches its limit (R224), a combine that is known and a drain that is complete (R291, R292), a deferral's end and a save instant (R233), a soft throttle
request of 1 ms, and a hard throttle at the last boundary of its 2 µs (R27). -/
def startDue (s : State) : Option Candidate :=
  (s.launches.flatMap fun p =>
      if !p.2.started || p.2.ended then []
      else
        let a : Args := { launch := p.1 }
        (if Config.stallLimit ≤ p.2.stall then [(Instr.fieldStall, a)] else []) ++
          if p.2.tasks.isSome then [(.rsdCombine, a), (.terminationDrain, a)] else []).find? s.enabled
    |>.orElse fun _ => (s.tiles.flatMap fun p => match p.2.preempt with
      | .deferring limit => [((if limit ≤ s.dt then .preemptionDeferralExpiry else .tileSave : Instr), ({ tile := p.1 } : Args))]
      | .expired => [(.tileSave, { tile := p.1 })]
      | _ => []).find? s.enabled
    |>.orElse fun _ => if s.throttles.any fun t => t.overdue s.dt then some (.hardThrottle, {})
      else if s.cursor = 0 ∧ s.throttles.any s.throttleDue then some (.throttleStep, {}) else none

/-- Steps that close a cycle ≡ 0 (mod 64), after its last slot: publications and snapshots (R287, R291). -/
def endDue (s : State) : Option Candidate :=
  if s.cycle % 64 ≠ 0 then none
  else (s.launches.flatMap fun p =>
      if !p.2.started || p.2.ended || p.2.tasks.isNone then []
      else (p.2.clusters.map fun c => (Instr.keyPublication, ({ cluster := c } : Args))) ++
        p.2.clusters.map fun c => (.rsdSnapshot, { cluster := c })).find? s.enabled

/-- The strands' turn: the next strand of this cycle at its slot (R17), or, after the last of them, what
closes the cycle, and then the cycle passes. -/
def strandTurn (s : State) : Host.Outcome State Fault Refusal :=
  match nextStrand s with
  | none => match endDue s with
    | some (i, a) => exec i { s with arg := a }
    | none => .next (passCycle s)
  | some c =>
    let s := { s with cur := c, cursor := c / 8 + 1 }
    match slotAct s with
    | .idle => .next s
    | .event i => exec i s
    | .trap code info bad => .next (s.takeTrap code info bad)
    | .freeze kind addr => .next (s.freeze c kind addr)
    | .run i => exec i s

end Sys2Proof.Machine
end

