-- ==== Sys2Proof/Machine/Step.lean ====
section
/-! DEFINITION. One step of the package, and the host's way of placing an instruction. -/

namespace Sys2Proof.Machine

/-- One step: a step whose instant has come; else the next entry of the agenda, a step of another agent or the strands' turn; else the first enabled step of the other
agents; else the strands' turn (log 1). -/
def step (s : State) : Host.Outcome State Fault Refusal :=
  match startDue s with
  | some (i, a) => exec i { s with arg := a }
  | none => match s.agenda with
    | (i, a) :: rest => if externalStep i then exec i { s with agenda := rest, arg := a } else strandTurn { s with agenda := rest }
    | [] => match nextInternal s with
      | some (i, a) => exec i { s with arg := a }
      | none => strandTurn s

/-- The address at which `withFetchWord` places the instruction. -/
def fetchPlace : Nat := 0

/-- The state in which strand 0 of tile 0 runs a launch of one tile and fetches the instruction whose bits are `w` at its very
next step: a context, a launch and a running strand stand in for boot, partition and launch (log 2). -/
def State.withFetchWord (s : State) (nbits w : Nat) : State :=
  let key := launchKey 0 1
  let s := s.setLaunch key { vf := 0, number := 1, xb := 4096, scr := 65536, started := true, stall := 0 }
  let t := s.tile 0
  let s := s.setTile 0 { t with store := writeBytes t.store fetchPlace (natToBytes 16 (w % 2 ^ nbits)), launch := some key,
                                xb := 4096, scr := 65536, preempt := .running }
  let r := s.strand 0
  let s := s.setStrand 0 { r with run := .running, pc := BitVec.ofNat 32 fetchPlace, broken := false, depth := 0, hyIssue := none }
  { s with agenda := [], cycle := s.cycle - s.cycle % 64 + 8, cursor := 0 }

end Sys2Proof.Machine
end

