-- ==== Sys2Proof/Certificates/Slice0/Obligations.lean ====
section
/-! DEFINITION. Statements about the machine, from the numbered rules of the spec. The definitions before them only name things that
several statements speak of. -/

namespace Sys2Proof.Claims

open Sys2Proof.Machine

/-! Conditions on the state alone. -/

/-- R21: no register that the instruction names is pending. -/
abbrev Ready (i : Instr) (s : State) : Prop := regsPending i s.me = false

/-- R82: every scalar, mask, vector and window register file of a strand is in the one form in which equal contents are equal data. -/
abbrev CanonicalRegs (r : Strand) : Prop :=
  mapWf 0 r.x = true ∧ mapWf 0 r.v = true ∧ mapWf 0 r.k = true ∧ mapWf 0 r.w = true

/-! Memory, byte by byte. -/

/-- The memories of the machine. -/
inductive Space where
  | device | host | remote
  | store (tile : Nat)
  | slot (tile n : Nat)
deriving DecidableEq, Repr

/-- The model's read of one byte of a memory. -/
def readCell (s : State) : Space → Nat → Byte
  | .device, a => readByte s.mem a
  | .host, a => readByte s.hostMem a
  | .remote, a => readByte s.remote a
  | .store t, a => readByte (s.tile t).store a
  | .slot t n, a => readByte (mapGet {} (s.tile t).slots n).mem a

/-- Every byte of every memory reads as before. -/
def SameMemory (s t : State) : Prop := ∀ m a, readCell t m a = readCell s m a

/-- Nothing of the package but the strand at hand differs. -/
abbrev OnlyMe (s t : State) : Prop := t = s.setMe t.me

/-! Integers of an operating width (R99), in bit-vector terms. -/

/-- The low bits of a word in an integer format of 32 or 64 bits, extended to 64 bits. -/
def fitted (fmt : BitVec 5) (v : Word) : Word :=
  if fmt = 4 then (v.setWidth 32).signExtend 64 else if fmt = 5 then (v.setWidth 32).setWidth 64 else v

/-- The operating width. -/
def opWidth (fmt : BitVec 5) : Nat := if fmt = 4 ∨ fmt = 5 then 32 else 64

/-- The integer that the low bits of a word stand for. -/
def valueIn (fmt : BitVec 5) (v : Word) : Int :=
  if fmt = 4 ∨ fmt = 6 then (fitted fmt v).toInt else ((fitted fmt v).toNat : Int)

/-- The greatest and the least integer of a format. -/
def greatest (fmt : BitVec 5) : Int :=
  if fmt = 4 then 2 ^ 31 - 1 else if fmt = 5 then 2 ^ 32 - 1 else if fmt = 6 then 2 ^ 63 - 1 else 2 ^ 64 - 1
def least (fmt : BitVec 5) : Int := if fmt = 4 then -2 ^ 31 else if fmt = 6 then -2 ^ 63 else 0

/-- An exact integer moved to the nearest one of the format. -/
def saturated (fmt : BitVec 5) (e : Int) : Word := BitVec.ofInt 64 (max (least fmt) (min (greatest fmt) e))

/-- The formats of the scalar integer instructions: i32, n32, i64 and n64. -/
abbrev ScalarIntFmt (f : Fields) : Prop := f.fmt = 4 ∨ f.fmt = 5 ∨ f.fmt = 6 ∨ f.fmt = 7

/-- The instruction issues and x[D] receives the value; nothing else of the package changes. -/
def WritesX (i : Instr) (f : Fields) (s : State) (v : Word) : Prop :=
  exec i s = .next (s.retire (writeX s.me f.d.toNat v) f)

/-- The instruction issues and k[D] receives the value; nothing else of the package changes. -/
def WritesK (i : Instr) (f : Fields) (s : State) (v : Word) : Prop :=
  exec i s = .next (s.retire (writeK s.me f.d.toNat v) f)

/-- The instruction issues and the strand goes on at an address. -/
def GoesTo (i : Instr) (s : State) (r : Strand) (pc : BitVec 32) : Prop := exec i s = .next (s.retireTo r pc)

/-- R21: a long-class instruction issues, and this value is on its way to x[D]; its flags come with it. -/
def StartsX (i : Instr) (f : Fields) (s : State) (r : Strand) (v : Word) (fl : Flags) : Prop :=
  exec i s = .next (s.startLong r f { id := 0, dest := destX f, data := v.zeroExtend 2048, flags := fl })

/-! Floating results. -/

/-- The real number that a finite value stands for. -/
def realOf : FVal → ℚ
  | .fin neg m e _ => (if neg then -1 else 1) * (m : ℚ) * (2 : ℚ) ^ e
  | _ => 0

/-- Finite and exact. -/
def Exact : FVal → Prop
  | .fin _ _ _ sticky => sticky = false
  | _ => False

/-- The formats of R33 and R34. -/
def floatFormats : List FFmt := [ffmt 16 false, ffmt 10 false, ffmt 11 false, ffmt 12 false, ffmt 13 false, ffmt 13 true, ffmt 14 false]

/-- R40, R45, R100: an exact scalar result rounded once to format `c` under the instruction's mode, draw L = 0. -/
def rounded (s : State) (f : Fields) (c : Nat) (x : FVal) : Nat × Flags :=
  deliver (strandFmt s.me c) (resolveMode s.me.status f.rm) f.s (draw s.me.seed s.me.srcnt 0) x

/-- R39, R46, R100: the value goes to x[D] with every bit above it zero, its flags into STATUS, and SRCNT counts sr. -/
def DeliversX (i : Instr) (f : Fields) (s : State) (mode : Nat) (y : Nat × Flags) : Prop :=
  exec i s = .next (s.retire (countSr (raise (writeX s.me f.d.toNat (BitVec.ofNat 64 y.1)) y.2) mode) f)

/-- R21, R39: a long-class scalar result with its flags is on its way to x[D]. -/
def StartsFloat (i : Instr) (f : Fields) (s : State) (mode : Nat) (y : Nat × Flags) : Prop :=
  exec i s = .next (s.startLong (countSr s.me mode) f
    { id := 0, dest := destX f, data := BitVec.ofNat 2048 y.1, flags := y.2 })

/-! Vector results (R83, R118, R119). -/

/-- Every port that a vector instruction names can be read or written now, and no element to be popped is uncorrectable in its buffer (R358). -/
abbrev PortsReady (s : State) (srcs : List Nat) (dst : Option Nat) : Prop :=
  checkPorts s.me srcs dst = .ok ∧ srcs.any (spoiltSource s.me) = false

/-- R39: the flags are the OR over the active elements. -/
def FlagsOver (n : Nat) (active : Nat → Bool) (each : Nat → Flags) (fl : Flags) : Prop :=
  ∀ b, fl.getLsbD b = true ↔ ∃ j, j < n ∧ active j = true ∧ (each j).getLsbD b = true

/-- R83, R121: an active element receives its result, an inactive one keeps its value or becomes 0. -/
def Merged (b : Nat) (v old : VReg) (active : Nat → Bool) (zm : Bool) (each : Nat → Nat) : Prop :=
  ∀ j, j < 2048 / b →
    elemAt b v j = if active j then each j % 2 ^ b else if zm then 0 else elemAt b old j

/-- The element of width `b` that vector source field `n` gives: of the register, or of the element at the head of the port. -/
def operand (s : State) (b n j : Nat) : Nat := elemAt b (readVP s.me n) j

/-- A short-class vector instruction: each named input port is popped once, the destination receives its elements, the flags of the
active ones go to STATUS, and SRCNT counts a rounding by sr. -/
def Elementwise (i : Instr) (f : Fields) (s : State) (srcs : List Nat) (mode b : Nat) (each : Nat → Nat × Flags) : Prop :=
  ∃ (v : VReg) (fl : Flags),
    exec i s = .next (s.retire (countSr (raise (writeVP (popPorts s.me srcs) f.d.toNat v) fl) mode) f) ∧
    Merged b v (readDst s.me f.d.toNat) (elemActive b (laneMask s.me f)) f.zm (fun j => (each j).1) ∧
    FlagsOver (2048 / b) (elemActive b (laneMask s.me f)) (fun j => (each j).2) fl

/-- The same of a long-class one: the value and its flags are on their way to v[D]. -/
def ElementwiseLong (i : Instr) (f : Fields) (s : State) (srcs : List Nat) (b : Nat) (each : Nat → Nat × Flags) : Prop :=
  ∃ (v : VReg) (fl : Flags),
    exec i s = .next (s.startLong (countSr (popPorts s.me srcs) (resolveMode s.me.status f.rm)) f
      { id := 0, dest := .v f.d.toNat, data := v, flags := fl }) ∧
    Merged b v (readV s.me f.d.toNat) (elemActive b (laneMask s.me f)) f.zm (fun j => (each j).1) ∧
    FlagsOver (2048 / b) (elemActive b (laneMask s.me f)) (fun j => (each j).2) fl

/-- The rounded result of element j: mode and draw of the instruction, L = j (R45, R121). -/
def roundedAt (s : State) (f : Fields) (j : Nat) (x : FVal) : Nat × Flags :=
  let mode := resolveMode s.me.status f.rm
  deliver (strandFmt s.me f.fmt.toNat) mode f.s (if mode = 5 then draw s.me.seed s.me.srcnt j else 0) x

/-- An element of a source as a floating value of the instruction's format. -/
def floatAt (s : State) (f : Fields) (n j : Nat) : FVal :=
  readFloat (strandFmt s.me f.fmt.toNat) (operand s (fmtWidth f.fmt.toNat) n j)

/-- An element of a source as an integer of the instruction's format. -/
def intAt (s : State) (f : Fields) (n j : Nat) : Int :=
  readFmtInt f.fmt.toNat (operand s (fmtWidth f.fmt.toNat) n j)

/-! Canonical contents: equal contents are equal data. -/

abbrev CanonicalTile (t : Tile) : Prop :=
  t.store.wf = true ∧ mapWf {} t.slots = true ∧ (∀ p ∈ t.slots, p.2.mem.wf = true) ∧ mapWf 0 t.banks = true ∧
  mapWf 0 t.hist = true ∧ mapWf 0 t.hbase = true ∧ mapWf 0 t.halyard = true

/-- The tables of strands and tiles, the register files, and the contents of every tile are in canonical form. -/
abbrev CanonicalTiles (s : State) : Prop :=
  mapWf {} s.strands = true ∧ mapWf {} s.tiles = true ∧ (∀ p ∈ s.strands, CanonicalRegs p.2) ∧ (∀ p ∈ s.tiles, CanonicalTile p.2)

/-- An element of an accumulator bank. -/
def bankAt (t : Tile) (bank row col : Nat) : BitVec 32 := mapGet 0 t.banks (bankKey bank row col)

/-- A byte of an operand slot. -/
def slotByte (t : Tile) (n off : Nat) : Byte := readByte (mapGet {} t.slots n).mem off

/-! Parts of the statements. -/

/-- R79, R98: LEN 11 is an illegal instruction at any address, and a word that crosses a 32-byte block is a straddle, whatever
stands in the rest of it. -/
def lengthAndStraddleRules : Prop :=
  ∀ (pc : Nat) (bytes : List Byte),
    ((bytes.headD 0).toNat % 4 = 3 → decodeAt pc bytes = .error .unassigned) ∧
    ((bytes.headD 0).toNat % 4 = 0 → 24 < pc % 32 → decodeAt pc bytes = .error .straddle) ∧
    ((bytes.headD 0).toNat % 4 = 1 → 20 < pc % 32 → decodeAt pc bytes = .error .straddle) ∧
    ((bytes.headD 0).toNat % 4 = 2 → 16 < pc % 32 → decodeAt pc bytes = .error .straddle)

/-- R17, R25, R27: when every agent and every strand of the slot has had its turn, one arithmetic cycle passes; device time advances
by 1/f, a clock of `mhz` MHz giving 36,000/mhz units of 1/36 ns (log 5), and no register and no byte of memory changes. -/
def cyclePassesRules : Prop :=
  ∀ s : State, startDue s = none → s.agenda = [] → nextInternal s = none → nextStrand s = none → endDue s = none →
    ∃ t, step s = .next t ∧ t.cycle = s.cycle + 1 ∧ t.dt36 = s.dt36 + 36000 / s.mhz ∧ t.mhz = s.mhz ∧ t.strands = s.strands ∧
      t.tiles = s.tiles ∧ SameMemory s t

/-- R27, R224, R287, R291, R292: no cycle passes from the last cycle boundary within 2 µs of a hard throttle, while a stall count stands at its limit, while a combine is known and not yet acted on, or, at a
cycle ≡ 0 (mod 64), before every hoist of a task launch has published its key and taken its snapshot; whatever the agenda holds, but for a power-on reset. -/
def dueStepsRules : Prop :=
  ∀ (s t : State) (key : Nat) (l : Launch), mapWf {} s.launches = true → (key, l) ∈ s.launches → l.started = true → l.ended = false →
    (∀ e ∈ s.agenda, e.1 ≠ .powerOnReset) → step s = .next t →
    (2 ^ 20 ≤ l.stall → l.stalled = false → s.active key = true → t.cycle = s.cycle) ∧
    (∀ e, l.tasks ≠ none → l.knownEpoch s.cycle = some e → t.cycle = s.cycle) ∧
    (∀ cl, cl ∈ l.clusters → s.cycle % 64 = 0 → l.tasks ≠ none → l.term ≠ .closed → s.launchKeyOf (clusterTile cl 0) = key →
      (s.cluster cl).bad = false → ((s.cluster cl).pubAt ≠ s.cycle / 64 + 1 ∨ ∀ p ∈ l.snaps, p.epoch ≠ s.cycle / 64 ∨ p.cluster ≠ cl) →
      t.cycle = s.cycle) ∧
    (∀ q ∈ s.throttles, q.hard = true → s.cursor = 0 → 36 * (q.at_.toNat + 2000) < s.dt36 + 36000 / s.mhz → t.cycle = s.cycle)

/-- R25: at 600 MHz the DT instants of successive cycles differ by 1 or 2, and those of successive slots of a strand by 13 or 14. -/
def slotInstantsRules : Prop :=
  ∀ s : State, s.mhz = 600 →
    let later (n : Nat) : State := passCycle^[n] s
    ((later 1).dt36 / 36 - s.dt36 / 36 = 1 ∨ (later 1).dt36 / 36 - s.dt36 / 36 = 2) ∧
    ((later 8).dt36 / 36 - s.dt36 / 36 = 13 ∨ (later 8).dt36 / 36 - s.dt36 / 36 = 14) ∧
    (later 8).cycle % 8 = s.cycle % 8

/-- R98: the checks of a fetch in their order. At or beyond XB, whatever stands there, the overlay trap; below it LEN 11 and unassigned
words are illegal instructions; then the straddle; then the fields; then the formats. -/
def fetchChecksRules : Prop :=
  ∀ s : State,
    let t := s.tile s.myTile
    let pc := s.me.pc.toNat
    let bytes := fetchBytes t pc
    let first := bytesToNat (bytes.take 4)
    (t.xb ≤ pc → fetchAct s = .event .overlayFetch) ∧
    (pc < t.xb → s.badWords = [] →
      (decodeAt pc bytes = .error .unassigned → fetchAct s = .event .illegalInstruction) ∧
      (decodeAt pc bytes = .error .straddle → fetchAct s = .trap 3 0 (BitVec.ofNat 64 pc)) ∧
      (decodeAt pc bytes = .error .field → fetchAct s = .trap 1 first 0) ∧
      (decodeAt pc bytes = .error .format → fetchAct s = .trap 2 first 0))

/-- R24, R98, R205, R206: with no handler active, the fetch traps enter their handlers: the overlay trap at OVH, the illegal instruction
at TVB + 64; EPC names the word, CAUSE and BADADDR are as the table says, and nothing else of the package changes. -/
def fetchTrapEntryRules : Prop :=
  ∀ s : State, causeActive s.me.cause = false →
    (fetchAct s = .event .overlayFetch →
      exec .overlayFetch s = .next (s.setMe { s.me with
        epc := s.me.pc.zeroExtend 64, cause := causeOf 0 4, badaddr := s.me.pc.zeroExtend 64, pc := s.me.ovh.truncate 32,
        fence := none, hyIssue := none, walk := none })) ∧
    (fetchAct s = .event .illegalInstruction →
      exec .illegalInstruction s = .next (s.setMe { s.me with
        epc := s.me.pc.zeroExtend 64
        cause := causeOf (bytesToNat (readBytes (s.tile s.myTile).store s.me.pc.toNat 4)) 1
        badaddr := 0, pc := s.me.tvb.truncate 32 + 64, fence := none, hyIssue := none, walk := none }))

/-- R104: the counts over Bv[w−1:0], w for a zero operand; and `sext`. -/
def bitCountsRules : Prop :=
  ∀ (f : Fields) (s : State),
    let b := readX s.me f.b.toNat + immOf f
    let w := opWidth f.fmt
    (ScalarIntFmt f → Ready (.clz f) s → ∃ n, WritesX (.clz f) f s (BitVec.ofNat 64 n) ∧ n ≤ w ∧
      (∀ j, w - n ≤ j → j < w → b.getLsbD j = false) ∧ (n < w → b.getLsbD (w - 1 - n) = true)) ∧
    (ScalarIntFmt f → Ready (.ctz f) s → ∃ n, WritesX (.ctz f) f s (BitVec.ofNat 64 n) ∧ n ≤ w ∧
      (∀ j, j < n → b.getLsbD j = false) ∧ (n < w → b.getLsbD n = true)) ∧
    (ScalarIntFmt f → Ready (.popc f) s →
      WritesX (.popc f) f s (BitVec.ofNat 64 ((List.range w).filter fun j => b.getLsbD j).length)) ∧
    (f.fmt.toNat < 10 → Ready (.sext f) s → ∃ v : Word, WritesX (.sext f) f s v ∧
      ∀ j, j < 64 → v.getLsbD j = if j < fmtWidth f.fmt.toNat then b.getLsbD j
        else f.fmt.toNat % 2 == 0 && b.getLsbD (fmtWidth f.fmt.toNat - 1))

/-- R105: field extraction and insertion, bit by bit; a length of 0 or above 64 selects nothing. -/
def bitFieldsRules : Prop :=
  ∀ (f : Fields) (s : State),
    let a := readX s.me f.a.toNat
    let b := readX s.me f.b.toNat + immOf f
    let pos := (b.extractLsb' 0 6).toNat
    let len := if (b.extractLsb' 6 7).toNat ≤ 64 then (b.extractLsb' 6 7).toNat else 0
    (Ready (.bext f) s → ∃ v : Word, WritesX (.bext f) f s v ∧
      ∀ j, j < 64 → v.getLsbD j = if j < len then a.getLsbD (pos + j) else f.s && decide (0 < len) && a.getLsbD (pos + len - 1)) ∧
    (Ready (.bins f) s → ∃ v : Word, WritesX (.bins f) f s v ∧
      ∀ j, j < 64 → v.getLsbD j = if pos ≤ j ∧ j < pos + len then a.getLsbD (j - pos) else (readX s.me f.d.toNat).getLsbD j)

/-- R106, R107, R112: moves, selection, remote addresses and device time; `nop` and the hints change nothing but the PC (R96, R97). -/
def movesRules : Prop :=
  ∀ (f : Fields) (s : State),
    let a := readX s.me f.a.toNat
    let b := readX s.me f.b.toNat + immOf f
    (Ready (.li f) s → WritesX (.li f) f s (immOf f)) ∧
    (Ready (.mov f) s → WritesX (.mov f) f s a) ∧
    (Ready (.sel f) s → WritesX (.sel f) f s (if readX s.me f.c.toNat = 0 then readX s.me f.b.toNat else a)) ∧
    (Ready (.lea f) s → WritesX (.lea f) f s
      (0x40000000#64 + ((a.extractLsb' 8 5).setWidth 64 <<< 25) + ((a.extractLsb' 0 5).setWidth 64 <<< 20) +
        (b.extractLsb' 0 20).setWidth 64)) ∧
    (Ready (.dtRd f) s → WritesX (.dtRd f) f s (BitVec.ofNat 64 (s.dt36 / 36))) ∧
    (exec (.nop f) s = .next (s.retire s.me f)) ∧
    (∀ n, exec (.vHint n f) s = .next (s.retire s.me f))

/-- R108: the ten conditions on all 64 bits. -/
def conditionsRules : Prop :=
  ∀ (f : Fields) (s : State),
    let a := readX s.me f.a.toNat
    let b := readX s.me f.b.toNat + immOf f
    let one (c : Bool) : Word := if c then 1 else 0
    (Ready (.setEq f) s → WritesX (.setEq f) f s (one (a == b))) ∧ (Ready (.setNe f) s → WritesX (.setNe f) f s (one (a != b))) ∧
    (Ready (.setLt f) s → WritesX (.setLt f) f s (one (a.slt b))) ∧ (Ready (.setGe f) s → WritesX (.setGe f) f s (one (b.sle a))) ∧
    (Ready (.setLo f) s → WritesX (.setLo f) f s (one (a.ult b))) ∧ (Ready (.setHs f) s → WritesX (.setHs f) f s (one (b.ule a))) ∧
    (Ready (.setLe f) s → WritesX (.setLe f) f s (one (a.sle b))) ∧ (Ready (.setGt f) s → WritesX (.setGt f) f s (one (b.slt a))) ∧
    (Ready (.setLs f) s → WritesX (.setLs f) f s (one (a.ule b))) ∧ (Ready (.setHi f) s → WritesX (.setHi f) f s (one (b.ult a)))

/-- R109: the mask registers. -/
def masksRules : Prop :=
  ∀ (f : Fields) (s : State),
    let a := readK s.me f.a.toNat
    let b := readK s.me f.b.toNat
    let x := readX s.me f.a.toNat
    (Ready (.kmov f) s → WritesK (.kmov f) f s x) ∧
    (Ready (.kget f) s → WritesX (.kget f) f s a) ∧
    (Ready (.kopAnd f) s → WritesK (.kopAnd f) f s (a &&& b)) ∧
    (Ready (.kopOr f) s → WritesK (.kopOr f) f s (a ||| b)) ∧
    (Ready (.kopXor f) s → WritesK (.kopXor f) f s (a ^^^ b)) ∧
    (Ready (.kopAndn f) s → WritesK (.kopAndn f) f s (a &&& ~~~b)) ∧
    (Ready (.kopNot f) s → WritesK (.kopNot f) f s (~~~a)) ∧
    (Ready (.kpop f) s → WritesX (.kpop f) f s (BitVec.ofNat 64 ((List.range 64).filter fun j => a.getLsbD j).length)) ∧
    (Ready (.kfill f) s → ∃ v : Word, WritesK (.kfill f) f s v ∧ ∀ j, j < 64 → v.getLsbD j = decide (j < x.toNat))

/-- R86, R108, R110: direct branches, `call` and `loop`. -/
def branchesRules : Prop :=
  ∀ (f : Fields) (s : State),
    let r := s.me
    let a := readX r f.a.toNat
    let b := readX r f.b.toNat
    let next : BitVec 32 := r.pc + BitVec.ofNat 32 f.bytes
    let target : BitVec 32 := r.pc + 4 * (immOf f).setWidth 32
    let branch (c : Bool) : BitVec 32 := if c then target else next
    exec (.br f) s = .next (s.retireTo r target) ∧
    (Ready (.bEq f) s → GoesTo (.bEq f) s r (branch (a == b))) ∧ (Ready (.bNe f) s → GoesTo (.bNe f) s r (branch (a != b))) ∧
    (Ready (.bLt f) s → GoesTo (.bLt f) s r (branch (a.slt b))) ∧ (Ready (.bGe f) s → GoesTo (.bGe f) s r (branch (b.sle a))) ∧
    (Ready (.bLo f) s → GoesTo (.bLo f) s r (branch (a.ult b))) ∧ (Ready (.bHs f) s → GoesTo (.bHs f) s r (branch (b.ule a))) ∧
    (Ready (.bLe f) s → GoesTo (.bLe f) s r (branch (a.sle b))) ∧ (Ready (.bGt f) s → GoesTo (.bGt f) s r (branch (b.slt a))) ∧
    (Ready (.bLs f) s → GoesTo (.bLs f) s r (branch (a.ule b))) ∧ (Ready (.bHi f) s → GoesTo (.bHi f) s r (branch (b.ult a))) ∧
    (Ready (.call f) s → GoesTo (.call f) s (writeX r f.d.toNat (next.setWidth 64)) target) ∧
    (Ready (.loop f) s → GoesTo (.loop f) s (writeX r f.d.toNat (readX r f.d.toNat - 1))
      (branch (readX r f.d.toNat - 1 != 0)))

/-- R111: indirect jumps go to x[A][31:0]; a target that is no multiple of 4 is an alignment fault with the target in BADADDR, and
`callr` then writes nothing. -/
def indirectJumpsRules : Prop :=
  ∀ (f : Fields) (s : State),
    let r := s.me
    let t : BitVec 32 := (readX r f.a.toNat).setWidth 32
    (t.toNat % 4 = 0 →
      (Ready (.jr f) s → GoesTo (.jr f) s r t) ∧ (Ready (.ret f) s → GoesTo (.ret f) s r t) ∧
      (Ready (.callr f) s → GoesTo (.callr f) s (writeX r f.d.toNat ((r.pc + BitVec.ofNat 32 f.bytes).setWidth 64)) t)) ∧
    (t.toNat % 4 ≠ 0 →
      (Ready (.jr f) s → exec (.jr f) s = .next (s.takeTrap 5 0 (t.setWidth 64))) ∧
      (Ready (.ret f) s → exec (.ret f) s = .next (s.takeTrap 5 0 (t.setWidth 64))) ∧
      (Ready (.callr f) s → exec (.callr f) s = .next (s.takeTrap 5 0 (t.setWidth 64))))

/-- R113: `dt.until` before its time is presented again at its own address; at or after it, it completes with the instant in x[D]. -/
def dtUntilRules : Prop :=
  ∀ (f : Fields) (s : State), Ready (.dtUntil f) s →
    (s.dt.toNat < (readX s.me f.a.toNat).toNat → exec (.dtUntil f) s = .next (s.retireTo s.me s.me.pc)) ∧
    ((readX s.me f.a.toNat).toNat ≤ s.dt.toNat → WritesX (.dtUntil f) f s s.dt)

/-- R40, R100, R114, R115: scalar arithmetic and conversions: the exact result of the sources, rounded once. -/
def scalarFloatRules : Prop :=
  ∀ (f : Fields) (s : State),
    let c := f.fmt.toNat
    let a := readFloat (strandFmt s.me c) (readX s.me f.a.toNat).toNat
    let b := readFloat (strandFmt s.me c) (readX s.me f.b.toNat).toNat
    let d := readFloat (strandFmt s.me c) (readX s.me f.c.toNat).toNat
    let mode := resolveMode s.me.status f.rm
    (Ready (.fAdd f) s → DeliversX (.fAdd f) f s mode (rounded s f c (addVal mode a b))) ∧
    (Ready (.fSub f) s → DeliversX (.fSub f) f s mode (rounded s f c (addVal mode a b.negate))) ∧
    (Ready (.fMul f) s → DeliversX (.fMul f) f s mode (rounded s f c (mulVal a b))) ∧
    (Ready (.fFma f) s → DeliversX (.fFma f) f s mode (rounded s f c (addVal mode (mulVal a b) d))) ∧
    (Ready (.fCvt f) s → isFloatFmt c = true → DeliversX (.fCvt f) f s mode (rounded s f f.imm10.toNat a)) ∧
    (Ready (.fCvt f) s → isFloatFmt c = false → DeliversX (.fCvt f) f s mode
      (rounded s f f.imm10.toNat (intVal (readFmtInt c (readX s.me f.a.toNat).toNat)))) ∧
    (Ready (.fCvti f) s → ∃ (n : Int) (fl : Flags), (n, fl) =
        floatToInt (fmtSigned f.imm10.toNat) (fmtWidth f.imm10.toNat) mode (draw s.me.seed s.me.srcnt 0) a ∧
      exec (.fCvti f) s = .next (s.retire (countSr (raise (writeX s.me f.d.toNat (BitVec.ofInt 64 n)) fl) mode) f)) ∧
    (longRoom s.me false = true →
      (Ready (.fDiv f) s → StartsFloat (.fDiv f) f s mode
        ((rounded s f c (divVal a b).1).1, (rounded s f c (divVal a b).1).2 ||| (divVal a b).2)) ∧
      (Ready (.fSqrt f) s → StartsFloat (.fSqrt f) f s mode (rounded s f c (sqrtVal a))))

/-- R116, R117: comparisons, with NV for a NaN operand; minimum, maximum, absolute value and negation, which do not round. -/
def scalarFloatCompareRules : Prop :=
  ∀ (f : Fields) (s : State),
    let F := strandFmt s.me f.fmt.toNat
    let a := readFloat F (readX s.me f.a.toNat).toNat
    let b := readFloat F (readX s.me f.b.toNat).toNat
    let nan := a.isNan || b.isNan
    let sets (i : Instr) (c : Bool) : Prop := Ready i s →
      exec i s = .next (s.retire (raise (writeX s.me f.d.toNat (if c then 1 else 0)) (if nan then flagNV else 0)) f)
    let exact (i : Instr) (y : FVal) : Prop := Ready i s →
      exec i s = .next (s.retire (raise (writeX s.me f.d.toNat (BitVec.ofNat 64 (deliver F 0 false 0 y).1)) (deliver F 0 false 0 y).2) f)
    sets (.fCmpEq f) (!nan && cmpVal a b == .eq) ∧ sets (.fCmpNe f) (nan || cmpVal a b != .eq) ∧
    sets (.fCmpLt f) (!nan && cmpVal a b == .lt) ∧ sets (.fCmpGe f) (!nan && cmpVal a b != .lt) ∧
    sets (.fCmpLe f) (!nan && cmpVal a b != .gt) ∧ sets (.fCmpGt f) (!nan && cmpVal a b == .gt) ∧
    sets (.fCmpUn f) nan ∧ sets (.fCmpOrd f) (!nan) ∧
    exact (.fMin f) (if nan then .nan else if lessVal a b then a else b) ∧
    exact (.fMax f) (if nan then .nan else if lessVal a b then b else a) ∧
    exact (.fAbs f) (absVal a) ∧ exact (.fNeg f) a.negate

/-- R42, R125: one value per lane goes from part P of its lane to part P of the destination's lane; the lane's other parts stay. -/
def vectorConversionsRules : Prop :=
  ∀ (f : Fields) (s : State),
    let sf := f.fmt.toNat
    let df := f.imm10.toNat % 32
    let p := f.imm10.toNat / 32
    let mode := resolveMode s.me.status f.rm
    let r (l : Nat) := if mode = 5 then draw s.me.seed s.me.srcnt l else 0
    let bits (l : Nat) := operand s (fmtWidth sf) f.a.toNat (l * (32 / fmtWidth sf) + p % (32 / fmtWidth sf))
    let old (l q : Nat) := elemAt (fmtWidth df) (readDst s.me f.d.toNat) (l * (32 / fmtWidth df) + q)
    let lanes (i : Instr) (m : Nat) (g : Nat → Nat × Flags) : Prop := Ready i s → PortsReady s [f.a.toNat] (some f.d.toNat) →
      ∃ (v : VReg) (fl : Flags),
        exec i s = .next (s.retire (countSr (raise (writeVP (popPorts s.me [f.a.toNat]) f.d.toNat v) fl) m) f) ∧
        (∀ l q, l < 64 → q < 32 / fmtWidth df → elemAt (fmtWidth df) v (l * (32 / fmtWidth df) + q) =
          if (laneMask s.me f).getLsbD l then (if q = p % (32 / fmtWidth df) then (g l).1 % 2 ^ fmtWidth df else old l q)
          else if f.zm then 0 else old l q) ∧
        FlagsOver 64 (fun l => (laneMask s.me f).getLsbD l) (fun l => (g l).2) fl
    sf ∈ [0, 1, 2, 3, 4, 5, 8, 9, 10, 11, 12, 13, 14, 15] →
    (df ∈ [10, 11, 12, 13, 14] → lanes (.vCvt f) mode fun l =>
      deliver (strandFmt s.me df) mode f.s (r l)
        (if isFloatFmt sf then readFmt sf (statusFmode s.me.status) (bits l) else intVal (readFmtInt sf (bits l)))) ∧
    (df ∈ [0, 1, 2, 3, 4, 5, 8, 9] → lanes (.vCvti f) (if isFloatFmt sf then mode else 0) fun l =>
      if isFloatFmt sf then
        let y := floatToInt (fmtSigned df) (fmtWidth df) mode (r l) (readFmt sf (statusFmode s.me.status) (bits l))
        (wrapInt (fmtWidth df) y.1, y.2)
      else (deliverInt df true (readFmtInt sf (bits l)), 0))

/-- R126: dot products over the parts of a lane, added exactly to the i32 lane of C, then wrapped or saturated. -/
def vectorDotRules : Prop :=
  ∀ (f : Fields) (s : State),
    let three := [f.a.toNat, f.b.toNat, f.c.toNat]
    let dot (i : Instr) (b n : Nat) : Prop := Ready i s → PortsReady s three (some f.d.toNat) →
      Elementwise i f s three 0 32 fun l => (deliverInt 4 f.s (readInt true 32 (operand s 32 f.c.toNat l) +
        ((List.range n).map fun e => readFmtInt f.fmt.toNat (operand s b f.a.toNat (l * n + e)) *
          readFmtInt f.imm10.toNat (operand s b f.b.toNat (l * n + e))).sum), 0)
    (f.fmt.toNat < 2 → f.imm10.toNat < 2 → dot (.vDot4 f) 8 4) ∧
    (f.fmt.toNat ∈ [8, 9] → f.imm10.toNat ∈ [8, 9] → dot (.vDot8 f) 4 8)

/-- R127: node i of level t of the tree over leaves: nothing where no leaf below it is active; a node with one input passes it through;
`g` combines two under the number of the node. -/
def treeNode (g : Nat → Nat → Nat → Nat × Flags) (n : Nat) (leaf : Nat → Option Nat) : Nat → Nat → Option Nat
  | 0, i => leaf i
  | t + 1, i =>
    match treeNode g n leaf t (2 * i), treeNode g n leaf t (2 * i + 1) with
    | some x, some y => some (g (n - n / 2 ^ t + i) x y).1
    | none, y => y
    | x, none => x

/-- R129: the exponent of the lowest set bit of j + 1, below 8. -/
def lowBit (j : Nat) : Nat := ((List.range 8).find? fun t => (j + 1) / 2 ^ t % 2 == 1).getD 0

/-- R129: the block of leaves that ends at j, and the prefix over leaves 0 to j; `fuel` counts the blocks. -/
def treeBlock (g : Nat → Nat → Nat → Nat × Flags) (n : Nat) (leaf : Nat → Option Nat) (j : Nat) : Option Nat :=
  treeNode g n leaf (lowBit j) ((j + 1) / 2 ^ lowBit j - 1)
def treePrefix (g : Nat → Nat → Nat → Nat × Flags) (n : Nat) (leaf : Nat → Option Nat) : Nat → Nat → Option Nat
  | 0, _ => none
  | fuel + 1, j =>
    if j + 1 = 2 ^ lowBit j then treeBlock g n leaf j
    else match treePrefix g n leaf fuel (j - 2 ^ lowBit j), treeBlock g n leaf j with
      | some x, some y => some (g (n - 1 + j) x y).1
      | none, y => y
      | x, none => x

/-- R50, R127: a flag that a node of the tree raises, and one that a prefix node raises. -/
def NodeFlag (g : Nat → Nat → Nat → Nat × Flags) (n : Nat) (leaf : Nat → Option Nat) (b : Nat) : Prop :=
  ∃ t i x y, i < n / 2 ^ (t + 1) ∧ treeNode g n leaf t (2 * i) = some x ∧ treeNode g n leaf t (2 * i + 1) = some y ∧
    (g (n - n / 2 ^ t + i) x y).2.getLsbD b = true
def PrefixFlag (g : Nat → Nat → Nat → Nat × Flags) (n : Nat) (leaf : Nat → Option Nat) (b : Nat) : Prop :=
  ∃ j x y, j < n ∧ j + 1 ≠ 2 ^ lowBit j ∧ treePrefix g n leaf 8 (j - 2 ^ lowBit j) = some x ∧ treeBlock g n leaf j = some y ∧
    (g (n - 1 + j) x y).2.getLsbD b = true

/-- R50, R117, R128, R129: what a node of a floating reduction or scan makes of its inputs: a sum rounded in the instruction's mode under
L, its number; the smaller or the greater, which does not round. -/
def floatNode (f : Fields) (s : State) (op l x y : Nat) : Nat × Flags :=
  let F := strandFmt s.me f.fmt.toNat
  let mode := resolveMode s.me.status f.rm
  let a := readFloat F x
  let b := readFloat F y
  if op = 0 then deliver F mode f.s (if mode = 5 then draw s.me.seed s.me.srcnt l else 0) (addVal mode a b)
  else deliver F 0 false 0 (if a.isNan || b.isNan then .nan else if op = 1 then (if lessVal a b then a else b) else if lessVal a b then b else a)

/-- R128: what an absent floating root or prefix delivers. -/
def floatAbsent (f : Fields) (s : State) (op : Nat) : Nat :=
  let F := strandFmt s.me f.fmt.toNat
  if op = 0 then 0 else if op = 1 then F.maxFin + 1 else F.maxFin + 1 + 2 ^ (F.width - 1)

/-- R35, R127, R128: what a floating root or prefix delivers: the default NaN for a NaN (log 17), what is absent as R128 says. -/
def floatRoot (f : Fields) (s : State) (op : Nat) : Option Nat → Nat
  | some x => if (readFloat (strandFmt s.me f.fmt.toNat) x).isNan then (strandFmt s.me f.fmt.toNat).nanBits else x
  | none => floatAbsent f s op

/-- R127: the leaves: the active elements. -/
def floatLeaf (f : Fields) (s : State) (j : Nat) : Option Nat :=
  if elemActive (fmtWidth f.fmt.toNat) (laneMask s.me f) j then some (operand s (fmtWidth f.fmt.toNat) f.a.toNat j) else none

/-- R35: an active element that is a NaN raises NV, bit 0, whatever combines it. -/
def LeafFlag (f : Fields) (s : State) (k : Nat) : Prop :=
  k = 0 ∧ ∃ j x, j < 2048 / fmtWidth f.fmt.toNat ∧ floatLeaf f s j = some x ∧ (readFloat (strandFmt s.me f.fmt.toNat) x).isNan = true

/-- R35, R50, R127, R128: reductions over the active elements, in every element of the destination: integer ones, and floating ones through
the tree. -/
def vectorReductionsRules : Prop :=
  ∀ (f : Fields) (s : State),
    let c := f.fmt.toNat
    let b := fmtWidth c
    let n := 2048 / b
    let act := (List.range n).filter fun j => elemActive b (laneMask s.me f) j
    let xs := act.map fun j => intAt s f f.a.toNat j
    let ps := act.map fun j => operand s b f.a.toNat j
    let red (i : Instr) (v : Int) : Prop := Ready i s → PortsReady s [f.a.toNat] (some f.d.toNat) →
      ∃ d, exec i s = .next (s.retire (writeVP (popPorts s.me [f.a.toNat]) f.d.toNat d) f) ∧
        ∀ j, j < n → elemAt b d j = deliverInt c f.s v
    let runs (i : Instr) (op mode : Nat) : Prop := Ready i s → PortsReady s [f.a.toNat] (some f.d.toNat) → (op = 0 ∨ f.s = false) →
      ∃ (d : VReg) (fl : Flags), exec i s = .next (s.retire
          (countSr (raise (writeVP (popPorts s.me [f.a.toNat]) f.d.toNat d) fl) mode) f) ∧
        (∀ j, j < n → elemAt b d j =
          floatRoot f s op (treeNode (floatNode f s op) n (floatLeaf f s) (Nat.log2 n) 0) % 2 ^ b) ∧
        ∀ k, fl.getLsbD k = true ↔ NodeFlag (floatNode f s op) n (floatLeaf f s) k ∨ LeafFlag f s k
    (c ∈ [2, 3, 4, 5] →
      red (.vRedAdd f) xs.sum ∧
      red (.vRedMin f) (xs.foldl min (intMax (fmtSigned c) b)) ∧ red (.vRedMax f) (xs.foldl max (intMin (fmtSigned c) b)) ∧
      (f.s = false → red (.vRedAnd f) (ps.foldl (fun p q => p &&& q) (2 ^ b - 1) : Nat) ∧
        red (.vRedOr f) (ps.foldl (fun p q => p ||| q) 0 : Nat) ∧ red (.vRedXor f) (ps.foldl (fun p q => p ^^^ q) 0 : Nat))) ∧
    (c ∈ [10, 11, 12] →
      runs (.vRedAdd f) 0 (resolveMode s.me.status f.rm) ∧ runs (.vRedMin f) 1 0 ∧ runs (.vRedMax f) 2 0)

/-- R129: an integer scan gives each active element the combination of the active elements up to it, or before it; a floating one takes
the prefix that the shared tree nodes give. -/
def vectorScansRules : Prop :=
  ∀ (f : Fields) (s : State),
    let c := f.fmt.toNat
    let b := fmtWidth c
    let n := 2048 / b
    let xs (k : Nat) := ((List.range k).filter fun j => elemActive b (laneMask s.me f) j).map fun j => intAt s f f.a.toNat j
    let least := intMin (fmtSigned c) b
    let most := intMax (fmtSigned c) b
    let scan (i : Instr) (g : Nat → Int) : Prop := c ∈ [2, 3, 4, 5] → Ready i s → PortsReady s [f.a.toNat] (some f.d.toNat) →
      Elementwise i f s [f.a.toNat] 0 b fun j => (deliverInt c f.s (g j), 0)
    let runs (i : Instr) (op : Nat) (exclusive : Bool) (mode : Nat) : Prop := c ∈ [10, 11, 12] → Ready i s →
      PortsReady s [f.a.toNat] (some f.d.toNat) →
      let g := floatNode f s op
      let leaf := floatLeaf f s
      ∃ (d : VReg) (fl : Flags), exec i s = .next (s.retire
          (countSr (raise (writeVP (popPorts s.me [f.a.toNat]) f.d.toNat d) fl) mode) f) ∧
        Merged b d (readDst s.me f.d.toNat) (elemActive b (laneMask s.me f)) f.zm (fun j =>
          floatRoot f s op (if exclusive then (if j = 0 then none else treePrefix g n leaf 8 (j - 1)) else treePrefix g n leaf 8 j)) ∧
        ∀ k, fl.getLsbD k = true ↔ NodeFlag g n leaf k ∨ PrefixFlag g n leaf k ∨ LeafFlag f s k
    scan (.vScanAdd f) (fun j => (xs (j + 1)).sum) ∧ scan (.vScanXadd f) (fun j => (xs j).sum) ∧
    scan (.vScanMin f) (fun j => (xs (j + 1)).foldl min most) ∧ scan (.vScanXmin f) (fun j => (xs j).foldl min most) ∧
    scan (.vScanMax f) (fun j => (xs (j + 1)).foldl max least) ∧ scan (.vScanXmax f) (fun j => (xs j).foldl max least) ∧
    runs (.vScanAdd f) 0 false (resolveMode s.me.status f.rm) ∧ runs (.vScanXadd f) 0 true (resolveMode s.me.status f.rm) ∧
    runs (.vScanMin f) 1 false 0 ∧ runs (.vScanXmin f) 1 true 0 ∧ runs (.vScanMax f) 2 false 0 ∧ runs (.vScanXmax f) 2 true 0

/-- R136 to R138, R143 to R145: an array operation that is not held and whose slots its strand owns joins the queue with the next TLM
number; it takes with it what the strand's STATUS, SEED and SRCNT are at issue, and SRCNT counts sr. -/
def arrayIssueRules : Prop :=
  ∀ (f : Fields) (s : State),
    let r := s.me
    let mode := resolveMode r.status f.rm
    let fmode := if isFloatFmt f.fmt.toNat then mode else 0
    let v := f.ext.imm64Nat
    let idx := (readX r f.b.toNat + immOf f).toNat % 256
    let free (k : ArrayKind) : Prop := s.arrayHeld k = false ∧ s.unclaimed k.slots = none
    let queues (i : Instr) (k : ArrayKind) (m : Nat) : Prop := free k → exec i s = .next (s.pushArray (countSr r m) f
      { slot := 0, num := 0, kind := k, mode := m, sat := f.s, fmode := statusFmode r.status, seed := r.seed, srcnt := r.srcnt })
    queues (.mMma f) (matrixKind 0 f) fmode ∧ queues (.mMms f) (matrixKind 1 f) fmode ∧
    ((∀ o ∈ (s.tile s.myTile).array, ∀ c a, o.kind ≠ .compress c (natBits v 5 3) a) →
      badScale (s.tile s.myTile) (natBits v 5 3) (natBits v 14 13) (natBits v 15 15 + 1) = none → queues (.mMmt f) (matrixKind 2 f) mode) ∧
    queues (.mCmp f) (.compress f.fmt.toNat f.d.toNat f.a.toNat) 0 ∧ queues (.mZero f) (.zero f.d.toNat) 0 ∧
    (Ready (.mWr f) s → PortsReady s [f.a.toNat] none → s.arrayHeld (.zero 0) = false → s.badWords = [] →
      exec (.mWr f) s = .next (s.pushArray (popPorts r [f.a.toNat]) f
        { slot := 0, num := 0, kind := .write f.d.toNat idx (readVP r f.a.toNat) })) ∧
    (∀ (r' : Strand) (o : ArrayOp),
      let u := s.pushArray r' f o
      (∃ a, u.me.tlm.last = r'.tlm.last + 1 ∧ { num := r'.tlm.last + 1, state := 1 } ∈ u.me.tlm.recs ∧
        (CanonicalTiles s → (u.tile s.myTile).array = (s.tile s.myTile).array ++ [a]) ∧
        a = { o with slot := s.mySlot, num := r'.tlm.last + 1 }))

/-- R136, R137, R143: an array operation that names a slot its strand does not own takes the unclaimed-slot fault with the lowest such
slot; a trellis scale of 255 in a claimed slot is the trellis-scale fault with the lowest such byte's place. -/
def arrayFaultsRules : Prop :=
  ∀ (f : Fields) (s : State) (n : Nat),
    let v := f.ext.imm64Nat
    let quiet := ∀ o ∈ (s.tile s.myTile).array, ∀ c a, o.kind ≠ .compress c (natBits v 5 3) a
    let cmp : ArrayKind := .compress f.fmt.toNat f.d.toNat f.a.toNat
    (s.arrayHeld cmp = false → s.unclaimed [f.d.toNat, f.a.toNat] = some n →
      exec (.mCmp f) s = .next (s.takeTrap 15 0 (BitVec.ofNat 64 n))) ∧
    (¬ quiet → exec (.mMmt f) s = .next s) ∧
    (s.arrayHeld (matrixKind 0 f) = false → s.unclaimed (matrixKind 0 f).slots = some n →
      exec (.mMma f) s = .next (s.takeTrap 15 0 (BitVec.ofNat 64 n))) ∧
    (s.arrayHeld (matrixKind 1 f) = false → s.unclaimed (matrixKind 1 f).slots = some n →
      exec (.mMms f) s = .next (s.takeTrap 15 0 (BitVec.ofNat 64 n))) ∧
    (quiet → s.arrayHeld (matrixKind 2 f) = false → s.unclaimed (matrixKind 2 f).slots = some n →
      exec (.mMmt f) s = .next (s.takeTrap 15 0 (BitVec.ofNat 64 n))) ∧
    (quiet → s.arrayHeld (matrixKind 2 f) = false → s.unclaimed (matrixKind 2 f).slots = none →
      badScale (s.tile s.myTile) (natBits v 5 3) (natBits v 14 13) (natBits v 15 15 + 1) = some n →
      exec (.mMmt f) s = .next (s.takeTrap 14 0 (BitVec.ofNat 64 (natBits v 5 3 * 2 ^ 14 + n)))) ∧
    (s.unclaimed (matrixKind 0 f).slots = some n → n < 8 ∧ n ∈ (matrixKind 0 f).slots ∧
      (slotAt (s.tile s.myTile) n).owner ≠ some s.mySlot ∧
      ∀ k, k < n → k ∈ (matrixKind 0 f).slots → (slotAt (s.tile s.myTile) k).owner = some s.mySlot)


/-- R49: the exact sum of a group's products; a zero sum is +0. -/
def exactTotal (products : List FVal) : FVal :=
  let x := products.foldl (addVal 0) (.fin false 0 0 false)
  if x.isZero then .fin false 0 0 false else x

/-- R141, R143: the offsets, in elements, in slots A and B of the products of group g of a dense or a 2:4 form. -/
def groupOffsets (t : Tile) (form ob k row col g : Nat) : List (Nat × Nat) :=
  if form = 1 then (List.range 8).flatMap fun j =>
    let q := 8 * g + j
    let n := (slotByte t ob (8192 + (q * 128 + col) / 2)).toNat / 16 ^ ((q * 128 + col) % 2) % 16
    [(row * k + 4 * q + n % 4, 2 * q * 128 + col), (row * k + 4 * q + n / 4, (2 * q + 1) * 128 + col)]
  else (List.range 32).map fun j => (row * k + 32 * g + j, (32 * g + j) * 128 + col)

/-- R49, R141, R143: what `m.mma`, `m.mms` and `m.mmt` leave in an element of their bank: group after group, the exact sum of its products
is added to the element and rounded, or wrapped or saturated to i32; integer forms raise no flag. -/
def matrixProductRules : Prop :=
  ∀ (s : State) (o : ArrayOp) (rest : List ArrayOp) (form fa fb oa ob cb : Nat) (clr : Bool) (ts tv : Nat),
    CanonicalTiles s → s.badWords = [] →
    let t := s.tile s.arg.tile
    t.array = o :: rest → t.arrayDue ≤ s.cycle → o.kind = .multiply form fa fb oa ob cb clr ts tv → form < 3 → cb < 2 →
    (form = 2 → fmtWidth fa = 8 ∧ isFloatFmt fa = true) → (isFloatFmt fa = false → fa < 2 ∧ fb < 2) → fmtWidth fa = 8 ∨ fmtWidth fa = 16 → fmtWidth fb = fmtWidth fa ∨ form = 2 →
    let k := if fmtWidth fa = 16 then 64 else 128
    let bits (slot c off : Nat) : Nat := if fmtWidth c = 16 then
        (slotByte t slot (2 * off)).toNat + 256 * (slotByte t slot (2 * off + 1)).toNat else (slotByte t slot off).toNat
    let F := ffmt 10 false
    let sum (row col g : Nat) : FVal :=
      if form = 2 then
        let block := col / 2 * blockBytes ts tv
        let stream := bytesToNat (slotBytes t ob block (streamBytes ts tv))
        let e := (slotByte t ob (block + streamBytes ts tv + col % 2 * 4 + g)).toNat
        match exactTotal ((List.range 32).map fun j => mulVal (readFmt fa o.fmode (bits oa fa (row * k + 32 * g + j)))
          (intVal (if e = 0 then 0 else weightValue stream ts tv (col % 2 * 128 + 32 * g + j)))) with
        | .fin neg m x left => .fin neg m (x + ((e : Int) - 135)) left
        | y => y
      else exactTotal ((groupOffsets t form ob k row col g).map fun p =>
        mulVal (readFmt fa o.fmode (bits oa fa p.1)) (readFmt fb o.fmode (bits ob fb p.2)))
    ∃ u, exec .arrayOperationComplete s = .next u ∧ (isFloatFmt fa = false → (runArray t o).2 = 0) ∧
      ∀ row col, row < 128 → col < 128 →
        let old := if clr then 0 else (bankAt t cb row col).toNat
        bankAt (u.tile s.arg.tile) (1 - cb) row col = bankAt t (1 - cb) row col ∧
        (isFloatFmt fa = true → bankAt (u.tile s.arg.tile) cb row col = BitVec.ofNat 32 ((List.range (k / 32)).foldl (fun acc g =>
          (deliver F o.mode o.sat (if o.mode = 5 then draw o.seed o.srcnt (row * 128 + col + 16384 * g) else 0)
            (addVal o.mode (readFloat F acc) (sum row col g))).1) old)) ∧
        (isFloatFmt fa = false → bankAt (u.tile s.arg.tile) cb row col = BitVec.ofNat 32 ((List.range 4).foldl (fun acc g =>
          deliverInt 4 o.sat (readInt true 32 acc + ((groupOffsets t form ob k row col g).map fun p =>
            readFmtInt fa (slotByte t oa p.1).toNat * readFmtInt fb (slotByte t ob p.2).toNat).sum)) old))

/-- R144: the magnitude by which `m.cmp` ranks an element: NaN above infinity above every finite one. -/
def magnitude (c : Nat) (fmode : Bool) (b : Byte) : ℚ :=
  if isFloatFmt c then
    match readFmt c fmode b.toNat with
    | .nan => 2 ^ 40
    | .inf _ => 2 ^ 39
    | x => |realOf x|
  else |(readFmtInt c b.toNat : ℚ)|

/-- R141, R144: what `m.cmp` leaves in its slot: of each quad of a column the two elements of greatest rank, the lower index winning a
tie, with their indices; the rest of the slot is zero. -/
def compressRules : Prop :=
  ∀ (s : State) (o : ArrayOp) (rest : List ArrayOp) (c d a : Nat), CanonicalTiles s → s.badWords = [] →
    let t := s.tile s.arg.tile
    t.array = o :: rest → t.arrayDue ≤ s.cycle → o.kind = .compress c d a → c ∈ [0, 1, 13, 14] → d < 8 → a < 8 →
    ∃ u, exec .arrayOperationComplete s = .next u ∧ (runArray t o).2 = 0 ∧
      (∀ n off, n ≠ d → slotByte (u.tile s.arg.tile) n off = slotByte t n off) ∧
      (∀ b row col, bankAt (u.tile s.arg.tile) b row col = bankAt t b row col) ∧
      (∀ off, 10240 ≤ off → slotByte (u.tile s.arg.tile) d off = 0) ∧
      ∀ q col, q < 32 → col < 128 →
        let item (i : Nat) : Byte := slotByte t a ((4 * q + i) * 128 + col)
        let rank (i : Nat) : ℚ := magnitude c o.fmode (item i)
        let n := q * 128 + col
        ∃ i j, i < j ∧ j < 4 ∧
          (∀ k, k < 4 → k ≠ i → k ≠ j → ∀ w, w = i ∨ w = j → rank k < rank w ∨ (rank k = rank w ∧ w < k)) ∧
          slotByte (u.tile s.arg.tile) d (2 * q * 128 + col) = item i ∧ slotByte (u.tile s.arg.tile) d ((2 * q + 1) * 128 + col) = item j ∧
          (slotByte (u.tile s.arg.tile) d (8192 + n / 2)).toNat / 16 ^ (n % 2) % 16 = i + 4 * j

/-! Memory accesses. -/

/-- R21, R161: a memory instruction that neither a pending register nor an outstanding acquire holds. -/
abbrev MemReady (i : Instr) (s : State) : Prop := Ready i s ∧ acquireHeld s.me = false

/-- R212, R213: the launch at hand lies within the package. -/
abbrev FieldPlaced (s : State) : Prop :=
  let l := s.launchOf s.myTile
  l.ox + l.w ≤ 32 ∧ l.oy + l.h ≤ 32

/-- R87: the address of a memory operand without a handle, with its x[B] term or without. -/
def localAddr (s : State) (f : Fields) : Nat := (readX s.me f.a.toNat + readX s.me f.b.toNat + displacement f).toNat % 2 ^ 32
def localBase (s : State) (f : Fields) : Nat := (readX s.me f.a.toNat + displacement f).toNat % 2 ^ 32

/-- R87: the handle that a memory operand with H = 1 names: an immediate, or x[C] below 65,536. -/
def handleOf (s : State) (f : Fields) : Option Nat :=
  if f.hi then some (immHandle f)
  else if (readX s.me f.c.toNat).toNat < 65536 then some (readX s.me f.c.toNat).toNat else none

/-- R87: the offset under a handle. -/
def handleOffset (s : State) (f : Fields) : Nat := (readX s.me f.a.toNat + readX s.me f.b.toNat + displacement f).toNat % 2 ^ 48

/-- R152, R155, R358: `z` bytes at an address pass every check, and lie in the issuing tile's own store at an offset. -/
abbrev OwnBytes (s : State) (a z o : Nat) : Prop :=
  s.localTarget s.myTile a z = .ok (s.myTile, o) ∧ a % z = 0 ∧ badIn s.badWords (localPa s.myTile o) z = none

/-- The strand after a memory instruction of its own: past it, with no walk left over. -/
def after (s : State) (r : Strand) (f : Fields) : Strand := { r with walk := none, pc := nextPc r f, issuedAt := s.cycle + 1 }

/-- The bytes of a place of the own store as a number, little-endian (R4). -/
def ownNumber (s : State) (o n : Nat) : Nat := bytesToNat (readBytes (s.tile s.myTile).store o n)

/-- Every byte outside the given ones of the own store reads as before. -/
def OnlyOwnBytes (s u : State) (stored : Nat → Prop) : Prop :=
  ∀ m c, (m = .store s.myTile → ¬ stored c) → readCell u m c = readCell s m c

/-- R157: scalar loads and stores of the own store. -/
def ownScalarRules : Prop :=
  ∀ (f : Fields) (s : State) (o : Nat), CanonicalTiles s → FieldPlaced s → f.h = false →
    f.fmt.toNat ∈ [0, 1, 2, 3, 4, 5, 6, 7, 10, 11, 12, 16] →
    let z := fmtWidth f.fmt.toNat / 8
    let byte (t : State) (j : Nat) := readCell t (.store s.myTile) (o + j)
    OwnBytes s (localAddr s f) z o →
    (MemReady (.ld f) s → ∃ v : Word, exec (.ld f) s = .next (s.setMe (after s (writeX s.me f.d.toNat v) f)) ∧
      ∀ j, j < 64 → v.getLsbD j = if j < 8 * z then (byte s (j / 8)).getLsbD (j % 8)
        else decide (f.fmt.toNat = 0 ∨ f.fmt.toNat = 2 ∨ f.fmt.toNat = 4) && (byte s (z - 1)).getLsbD 7) ∧
    (MemReady (.st f) s → ∃ u, exec (.st f) s = .next u ∧ u.me = after s s.me f ∧
      (∀ j, j < z → byte u j = (readX s.me f.d.toNat).extractLsb' (8 * j) 8) ∧ OnlyOwnBytes s u (fun c => o ≤ c ∧ c < o + z))

/-- R158, R159: vector loads and stores whose every active lane lies in the own store. Of two lanes stored to one address the higher
lane's value remains. That the value of `v.sct` may come from a port is the model's choice (log 27). -/
def ownVectorRules : Prop :=
  ∀ (f : Fields) (s : State) (o : Nat → Nat), CanonicalTiles s → FieldPlaced s → f.h = false →
    let m := laneMask s.me f
    let near (j : Nat) : Nat := (localAddr s f + 4 * j) % 2 ^ 32
    let off (j : Nat) : Int := readInt true 32 (elemAt 32 (readV s.me f.b.toNat) j)
    let far (j : Nat) : Nat := (((localBase s f : Int) + off j) % 2 ^ 32).toNat
    let loads (i : Instr) (lane : Nat → Nat) : Prop := MemReady i s → (∀ j, j < 64 → m.getLsbD j = true → OwnBytes s (lane j) 4 (o j)) →
      ∃ v, exec i s = .next (s.setMe (after s (writeV s.me f.d.toNat v) f)) ∧
        ∀ j, j < 64 → elemAt 32 v j =
          if m.getLsbD j then ownNumber s (o j) 4 else if f.zm then 0 else elemAt 32 (readV s.me f.d.toNat) j
    let stores (i : Instr) (lane : Nat → Nat) : Prop := MemReady i s → PortsReady s [f.d.toNat] none →
      (∀ j, j < 64 → OwnBytes s (lane j) 4 (o j)) →
      ∃ u, exec i s = .next u ∧ u.me = after s (popPorts s.me [f.d.toNat]) f ∧
        (∀ j, j < 64 → (∀ k, j < k → k < 64 → o k ≠ o j) →
          bytesToNat (readBytes (u.tile s.myTile).store (o j) 4) = operand s 32 f.d.toNat j) ∧
        OnlyOwnBytes s u (fun c => ∃ j, j < 64 ∧ o j ≤ c ∧ c < o j + 4)
    loads (.vLd f) near ∧ loads (.vGat f) far ∧ stores (.vSt f) near ∧ stores (.vSct f) far

/-- R152: where a local-store address goes, and which fault it raises. That the bounds fault comes before the rights fault of the race ring, where an
access both leaves scratch and touches the ring, is the model's choice (log 54). -/
def regionRules : Prop :=
  ∀ (s : State) (tile a z : Nat), 0 < z → a < 2 ^ 32 →
    let t := s.tile tile
    let l := s.launchOf tile
    let o := a % 2 ^ 20
    let bad := BitVec.ofNat 64 a
    let x := a / 2 ^ 20 % 32
    let y := a / 2 ^ 25 % 32
    let within (p : Nat) : Except TrapInfo (Nat × Nat) :=
      if o < t.xb then .error (7, 0, bad)
      else if t.xb + t.scr < o + z then .error (6, 0, bad)
      else if t.race = true ∧ t.xb + t.scr - 4096 < o + z then .error (7, 0, bad)
      else .ok (p, o)
    s.localTarget tile a z =
      if a < 2 ^ 20 then within tile
      else if 2 ^ 30 ≤ a ∧ a < 2 ^ 31 ∧ x < l.w ∧ y < l.h then within (tileAt (l.ox + x) (l.oy + y))
      else .error (6, 0, bad)

/-- R155: what a scalar access whose checks fail comes to: alignment first, then the region. No register and no memory changes but by
the trap. -/
def localFaultRules : Prop :=
  ∀ (f : Fields) (s : State), f.h = false →
    let z := fmtWidth f.fmt.toNat / 8
    let a := localAddr s f
    let fails (i : Instr) : Prop := MemReady i s →
      (a % z ≠ 0 → exec i s = .next (s.takeTrap 5 0 (BitVec.ofNat 64 a))) ∧
      (∀ code info bad, a % z = 0 → s.localTarget s.myTile a z = .error (code, info, bad) →
        exec i s = .next (s.takeTrap code info bad))
    (longRoom s.me true = true → fails (.ld f)) ∧ fails (.st f)

/-- R87: the offset of an atomic under a handle. -/
def handleBase (s : State) (f : Fields) : Nat := (readX s.me f.a.toNat + displacement f).toNat % 2 ^ 48

/-- The atomics that have one operand and one old value. -/
def singleAtomics (f : Fields) : List Instr :=
  [.atAdd f, .atAnd f, .atOr f, .atXor f, .atMin f, .atMax f, .atSwp f, .atCas f, .atFadd f]

/-- R358, R361: what the look-up of a handle reads in memory is no uncorrectable data. -/
abbrev SoundEntry (s : State) (n : Nat) : Prop := s.entryLost s.myTile n = none

/-- R153, R155, R304 to R309: an access through a handle: a register with high bits, alignment, validity and bounds, rights and space,
translation. That an uncorrectable entry freezes the strand before them is the model's choice (log 40). -/
def handleFaultRules : Prop :=
  ∀ (f : Fields) (s : State), f.h = true →
    let v := readX s.me f.c.toNat
    let faults (i : Instr) (off z : Nat) (rd wr : Bool) : Prop := MemReady i s →
      (f.hi = false → 65536 ≤ v.toNat → off % z = 0 → exec i s = .next (s.takeTrap 6 0 v)) ∧
      (∀ n kind a, handleOf s f = some n → s.entryLost s.myTile n = some (kind, a) → exec i s = .next (s.freeze s.cur kind a)) ∧
      (∀ n, handleOf s f = some n → SoundEntry s n →
        let e := s.entryOf s.myTile n
        let u := s.useHandle s.myTile n
        let l := s.launchOf s.myTile
        (off % z ≠ 0 → exec i s = .next (u.takeTrap 5 0 (BitVec.ofNat 64 off))) ∧
        (off % z = 0 → entryValid e = false ∨ entryLen e < off + z → exec i s = .next (u.takeTrap 6 0 (BitVec.ofNat 64 off))) ∧
        (off % z = 0 → entryValid e = true → off + z ≤ entryLen e →
          ((rd = true ∧ entryRd e = false) ∨ (wr = true ∧ entryWr e = false) ∨ entrySpace e = 1 ∨ (entrySpace e = 3 ∧ wr = true) ∨
              (2 ≤ entrySpace e ∧ (s.vf l.vf).fabric = 0) → exec i s = .next (u.takeTrap 7 0 (BitVec.ofNat 64 off))) ∧
          ((rd = true → entryRd e = true) → (wr = true → entryWr e = true) → entrySpace e = 0 →
            s.translate s.myTile l.tag (entryVa e off) rd wr = .fault → exec i s = .next (u.takeTrap 8 n (BitVec.ofNat 64 (entryVa e off))))))
    let z := fmtWidth f.fmt.toNat / 8
    faults (.st f) (handleOffset s f) z false true ∧ (longRoom s.me false = true → faults (.ld f) (handleOffset s f) z true false) ∧
    (longRoom s.me true = true → (∀ i ∈ singleAtomics f, faults i (handleBase s f) z true true) ∧ faults (.atCas2 f) (handleBase s f) 16 true true)

/-- The outstanding operation of a load or an atomic that one message will answer. -/
def asked (s : State) (f : Fields) (o : LongOp) : LongOp := { o with id := s.fresh, dest := destX f, waiting := 1, finish := .scalar f.fmt.toNat }

/-- R160, R163, R242, R323: a scalar access of another tile's store is one message to that tile; a store is counted until it is
acknowledged, a load keeps its register pending. Where the spill queue of the tile is full it is held. -/
def remoteTileRules : Prop :=
  ∀ (f : Fields) (s : State) (p o : Nat), CanonicalTiles s → FieldPlaced s → f.h = false →
    let z := fmtWidth f.fmt.toNat / 8
    let a := localAddr s f
    let cover := coverOf s.myTile (.tile p)
    s.localTarget s.myTile a z = .ok (p, o) → p ≠ s.myTile → a % z = 0 →
    (s.spillFull p = true → (MemReady (.ld f) s → longRoom s.me true = true → exec (.ld f) s = .next s) ∧
      (MemReady (.st f) s → exec (.st f) s = .next s)) ∧
    (s.spillFull p = false → MemReady (.ld f) s → longRoom s.me true = true → ∃ u, exec (.ld f) s = .next u ∧ SameMemory s u ∧
      u.me = after s { s.me with longs := s.me.longs ++ [asked s f { id := 0, dest := .none, remote := true, cover := cover }] } f ∧
      u.net = s.net ++ [{ id := s.fresh + 1, src := s.cur, home := .tile p, addr := o, body := .read s.fresh 0 z 0 1 }]) ∧
    (s.spillFull p = false → MemReady (.st f) s → ∃ u, exec (.st f) s = .next u ∧ SameMemory s u ∧
      u.me = after s { s.me with posted := s.me.posted ++ [{ id := s.fresh, addr := BitVec.ofNat 64 a, cover := cover }] } f ∧
      u.net = s.net ++ [{ id := s.fresh, src := s.cur, home := .tile p, addr := o,
                          body := .write s.fresh 0 (natToBytes z (readX s.me f.d.toNat).toNat) }])

/-- R153, R309, R340: the same through a handle that is not cacheable, to device memory and to another device: there the address names the
context and the virtual address in it (the form of that number is log 13). An access that crosses into the next 64-KiB page, as an unaligned base
makes it (R308), is one message too, which names where its bytes go on (R242; log 58). -/
def remoteHandleRules : Prop :=
  ∀ (f : Fields) (s : State) (n pa : Nat) (leaf : Option Nat), CanonicalTiles s → f.h = true → handleOf s f = some n →
    SoundEntry s n →
    let z := fmtWidth f.fmt.toNat / 8
    let e := s.entryOf s.myTile n
    let l := s.launchOf s.myTile
    let off := handleOffset s f
    let va := entryVa e off
    let m := (fabricTarget (s.vf l.vf) (entryTarget e)).getD 0
    let dev := (m.extractLsb' 32 16).toNat
    let far := ((m.extractLsb' 5 7).toNat * 8 + (m.extractLsb' 2 3).toNat) * 2 ^ 49 + va
    let bytes := natToBytes z (readX s.me f.d.toNat).toNat
    off % z = 0 → entryCached e = false →
    (∀ pa₂ leaf₂, let n := 65536 - va % 65536
      n < z → entrySpace e = 0 → va + z < 2 ^ 49 →
      let one (u : State) (m : Msg) : Prop := SameMemory s u ∧ u.me.pc = nextPc s.me f ∧ u.net = s.net ++ [m] ∧
        m.src = s.cur ∧ m.home = .channel (pa / 0xA0000000) ∧ m.addr = pa ∧ m.va = va ∧ m.tag = some l.tag ∧ m.leaf = leaf ∧
        m.cut = some (n, { home := .channel (pa₂ / 0xA0000000), addr := pa₂, va := va + n, leaf := leaf₂, page := s.pageBits s.myTile l.tag (va + n) })
      (s.translate s.myTile l.tag va true false = .page pa leaf → s.translate s.myTile l.tag (va + n) true false = .page pa₂ leaf₂ →
        MemReady (.ld f) s → longRoom s.me false = true → entryTrap (s.vf l.vf) e off z .load = none →
        ∃ u m, exec (.ld f) s = .next u ∧ one u m ∧ m.body = .read s.fresh 0 z 0 1) ∧
      (s.translate s.myTile l.tag va false true = .page pa leaf → s.translate s.myTile l.tag (va + n) false true = .page pa₂ leaf₂ →
        MemReady (.st f) s → entryTrap (s.vf l.vf) e off z .store = none →
        ∃ u m, exec (.st f) s = .next u ∧ one u m ∧ m.body = .write s.fresh 0 bytes)) ∧
    (va % 65536 + z ≤ 65536 →
    (MemReady (.ld f) s → longRoom s.me false = true → entryTrap (s.vf l.vf) e off z .load = none →
      (entrySpace e = 0 → s.translate s.myTile l.tag va true false = .page pa leaf → ∃ u, exec (.ld f) s = .next u ∧ SameMemory s u ∧
        u.me = after s { s.me with longs := s.me.longs ++ [asked s f { id := 0, dest := .none, cover := 3 }] } f ∧
        u.net = s.net ++ [{ id := s.fresh + 1, src := s.cur, home := .channel (pa / 0xA0000000), addr := pa, va := va, tag := some l.tag,
                            leaf := leaf, page := s.pageBits s.myTile l.tag va, body := .read s.fresh 0 z 0 1 }]) ∧
      (entrySpace e = 2 → dev ≠ s.linkId.toNat → ∃ u, exec (.ld f) s = .next u ∧ SameMemory s u ∧
        u.me = after s { s.me with longs := s.me.longs ++ [asked s f { id := 0, dest := .none, cover := 4 }] } f ∧
        u.net = s.net ++ [{ id := s.fresh + 1, src := s.cur, home := .fabric dev, addr := far, va := va, body := .read s.fresh 0 z 0 1 }])) ∧
    (MemReady (.st f) s → entryTrap (s.vf l.vf) e off z .store = none →
      (entrySpace e = 0 → s.translate s.myTile l.tag va false true = .page pa leaf → ∃ u, exec (.st f) s = .next u ∧ SameMemory s u ∧
        u.me = after s { s.me with posted := s.me.posted ++ [{ id := s.fresh, addr := BitVec.ofNat 64 off, cover := 3 }] } f ∧
        u.net = s.net ++ [{ id := s.fresh, src := s.cur, home := .channel (pa / 0xA0000000), addr := pa, va := va, tag := some l.tag,
                            leaf := leaf, page := s.pageBits s.myTile l.tag va, body := .write s.fresh 0 bytes }]) ∧
      (entrySpace e = 2 → dev ≠ s.linkId.toNat → ∃ u, exec (.st f) s = .next u ∧ SameMemory s u ∧
        u.me = after s { s.me with posted := s.me.posted ++ [{ id := s.fresh, addr := BitVec.ofNat 64 off, cover := 4 }] } f ∧
        u.net = s.net ++ [{ id := s.fresh, src := s.cur, home := .fabric dev, addr := far, va := va, body := .write s.fresh 0 bytes }])))

/-- R21, R22, R310: a page that the tile's translation cache does not hold is walked first: the strand waits at the same instruction; where the
cluster's cache does not hold it either, it joins the walk of the page under way on its die, or the shortest of the die's sixteen queues. -/
def walkRules : Prop :=
  ∀ (f : Fields) (s : State) (n : Nat), CanonicalTiles s → f.h = true → handleOf s f = some n → SoundEntry s n → s.me.walk = none →
    let e := s.entryOf s.myTile n
    let l := s.launchOf s.myTile
    let waits (i : Instr) (off z : Nat) (rd wr : Bool) (need : Need) : Prop := MemReady i s → off % z = 0 →
      entryTrap (s.vf l.vf) e off z need = none → entrySpace e = 0 → s.translate s.myTile l.tag (entryVa e off) rd wr = .miss →
      ∃ u w, exec i s = .next u ∧ SameMemory s u ∧ u.net = s.net ∧ u.me = { s.me with walk := some w } ∧
        w.tag = l.tag ∧ w.va = entryVa e off ∧ w.failed = false ∧
        let there := s.walksOf (dieOf s.myTile)
        let joins (v : Walk) : Prop := v ∈ there ∧ v.tag = w.tag ∧ v.pool = false ∧ s.samePage w.tag v.va w.va = true
        ((s.tlbHit (s.cluster (clusterOf s.myTile)).tlb l.tag (entryVa e off)).isSome = true → w.walker = none) ∧
        (s.tlbHit (s.cluster (clusterOf s.myTile)).tlb l.tag (entryVa e off) = none →
          ((∃ v, joins v) → ∃ v, joins v ∧ w.walker = v.walker ∧ w.stamp = v.stamp) ∧
          ((∀ v, ¬ joins v) → w.stamp = s.fresh ∧ ∃ k, w.walker = some k ∧ k < 16 ∧ ∀ j, j < 16 → queueLength there k ≤ queueLength there j))
    let z := fmtWidth f.fmt.toNat / 8
    waits (.st f) (handleOffset s f) z false true .store ∧ (longRoom s.me false = true → waits (.ld f) (handleOffset s f) z true false .load) ∧
    (longRoom s.me true = true → (∀ i ∈ singleAtomics f, waits i (handleBase s f) z true true .atomic) ∧
      waits (.atCas2 f) (handleBase s f) 16 true true .atomic)

/-- A line of the L1 without uncorrectable bytes, whose home is no alias of this device itself on the fabric (R340). -/
abbrev SoundLine (s : State) (l : L1Line) : Prop := l.bad = 0 ∧ l.home ≠ .fabric s.linkId.toNat

/-- R164: through a cacheable handle a store of a line that the L1 holds writes its bytes there, valid and dirty, and a load of valid
bytes takes them there; neither sends a message. A line whose page was withdrawn is written back, to be rejected, and a line of the new
page takes its place (R363). -/
def l1AccessRules : Prop :=
  ∀ (f : Fields) (s : State) (n pa : Nat) (leaf : Option Nat) (l : L1Line), CanonicalTiles s → f.h = true →
    handleOf s f = some n → SoundEntry s n →
    let z := fmtWidth f.fmt.toNat / 8
    let e := s.entryOf s.myTile n
    let tag := (s.launchOf s.myTile).tag
    let v := (s.vf (s.launchOf s.myTile).vf)
    let off := handleOffset s f
    let va := entryVa e off
    let i := va % 128
    off % z = 0 → entryCached e = true → 0 < (s.tile s.myTile).l1Lines → entrySpace e = 0 → i + z ≤ 128 →
    l1Find (s.tile s.myTile) tag va = some l →
    (MemReady (.ld f) s → longRoom s.me false = true → entryTrap v e off z .load = none →
      s.translate s.myTile tag va true false = .page pa leaf → (∀ j, j < z → l.valid.getLsbD (i + j) = true) → l.bad = 0 →
      ∃ u o, exec (.ld f) s = .next u ∧ SameMemory s u ∧ u.net = s.net ∧
        u.me = after s { s.me with longs := s.me.longs ++ [o] } f ∧ o.id = s.fresh ∧ o.dest = destX f ∧ o.waiting = 0 ∧ o.bad = none ∧
        ∀ j, j < z → o.data.extractLsb' (8 * j) 8 = l.data.extractLsb' (8 * (i + j)) 8) ∧
    (MemReady (.st f) s → entryTrap v e off z .store = none → s.translate s.myTile tag va false true = .page pa leaf → l.withdrawn = true →
      SoundLine s l → ∃ u k, exec (.st f) s = .next u ∧ SameMemory s u ∧ u.me.pc = nextPc s.me f ∧
        l1Find (u.tile s.myTile) tag va = some k ∧ k.withdrawn = false ∧ k.home = .channel (pa / 0xA0000000) ∧ k.pa = pa - i ∧
        (∀ j, j < 128 → k.valid.getLsbD j = decide (i ≤ j ∧ j < i + z) ∧ k.dirty.getLsbD j = decide (i ≤ j ∧ j < i + z)) ∧
        (∀ j, j < z → k.data.extractLsb' (8 * (i + j)) 8 = (readX s.me f.d.toNat).extractLsb' (8 * j) 8) ∧
        (l.dirty ≠ 0 → ∃ m p, m ∈ u.net ∧ m.home = l.home ∧ m.addr = l.pa ∧ m.withdrawn = true ∧ m.body = .writeback p l.data l.dirty)) ∧
    (MemReady (.st f) s → entryTrap v e off z .store = none → s.translate s.myTile tag va false true = .page pa leaf → l.withdrawn = false →
      ∃ u k, exec (.st f) s = .next u ∧ SameMemory s u ∧ u.net = s.net ∧ u.me = after s s.me f ∧
        l1Find (u.tile s.myTile) tag va = some k ∧ k.writer = s.mySlot ∧
        ∀ j, j < 128 →
          k.data.extractLsb' (8 * j) 8 =
            (if i ≤ j ∧ j < i + z then (readX s.me f.d.toNat).extractLsb' (8 * (j - i)) 8 else l.data.extractLsb' (8 * j) 8) ∧
          k.valid.getLsbD j = (l.valid.getLsbD j || decide (i ≤ j ∧ j < i + z)) ∧
          k.dirty.getLsbD j = (l.dirty.getLsbD j || decide (i ≤ j ∧ j < i + z)))

/-- R165: the forms that act on every line, and the line forms where they do nothing or drop a line. -/
def l1MaintenanceRules : Prop :=
  ∀ (f : Fields) (s : State) (n : Nat), CanonicalTiles s → (∀ l ∈ (s.tile s.myTile).l1, SoundLine s l) →
    let t := s.tile s.myTile
    let e := s.entryOf s.myTile n
    let tag := s.entryLineTag s.myTile e
    let off := handleOffset s f
    let hit (l : L1Line) : Bool := entryCached e && some l.tag == tag && l.line == entryVa e off / 128
    let done (i : Instr) (keeps : L1Line → Option L1Line) (posts : L1Line → Prop) : Prop := MemReady i s → ∃ u, exec i s = .next u ∧
      (u.tile s.myTile).l1 = t.l1.filterMap keeps ∧ SameMemory s u ∧ u.me.pc = nextPc s.me f ∧
      ∀ l, l ∈ t.l1 → posts l → l.dirty ≠ 0 → ∃ m p, m ∈ u.net ∧ m.src = s.cur ∧ m.home = l.home ∧ m.addr = l.pa ∧
        m.body = .writeback p l.data l.dirty
    let clean (l : L1Line) : L1Line := { l with dirty := 0 }
    done (.l1Wba f) (fun l => some (clean l)) (fun _ => True) ∧ done (.l1Inva f) (fun _ => none) (fun _ => False) ∧
    done (.l1Wbia f) (fun _ => none) (fun _ => True) ∧
    (f.h = true → handleOf s f = some n → SoundEntry s n →
      (entryValid e = false ∨ entryLen e < off + 1 →
        (MemReady (.l1Wb f) s → exec (.l1Wb f) s = .next ((s.useHandle s.myTile n).takeTrap 6 0 (BitVec.ofNat 64 off))) ∧
        (MemReady (.l1Inv f) s → exec (.l1Inv f) s = .next ((s.useHandle s.myTile n).takeTrap 6 0 (BitVec.ofNat 64 off))) ∧
        (MemReady (.l1Wbi f) s → exec (.l1Wbi f) s = .next ((s.useHandle s.myTile n).takeTrap 6 0 (BitVec.ofNat 64 off)))) ∧
      (entryValid e = true → off + 1 ≤ entryLen e →
        done (.l1Wb f) (fun l => if hit l then some (clean l) else some l) (fun l => hit l = true) ∧
        done (.l1Inv f) (fun l => if hit l then none else some l) (fun _ => False) ∧
        done (.l1Wbi f) (fun l => if hit l then none else some l) (fun l => hit l = true)))

/-- R161: an acquire of the own store is long class, and holds every later memory instruction; when its result is written, a scope of
1 to 4 drops the clean bytes of the tile's L1. -/
def acquireRules : Prop :=
  ∀ (f : Fields) (s : State) (o : Nat), CanonicalTiles s → FieldPlaced s → f.h = false →
    let z := fmtWidth f.fmt.toNat / 8
    OwnBytes s (localAddr s f) z o →
    (MemReady (.ldAcq f) s → longRoom s.me true = true → ∃ u op, exec (.ldAcq f) s = .next u ∧ SameMemory s u ∧ u.net = s.net ∧
      u.me = after s { s.me with longs := s.me.longs ++ [op] } f ∧ op.id = s.fresh ∧ op.dest = destX f ∧ op.waiting = 0 ∧
      op.acquire = some f.rm.toNat ∧ op.data.toNat = ownNumber s o z ∧ acquireHeld u.me = true) ∧
    (∀ (i : Instr) (g : Fields), acquireHeld s.me = true →
      i ∈ [.ld g, .st g, .vLd g, .vSt g, .vGat g, .vSct g, .ldAcq g, .stRel g, .stRelCmp g, .cp g, .qOpen g, .qClose g, .qFlush g,
           .l1Wb g, .l1Inv g, .l1Wbi g, .l1Wba g, .l1Inva g, .l1Wbia g, .atAdd g, .atAnd g, .atOr g, .atXor g, .atMin g, .atMax g,
           .atSwp g, .atCas g, .atFadd g, .atCas2 g] → exec i s = .next s)

/-- R167 to R170: what an atomic stores, by operation, from the old value and its operands. -/
def atomicValue (sub c : Nat) (old b k : Nat) : Nat :=
  let w := fmtWidth c
  match sub with
  | 0 => (old + b) % 2 ^ w
  | 1 => old &&& b % 2 ^ w
  | 2 => old ||| b % 2 ^ w
  | 3 => old ^^^ b % 2 ^ w
  | 4 => if readFmtInt c old < readFmtInt c (b % 2 ^ w) then old else b % 2 ^ w
  | 5 => if readFmtInt c old < readFmtInt c (b % 2 ^ w) then b % 2 ^ w else old
  | 6 => b % 2 ^ w
  | _ => if old = b % 2 ^ w then k % 2 ^ w else old

/-- R167 to R170: an atomic of the own store takes effect at its slot; the old value and the flags come back with its acknowledgment. -/
def ownAtomicRules : Prop :=
  ∀ (f : Fields) (s : State) (o : Nat), CanonicalTiles s → FieldPlaced s → f.h = false → longRoom s.me true = true →
    let z := fmtWidth f.fmt.toNat / 8
    let b := (readX s.me f.b.toNat).toNat
    let c := (readX s.me f.c.toNat).toNat
    let effect (i : Instr) (n : Nat) (new : Nat) (fl : Flags) (op : LongOp) : Prop := MemReady i s → OwnBytes s (localBase s f) n o →
      ∃ u, exec i s = .next u ∧ readBytes (u.tile s.myTile).store o n = natToBytes n new ∧ OnlyOwnBytes s u (fun k => o ≤ k ∧ k < o + n) ∧
        u.net = s.net ∧ u.me = after s { s.me with longs := s.me.longs ++
          [{ op with id := s.fresh, remote := true, atomic := true, cover := 0, data := BitVec.ofNat 2048 (ownNumber s o n), flags := fl }] } f
    let at_ (i : Instr) (sub : Nat) : Prop := f.fmt.toNat ∈ [4, 5, 6, 7] →
      effect i z (atomicValue sub f.fmt.toNat (ownNumber s o z) b c) 0 { id := 0, dest := destX f, finish := .scalar f.fmt.toNat }
    at_ (.atAdd f) 0 ∧ at_ (.atAnd f) 1 ∧ at_ (.atOr f) 2 ∧ at_ (.atXor f) 3 ∧ at_ (.atMin f) 4 ∧ at_ (.atMax f) 5 ∧
    at_ (.atSwp f) 6 ∧ at_ (.atCas f) 7 ∧
    (f.fmt.toNat ∈ [10, 11, 12] →
      let F := ffmt f.fmt.toNat false
      let y := deliver F 0 false 0 (addVal 0 (readFloat F (ownNumber s o z)) (readFloat F b))
      effect (.atFadd f) z y.1 y.2 { id := 0, dest := destX f, finish := .scalar f.fmt.toNat }) ∧
    (let pair (n : Nat) : Nat := (readX s.me n).toNat + 2 ^ 64 * (readX s.me (n + 1)).toNat
     effect (.atCas2 f) 16 (if ownNumber s o 16 = pair f.b.toNat then pair f.c.toNat else ownNumber s o 16) 0
       { id := 0, dest := if f.d = 0 then .none else .xPair f.d.toNat, finish := .pair })

/-- R153, R155, R166, R167, R309, R340: an atomic of another tile, of device memory or of another device is one message that carries its operands;
a misaligned one traps and sends nothing, one whose tile's spill queue is full is held, and through a cacheable handle its line is written back and
leaves the L1 first. The number by which a message to another device names the context and the virtual address in it is the model's choice (log 13). -/
def remoteAtomicRules : Prop :=
  ∀ (f : Fields) (s : State), CanonicalTiles s → longRoom s.me true = true →
    let asks (i : Instr) (sub z b c : Nat) (op : LongOp) : Prop := MemReady i s →
      let sent (u : State) (cover : Nat) (m : Msg) : Prop := SameMemory s u ∧
        u.net = s.net ++ [{ m with id := s.fresh + 1, src := s.cur, body := .atomic s.fresh sub f.fmt.toNat b c }] ∧
        u.me = after s { s.me with longs := s.me.longs ++
          [{ op with id := s.fresh, remote := true, atomic := true, waiting := 1, cover := cover }] } f
      let a := localBase s f
      (f.h = false → a % z ≠ 0 → exec i s = .next (s.takeTrap 5 0 (BitVec.ofNat 64 a))) ∧
      (∀ p o, f.h = false → a % z = 0 → s.localTarget s.myTile a z = .ok (p, o) → p ≠ s.myTile →
        (s.spillFull p = true → exec i s = .next s) ∧
        (s.spillFull p = false → ∃ u, exec i s = .next u ∧
          sent u (coverOf s.myTile (.tile p)) { id := 0, src := 0, home := .tile p, addr := o, body := .stealNone 0 })) ∧
      (∀ n, f.h = true → handleOf s f = some n → SoundEntry s n →
        let e := s.entryOf s.myTile n
        let l := s.launchOf s.myTile
        let off := handleBase s f
        let va := entryVa e off
        let m := (fabricTarget (s.vf l.vf) (entryTarget e)).getD 0
        let dev := (m.extractLsb' 32 16).toNat
        let far := ((m.extractLsb' 5 7).toNat * 8 + (m.extractLsb' 2 3).toNat) * 2 ^ 49 + va
        off % z = 0 → va % 65536 + z ≤ 65536 → entryTrap (s.vf l.vf) e off z .atomic = none →
        (∀ pa leaf, entrySpace e = 0 → s.translate s.myTile l.tag va true true = .page pa leaf →
          (entryCached e = false → ∃ u, exec i s = .next u ∧
            sent u 3 { id := 0, src := 0, home := .channel (pa / 0xA0000000), addr := pa, va := va, tag := some l.tag, leaf := leaf,
                       page := s.pageBits s.myTile l.tag va, body := .stealNone 0 }) ∧
          (∀ x ∈ (s.tile s.myTile).l1, entryCached e = true → 0 < (s.tile s.myTile).l1Lines → (∀ y ∈ (s.tile s.myTile).l1, SoundLine s y) →
            x.tag = l.tag → x.line = va / 128 → x.dirty ≠ 0 → ∃ u k q k', exec i s = .next u ∧ SameMemory s u ∧
              l1Find (u.tile s.myTile) l.tag va = none ∧ u.me.pc = nextPc s.me f ∧ k ∈ u.net ∧ k.home = x.home ∧ k.addr = x.pa ∧
              k.body = .writeback q x.data x.dirty ∧ k' ∈ u.net ∧ k'.home = .channel (pa / 0xA0000000) ∧ k'.addr = pa ∧ k.id < k'.id ∧
              ∃ o, k'.body = .atomic o sub f.fmt.toNat b c)) ∧
        (entrySpace e = 2 → entryCached e = false → dev ≠ s.linkId.toNat → ∃ u, exec i s = .next u ∧
          sent u 4 { id := 0, src := 0, home := .fabric dev, addr := far, va := va, body := .stealNone 0 }))
    let z := fmtWidth f.fmt.toNat / 8
    let b := (readX s.me f.b.toNat).toNat
    let c := (readX s.me f.c.toNat).toNat
    let one (i : Instr) (sub : Nat) : Prop := asks i sub z b c { id := 0, dest := destX f, finish := .scalar f.fmt.toNat }
    let pair (n : Nat) : Nat := (readX s.me n).toNat + 2 ^ 64 * (readX s.me (n + 1)).toNat
    one (.atAdd f) 0 ∧ one (.atAnd f) 1 ∧ one (.atOr f) 2 ∧ one (.atXor f) 3 ∧ one (.atMin f) 4 ∧ one (.atMax f) 5 ∧ one (.atSwp f) 6 ∧
    one (.atCas f) 7 ∧ one (.atFadd f) 8 ∧
    asks (.atCas2 f) 9 16 (pair f.b.toNat) (pair f.c.toNat) { id := 0, dest := if f.d = 0 then .none else .xPair f.d.toNat, finish := .pair }

/-- R162, R202: the loads and atomics of the strand at hand that a wait covers have completed; its covered stores, and task messages
where they count, have been answered, but those of the strand that ran in its slot before (R163); and so have the line writebacks of its tile
from before message `at_`, where the wait is for them. -/
abbrev Waited (s : State) (loads stores : Nat → Bool) (tasks lines : Bool) (at_ : Nat) : Prop :=
  (∀ o ∈ s.me.longs, loads o.cover = false) ∧
  (∀ p ∈ s.me.posted, stores p.cover = true → p.task = false ∨ tasks = true → p.rejected = true ∨ p.old = true) ∧
  (lines = true → ∀ i, i < 8 → ∀ p ∈ (s.strand (s.myTile * 8 + i)).posted, p.wb = true → p.id < at_ → p.rejected = true)

/-- The message number before which the writebacks count: at first presentation, all of them. -/
abbrev fenceStart (s : State) : Nat := if s.me.fence = none then s.fresh else s.me.fenceAt

/-- No line of the tile's L1 has dirty bytes. -/
abbrev L1Clean (s : State) : Prop := ∀ l ∈ (s.tile s.myTile).l1, l.dirty = 0

/-- R162: a release of a local store when nothing that it waits for is left: loads and atomics of any home, stores (those through the
fabric with scope 4 only), and with scope 1 to 4 the tile's writebacks. `st.rel.cmp` writes only over the expected bytes. Until then it
waits; the earliest covered rejection is reported in its place. An uncorrectable word that `st.rel.cmp` would compare freezes its strand, and nothing is
written (R353, R358). -/
def releaseRules : Prop :=
  ∀ (f : Fields) (s : State) (o : Nat), CanonicalTiles s → f.h = false →
    let z := fmtWidth f.fmt.toNat / 8
    let scope := f.rm.toNat
    let covers (c : Nat) : Bool := decide (c ≤ 3) || (c == 4 && scope == 4)
    let reports (p : Posted) : Bool := covers p.cover || (p.wb && decide (1 ≤ scope))
    let done := Waited s (fun c => decide (c ≤ 4)) covers false (decide (1 ≤ scope)) (fenceStart s)
    let bytes := natToBytes z (readX s.me f.d.toNat).toNat
    let want := natToBytes z (readX s.me f.c.toNat).toNat
    let clear := done ∧ (s.me.fence ≠ none ∨ L1Clean s) ∧ ∀ p ∈ s.me.posted, p.rejected = true → reports p = false
    let stores (i : Instr) (new : List Byte) : Prop := MemReady i s → clear → OwnBytes s (localAddr s f) z o →
      ∃ u, exec i s = .next u ∧ u.me = { after s s.me f with fence := none, fenceAt := fenceStart s } ∧
        readBytes (u.tile s.myTile).store o z = new ∧ OnlyOwnBytes s u (fun k => o ≤ k ∧ k < o + z)
    let sends (i : Instr) (body : Body) : Prop := ∀ p, MemReady i s → clear → localAddr s f % z = 0 → p ≠ s.myTile →
      s.localTarget s.myTile (localAddr s f) z = .ok (p, o) → s.spillFull p = false → ∃ u, exec i s = .next u ∧ SameMemory s u ∧
        u.net = s.net ++ [{ id := s.fresh, src := s.cur, home := .tile p, addr := o, body := body }] ∧ u.me.pc = nextPc s.me f ∧
        ∃ q, u.me.posted = s.me.posted ++ [q] ∧ q.id = s.fresh ∧ q.addr = BitVec.ofNat 64 (localAddr s f) ∧ q.rejected = false
    let waits (i : Instr) : Prop := MemReady i s → s.me.fence = some scope →
      (¬ done → exec i s = .next s) ∧
      (∀ p, done → s.me.posted.find? (fun q => q.rejected && reports q) = some p →
        exec i s = .next ((s.setMe { s.me with posted := s.me.posted.filter fun q => !(q.rejected && reports q) }).takeTrap 10 0 p.addr))
    stores (.stRel f) bytes ∧
    stores (.stRelCmp f) (if readBytes (s.tile s.myTile).store o z = want then bytes else readBytes (s.tile s.myTile).store o z) ∧
    (∀ kind, MemReady (.stRelCmp f) s → clear → s.me.run.ended = false → s.localTarget s.myTile (localAddr s f) z = .ok (s.myTile, o) →
      localAddr s f % z = 0 → badIn s.badWords (localPa s.myTile o) z = some kind →
      ∃ u, exec (.stRelCmp f) s = .next u ∧ (u.strand s.cur).run = .frozen ∧ (u.tile s.myTile).store = (s.tile s.myTile).store) ∧
    sends (.stRel f) (.write s.fresh 3 bytes) ∧ sends (.stRelCmp f) (.writeCmp s.fresh bytes want) ∧
    waits (.stRel f) ∧ waits (.stRelCmp f)

/-- R163, R202: a fence of a scope completes when the accesses that it covers have, and, from `clu` up, the tile's writebacks; it then,
from `clu` up, drops the clean bytes of the tile's L1. When it is first presented it writes every dirty line back. It waits before that,
and reports the earliest covered rejection. -/
def fenceRules : Prop :=
  ∀ (f : Fields) (s : State), CanonicalTiles s →
    let fence (i : Instr) (scope : Nat) : Prop := Ready i s →
      let covers (c : Nat) : Bool := decide (c ≤ scope)
      let done := Waited s covers covers true (decide (1 ≤ scope)) (fenceStart s)
      (done → scope = 0 ∨ L1Clean s → (∀ p ∈ s.me.posted, p.rejected = true → covers p.cover = false) →
        ∃ u, exec i s = .next u ∧ SameMemory s u ∧
          u.me = { s.me with fence := none, fenceAt := fenceStart s, pc := nextPc s.me f, issuedAt := s.cycle + 1 } ∧
          (u.tile s.myTile).l1 = if scope = 0 then (s.tile s.myTile).l1 else []) ∧
      (s.me.fence = some scope → ¬ done → exec i s = .next s) ∧
      (∀ p, s.me.fence = some scope → done → s.me.posted.find? (fun q => q.rejected && covers q.cover) = some p →
        exec i s = .next ((s.setMe { s.me with posted := s.me.posted.filter fun q => !(q.rejected && covers q.cover) }).takeTrap 10 0 p.addr)) ∧
      (s.me.fence = none → 1 ≤ scope → (∀ l ∈ (s.tile s.myTile).l1, SoundLine s l) → ∀ l ∈ (s.tile s.myTile).l1, l.dirty ≠ 0 →
        ∃ u m p, exec i s = .next u ∧ SameMemory s u ∧ u.me.pc = s.me.pc ∧ m ∈ u.net ∧ m.home = l.home ∧ m.addr = l.pa ∧
          m.body = .writeback p l.data l.dirty)
    fence (.fenceTile f) 0 ∧ fence (.fenceClu f) 1 ∧ fence (.fenceDie f) 2 ∧ fence (.fenceDev f) 3 ∧ fence (.fenceSys f) 4

/-- R181 to R183: reading a counter, waiting for a number of it, and reading a number's record. -/
def timelineRules : Prop :=
  ∀ (c : Counter) (f : Fields) (s : State), CanonicalTiles s →
    let tl := s.me.timeline c
    let n := min (readX s.me f.a.toNat).toNat tl.last
    (Ready (.tlRd c f) s → WritesX (.tlRd c f) f s (BitVec.ofNat 64 tl.last)) ∧
    (Ready (.tlWait c f) s →
      ((∃ x ∈ tl.recs, x.state = 1 ∧ x.num ≤ n) → exec (.tlWait c f) s = .next s) ∧
      ((∀ x ∈ tl.recs, x.num ≤ n → x.state ≠ 1 ∧ (x.state = 3 → x.rep = true)) → ∃ u, exec (.tlWait c f) s = .next u ∧ SameMemory s u ∧
        u.me = { s.me with pc := nextPc s.me f, issuedAt := s.cycle + 1 } ∧
        (c ≠ .tlm → L1Clean s → (u.tile s.myTile).l1 = [])) ∧
      (∀ x, (∀ y ∈ tl.recs, y.num ≤ n → y.state ≠ 1) → tl.recs.find? (fun y => y.state == 3 && !y.rep && decide (y.num ≤ n)) = some x →
        exec (.tlWait c f) s = .next ((s.setMe (s.me.setTimeline c (tl.on x.num fun y => { y with rep := true }))).takeTrap 9 x.num x.addr))) ∧
    (Ready (.tlTest c f) s → ∃ v : Word, WritesX (.tlTest c f) f s v ∧
      let readable (x : TlRec) : Prop := (x.state = 3 ∧ x.rep = false) ∨ tl.last < x.num + 64
      (∀ x, tl.recs.find? (fun y => y.num == (readX s.me f.a.toNat).toNat) = some x → x.state < 4 → readable x →
        v.toNat % 4 = x.state ∧ v.getLsbD 2 = x.rep ∧ v.getLsbD 3 = x.far ∧ v.getLsbD 4 = x.fmode ∧ v.toNat / 256 = x.flags.toNat) ∧
      ((∀ x ∈ tl.recs, x.num = (readX s.me f.a.toNat).toNat → ¬ readable x) →
        v = if 1 ≤ (readX s.me f.a.toNat).toNat ∧ (readX s.me f.a.toNat).toNat ≤ tl.last then 2 else 0))

/-! Copies, ports and encodes. -/

/-- The strand that an event acts on. -/
def argStrand (s : State) : Nat := s.arg.tile * 8 + s.arg.slot % 8

/-- R89, R171: what a copy instruction asks for. -/
def copyShapeRules : Prop :=
  ∀ (f : Fields) (s : State),
    let r := s.me
    let v := f.ext.imm64Nat
    let b := readX r f.b.toNat
    let c := s.copyOf r f
    let place (valid : Bool) (index : Nat) (x : Word) : Place :=
      if valid then .handle index (s.entryOf s.myTile index) (x.toNat % 2 ^ 48) else .store (x.toNat % 2 ^ 32)
    c.src = place (v.testBit 54) (v % 2 ^ 16) (readX r f.a.toNat) ∧
    (v / 2 ^ 42 % 4 = 1 → c.dst = .slot f.d.toNat) ∧
    (v / 2 ^ 42 % 4 ≠ 1 → c.dst = place (v.testBit 55) (v / 2 ^ 16 % 2 ^ 16) (readX r f.d.toNat)) ∧
    c.rows = v / 2 ^ 44 % 2 ^ 10 + 1 ∧ c.rl = b.toNat % 2 ^ 32 ∧ c.ss = (b.extractLsb' 32 32).toInt ∧
    c.ds = ((readX r f.c.toNat).extractLsb' 0 32).toInt ∧ c.sf = v / 2 ^ 32 % 32 ∧ c.df = v / 2 ^ 37 % 32 ∧
    c.mode = resolveMode r.status f.rm ∧ c.fmode = r.status.getLsbD 7 ∧ c.sat = f.s ∧ c.seed = r.seed ∧ c.srcnt = r.srcnt ∧
    c.num = r.tlc.last + 1 ∧ c.row = 0 ∧ c.elem = 0 ∧ c.writing = false ∧ c.buf = [] ∧ c.live = true

/-- R171, R172, R181: a copy that is not held and passes its checks joins its strand's queue under the next TLC number; one of no
bytes, or on a frozen engine, ends at once; a slot not owned, a failed check and a full timeline as the rules say. That an uncorrectable entry of one of
its handles freezes the strand is the model's choice (log 40). -/
def copyIssueRules : Prop :=
  ∀ (f : Fields) (s : State), CanonicalTiles s → MemReady (.cp f) s →
    let r := s.me
    let c := s.copyOf r f
    let t := s.tile s.myTile
    (r.tlc.full = true → exec (.cp f) s = .next s) ∧
    (r.tlc.full = false → (∀ n ∈ c.dst.slots, slotOps t n = 0) →
      (∀ n, s.unclaimed c.dst.slots = some n → exec (.cp f) s = .next (s.takeTrap 15 0 (BitVec.ofNat 64 n))) ∧
      (∀ kind a, s.unclaimed c.dst.slots = none → c.src.lost s s.myTile = some (kind, a) → exec (.cp f) s = .next (s.freeze s.cur kind a)) ∧
      (s.unclaimed c.dst.slots = none → c.src.lost s s.myTile = none → c.dst.lost s s.myTile = none →
        (8 * c.rl % fmtWidth c.sf ≠ 0 → ∃ u : State, exec (.cp f) s = .next (u.takeTrap 5 0 (BitVec.ofNat 64 c.rl)) ∧
          u = { s with clusters := u.clusters }) ∧
        (s.copyTrap c = none → ∃ u, exec (.cp f) s = .next u ∧ SameMemory s u ∧ u.me.pc = nextPc r f ∧ u.me.tlc.last = r.tlc.last + 1 ∧
          (u.me.srcnt = if c.mode = 5 then r.srcnt + 1 else r.srcnt) ∧ u.me.x = r.x ∧ u.me.status = r.status ∧
          (t.copyFrozen = none → c.rl ≠ 0 → u.me.copies = r.copies ++ [c] ∧
            ∃ x ∈ u.me.tlc.recs, x.num = c.num ∧ x.state = 1 ∧ x.far = c.far ∧ (x.fmode = (c.sf != c.df && c.fmode))) ∧
          (t.copyFrozen = none → c.rl = 0 → u.me.copies = r.copies) ∧
          (∀ a, t.copyFrozen = some a → u.me.copies = r.copies))))

/-- The copy that an event works on is not held, its tile is not saved or being saved and its engine is not frozen, and it has a row to do. -/
abbrev CopyRuns (s : State) (c : CopyOp) : Prop :=
  (s.strand (argStrand s)).copyAt s.arg.far = some c ∧ s.diverts s.arg.tile = false ∧ (s.tile s.arg.tile).copyFrozen = none ∧ c.row < c.rows

/-- R173 to R175: the engine reads a row's elements one by one, then writes them, converted, one by one: here between places of the own
store, in formats of whole bytes, and from device memory where an unaligned base carries an element into the next page (R242, R308). A source element
that translation refuses ends its row and, once the elements before it are written, fails the copy with its virtual address; a destination element that
it refuses fails the copy at once; one whose page no cache holds waits for its walk (R310). That a 4-bit destination asks for read
permission too, and that the flags of a failed copy are ORed into STATUS, are the model's choices (log 26). -/
def copyElementRules : Prop :=
  ∀ (s : State) (c : CopyOp) (a : Nat), CanonicalTiles s → s.badWords = [] → CopyRuns s c →
    let who := argStrand s
    let r := s.strand who
    let t := s.tile s.arg.tile
    (c.writing = false → c.src = .store a → 8 ≤ fmtWidth c.sf → s.olderTo who c.stamp (.tile s.arg.tile) = false →
      let w := fmtWidth c.sf / 8
      let at_ : Nat := (((a : Int) + c.row * c.ss + (c.elem * w : Nat)) % 2 ^ 32).toNat
      at_ < 2 ^ 20 →
      ∃ u, exec .copyElement s = .next u ∧ SameMemory s u ∧ u.strand who = r.onCopy c.num fun c => ({ c with resumed := false } : CopyOp).gotElem
        { bits := bytesToNat (readBytes t.store at_ w), va := at_ }) ∧
    (∀ index e off, c.writing = false → c.src = .handle index e off → entrySpace e = 0 →
      let va := entryVa e (((off : Int) + (c.row * c.ss + (c.elem * fmtWidth c.sf / 8 : Nat))) % 2 ^ 48).toNat
      s.translate s.arg.tile c.tag va true false = .fault → ∃ u, exec .copyElement s = .next u ∧ SameMemory s u ∧
        u.strand who = r.onCopy c.num fun c =>
          { c with resumed := false, buf := c.buf ++ [{ bits := 0, va := va, lost := true }], writing := true, elem := 0, held := none, walk := none }) ∧
    (∀ index e off, c.writing = false → c.src = .handle index e off → entrySpace e = 0 → c.walk = none →
      let va := entryVa e (((off : Int) + (c.row * c.ss + (c.elem * fmtWidth c.sf / 8 : Nat))) % 2 ^ 48).toNat
      s.tlbHit (s.tile s.arg.tile).tlb c.tag va = none → s.tlbHit (s.cluster (clusterOf s.arg.tile)).tlb c.tag va = none →
      ∃ u, exec .copyElement s = .next u ∧ SameMemory s u ∧ u.net = s.net ∧
        u.strand who = r.onCopy c.num fun d => { d with resumed := false, walk := some (s.newWalk s.arg.tile c.tag va) }) ∧
    (∀ index e off pa leaf pa₂ leaf₂, c.writing = false → c.src = .handle index e off → entrySpace e = 0 → 8 ≤ fmtWidth c.sf → s.retired = 0 →
      let w := fmtWidth c.sf / 8
      let va := entryVa e (((off : Int) + (c.row * c.ss + (c.elem * w : Nat))) % 2 ^ 48).toNat
      let n := 65536 - va % 65536
      n < w → va + w < 2 ^ 49 → s.translate s.arg.tile c.tag va true false = .page pa leaf →
      s.translate s.arg.tile c.tag (va + n) true false = .page pa₂ leaf₂ →
      (∀ h, h = .channel (pa / 0xA0000000) ∨ h = .channel (pa₂ / 0xA0000000) →
        s.olderTo who c.stamp h = false ∧ s.homeWaits who (c.tag / 8) h = false) →
      ∃ u, exec .copyElement s = .next u ∧ SameMemory s u ∧ u.strand who = r.onCopy c.num fun c => ({ c with resumed := false } : CopyOp).gotElem
        { bits := bytesToNat (readBytes s.mem pa n ++ readBytes s.mem pa₂ (w - n)), va := va }) ∧
    (∀ e, c.writing = true → c.buf[c.elem]? = some e → e.lost = true → ∃ u, exec .copyElement s = .next u ∧ SameMemory s u ∧
      (u.strand who).copies = r.copies.filter (fun d => d.num != c.num) ∧ (u.strand who).tlc = r.tlc.fail c.num c.flags (BitVec.ofNat 64 e.va) ∧
      (u.strand who).status = if c.live then r.status ||| c.flags.setWidth 64 else r.status) ∧
    (∀ e index d off, c.writing = true → c.buf[c.elem]? = some e → e.lost = false → c.dst = .handle index d off → entrySpace d = 0 →
      let va := entryVa d (((off : Int) + (c.row * c.ds + (c.elem * fmtWidth c.df / 8 : Nat))) % 2 ^ 48).toNat
      s.translate s.arg.tile c.tag va (fmtWidth c.df == 4) true = .fault → ∃ u, exec .copyElement s = .next u ∧ SameMemory s u ∧
        (u.strand who).copies = r.copies.filter (fun d => d.num != c.num) ∧ (u.strand who).tlc = r.tlc.fail c.num c.flags (BitVec.ofNat 64 va)) ∧
    (c.writing = true → c.dst = .store a → 8 ≤ fmtWidth c.df → ∀ e, c.buf[c.elem]? = some e → e.lost = false → e.bad = none →
      let w := fmtWidth c.df / 8
      let at_ : Nat := (((a : Int) + c.row * c.ds + (c.elem * w : Nat)) % 2 ^ 32).toNat
      let y := convertElem c (c.row * c.elems + c.elem) e.bits
      at_ < 2 ^ 20 → c.bank = none →
      ∃ u, exec .copyElement s = .next u ∧ readBytes (u.tile s.arg.tile).store at_ w = natToBytes w y.1 ∧
        (∀ m k, (m = .store s.arg.tile → k < at_ ∨ at_ + w ≤ k) → readCell u m k = readCell s m k) ∧
        u.strand who = r.onCopy c.num fun c => ({ c with resumed := false } : CopyOp).putElem (y.2 ||| e.flags)) ∧
    (∀ i bits, c.sf = c.df → convertElem c i bits = (bits, 0)) ∧
    (∀ i bits, c.sf ≠ c.df → c.sf ∈ [10, 11, 12, 13, 14] → c.df ∈ [10, 11, 12, 13, 14] → convertElem c i bits =
      deliver (ffmt c.df c.fmode) c.mode c.sat (if c.mode = 5 then draw c.seed c.srcnt i else 0) (readFmt c.sf c.fmode bits)) ∧
    (∀ i bits, c.sf ∈ [0, 1, 2, 3, 4, 5, 8, 9] → c.df ∈ [10, 11, 12, 13, 14] → convertElem c i bits =
      deliver (ffmt c.df c.fmode) c.mode c.sat (if c.mode = 5 then draw c.seed c.srcnt i else 0)
        (intVal (readInt (fmtSigned c.sf) (fmtWidth c.sf) bits))) ∧
    (∀ i bits, c.sf ∈ [10, 11, 12, 13, 14] → c.df ∈ [0, 1, 2, 3, 4, 5, 8, 9] →
      let y := floatToInt (fmtSigned c.df) (fmtWidth c.df) c.mode (if c.mode = 5 then draw c.seed c.srcnt i else 0) (readFmt c.sf c.fmode bits)
      convertElem c i bits = (wrapInt (fmtWidth c.df) y.1, y.2)) ∧
    (∀ i bits, c.sf ≠ c.df → c.sf ∈ [0, 1, 2, 3, 4, 5, 8, 9] → c.df ∈ [0, 1, 2, 3, 4, 5, 8, 9] → convertElem c i bits =
      (wrapInt (fmtWidth c.df) (max (intMin (fmtSigned c.df) (fmtWidth c.df)) (min (intMax (fmtSigned c.df) (fmtWidth c.df))
        (readInt (fmtSigned c.sf) (fmtWidth c.sf) bits))), 0))

/-- R311: the engine works on the first copy of a class that no fault holds: a held one keeps none but itself. -/
def copyChoiceRules : Prop :=
  ∀ (r : Strand) (far : Bool) (c : CopyOp), r.copyAt far = some c ↔
    ∃ before after, r.copies = before ++ c :: after ∧ c.far = far ∧ c.held = none ∧ ∀ d ∈ before, d.far = far → d.held ≠ none

/-- R174, R183: when the last row is written the copy's number completes with its flags, which STATUS receives unless the strand has
halted since. -/
def copyCompleteRules : Prop :=
  ∀ (s : State) (c : CopyOp), CanonicalTiles s → s.diverts s.arg.tile = false →
    let who := argStrand s
    let r := s.strand who
    r.copyAt s.arg.far = some c → c.rows ≤ c.row →
    ∃ u, exec .copyComplete s = .next u ∧ SameMemory s u ∧
      u.strand who = { r with
        copies := r.copies.filter (fun d => d.num != c.num), tlc := r.tlc.finish c.num c.flags
        status := if c.live then r.status ||| c.flags.setWidth 64 else r.status }

/-- R176 to R179: opening a port, closing and flushing it, fetching its next element and writing its next one. That an uncorrectable entry of the
pattern's handle freezes the strand is the model's choice (log 40). -/
def portRules : Prop :=
  ∀ (f : Fields) (s : State), CanonicalTiles s → 32 ≤ f.d.toNat →
    let r := s.me
    let q := f.d.toNat - 32
    let a := (readX r f.a.toNat + immOf f).toNat % 2 ^ 32
    let item := readNat (s.tile s.myTile).store a 32
    let p := readPort r q
    let next := r.tlc.last + 1
    let index := item / 2 ^ 160 % 2 ^ 16
    (MemReady (.qOpen f) s →
      (a % 32 ≠ 0 → exec (.qOpen f) s = .next (s.takeTrap 5 0 (BitVec.ofNat 64 a))) ∧
      (∀ kind x, a % 32 = 0 → areaTrap (s.tile s.myTile) a 32 0 = none → item.testBit 176 = true → s.entryLost s.myTile index = some (kind, x) →
        exec (.qOpen f) s = .next (s.freeze s.cur kind x)) ∧
      ((item.testBit 176 = true → SoundEntry s index) →
      (∀ code info bad, s.openTrap q a item = some (code, info, bad) → exec (.qOpen f) s = .next (s.takeTrap code info bad)) ∧
      (s.openTrap q a item = none → ∃ u, exec (.qOpen f) s = .next u ∧ SameMemory s u ∧ u.me.pc = nextPc r f ∧
        readPort u.me q = { isOpen := true, out := item.testBit 177, tag := (s.launchOf s.myTile).tag
                            base := if item.testBit 176 then .handle index (s.entryOf s.myTile index) (item % 2 ^ 64)
                              else .store (item % 2 ^ 64)
                            n0 := item / 2 ^ 128 % 2 ^ 16, n1 := item / 2 ^ 144 % 2 ^ 16, stamp := s.fresh
                            stride0 := (BitVec.ofNat 32 (item / 2 ^ 64)).toInt, stride1 := (BitVec.ofNat 32 (item / 2 ^ 96)).toInt }))) ∧
    (MemReady (.qClose f) s → r.tlc.full = false → ∃ u, exec (.qClose f) s = .next u ∧ SameMemory s u ∧ u.me.pc = nextPc r f ∧
      u.me.tlc.last = next ∧ (p.isOpen = true → (mapWf {} r.ports = true → readPort u.me q = {})) ∧
      (u.me.drains = if p.isOpen && p.out then r.drains ++ [.mark q next true] else r.drains)) ∧
    (MemReady (.qFlush f) s → r.tlc.full = false →
      (p.isOpen = false → exec (.qFlush f) s = .next (s.takeTrap 7 0 (BitVec.ofNat 64 f.d.toNat))) ∧
      (p.isOpen = true → ∃ u, exec (.qFlush f) s = .next u ∧ SameMemory s u ∧ u.me.pc = nextPc r f ∧ u.me.tlc.last = next ∧
        (u.me.drains = if p.out then r.drains ++ [.mark q next true] else r.drains) ∧
        readPort u.me q = if p.out then p else { p with buf := [], fetch := p.next, stamp := s.fresh, got := [], gotBad := none, walk := none }))

/-- R178, R179, R242: the copy engine fetches the next element of an input port, writes the next pushed one, and completes a flush or close
behind the elements before it: in the own store; of device memory it fetches an element in parts that lie in one line each. -/
def portEngineRules : Prop :=
  ∀ (s : State) (a : Nat), CanonicalTiles s → s.badWords = [] → s.diverts s.arg.tile = false → (s.tile s.arg.tile).copyFrozen = none →
    let who := argStrand s
    let r := s.strand who
    let t := s.tile s.arg.tile
    let p := readPort r s.arg.op
    let place (shift : Int) : Nat := (((a : Int) + shift) % 2 ^ 32).toNat
    (p.isOpen = true → p.out = false → p.buf.length < 4 → p.fetch < p.n0 * p.n1 → p.base = .store a →
      p.got = [] → p.gotBad = none → s.olderTo who p.stamp (.tile s.arg.tile) = false →
      let o := place ((p.fetch / p.n0 : Nat) * p.stride1 + (p.fetch % p.n0 : Nat) * p.stride0)
      o < 2 ^ 20 → ∃ u, exec .portRefillElement s = .next u ∧ SameMemory s u ∧
        readPort (u.strand who) s.arg.op = { p with
          buf := p.buf ++ [{ index := p.fetch, data := BitVec.ofNat 2048 (bytesToNat (readBytes t.store o 256)) }], fetch := p.fetch + 1, walk := none }) ∧
    (∀ index e off pa leaf, p.isOpen = true → p.out = false → p.buf.length < 4 → p.fetch < p.n0 * p.n1 → p.base = .handle index e off →
      entrySpace e = 0 → p.gotBad = none → s.retired = 0 →
      let shift := (p.fetch / p.n0 : Nat) * p.stride1 + (p.fetch % p.n0 : Nat) * p.stride0
      let at_ (k : Nat) : Nat := entryVa e (((off : Int) + shift + k) % 2 ^ 48).toNat
      let k := p.got.length
      let n := min (256 - k) (128 - (at_ 0 + k) % 128)
      k + n < 256 → s.translate s.arg.tile p.tag (at_ k) true false = .page pa leaf → s.olderTo who p.stamp (.channel (pa / 0xA0000000)) = false →
      (s.homeWaits who (p.tag / 8) (.channel (pa / 0xA0000000)) = true → exec .portRefillElement s = .next s) ∧
      (s.homeWaits who (p.tag / 8) (.channel (pa / 0xA0000000)) = false → ∃ u, exec .portRefillElement s = .next u ∧ SameMemory s u ∧
        readPort (u.strand who) s.arg.op = { p with got := p.got ++ readBytes s.mem pa n, walk := none })) ∧
    (∀ q shift tag data rest, r.drains = .elem q (.store a) shift tag data 0 :: rest → place shift < 2 ^ 20 →
      ∃ u, exec .portDrainElement s = .next u ∧ u.strand who = { r with drains := rest, drainWalk := none } ∧
        readBytes (u.tile s.arg.tile).store (place shift) 256 = natToBytes 256 data.toNat ∧
        ∀ m k, (m = .store s.arg.tile → k < place shift ∨ place shift + 256 ≤ k) → readCell u m k = readCell s m k) ∧
    (∀ q num live rest, r.drains = .mark q num live :: rest → (∀ b ∈ r.drainBad, b.1 ≠ q) →
      ∃ u, exec .portDrainElement s = .next u ∧ SameMemory s u ∧
        u.strand who = { r with drains := rest, tlc := r.tlc.finish num 0 })

/-- R178, R358: an element at the head of an input port whose buffer holds it uncorrectable is not popped: its strand freezes, with a violation
record (that the strand is the master which freezes is the model's choice: log 40). -/
def spoiltElementRules : Prop :=
  ∀ (f : Fields) (s : State) (e : PortElem) (rest : List PortElem), CanonicalTiles s → s.me.run = .running → s.me.task = none →
    32 ≤ f.a.toNat → (readPort s.me (f.a.toNat - 32)).buf = e :: rest → e.spoilt = true →
    let freezes (i : Instr) (dst : Option Nat) : Prop := Ready i s → checkPorts s.me [f.a.toNat] dst = .ok → ∃ u, exec i s = .next u ∧
      u.me.run = .frozen ∧ u.me.x = s.me.x ∧ u.me.v = s.me.v ∧ u.me.ports = s.me.ports ∧ u.trust.seq = s.trust.seq + 1
    freezes (.vMov f) (some f.d.toNat) ∧ freezes (.vHist f) none

/-- R353, R358: a frozen engine fails every copy, fetch and drain with the address recorded for it; a drained element that its buffer holds
uncorrectable freezes the engine and is not written. The address recorded for an element of the local store is the model's choice (log 23). -/
def frozenEngineRules : Prop :=
  ∀ (s : State), CanonicalTiles s → s.diverts s.arg.tile = false →
    let who := argStrand s
    let r := s.strand who
    let p := readPort r s.arg.op
    (∀ k, (s.tile s.arg.tile).copyFrozen = some k →
      (∀ c, r.copyAt s.arg.far = some c → c.row < c.rows → ∃ u, exec .copyElement s = .next u ∧ SameMemory s u ∧
        (u.strand who).copies = r.copies.filter (fun d => d.num != c.num) ∧ (u.strand who).tlc = r.tlc.fail c.num c.flags k) ∧
      (p.isOpen = true → p.out = false → p.buf.length < 4 → p.fetch < p.n0 * p.n1 → ∃ u, exec .portRefillElement s = .next u ∧ SameMemory s u ∧
        readPort (u.strand who) s.arg.op =
          { p with buf := p.buf ++ [{ index := p.fetch, data := 0, bad := some k }], fetch := p.fetch + 1, got := [], gotBad := none, walk := none }) ∧
      (∀ q place shift tag data done bad rest, r.drains = .elem q place shift tag data done bad :: rest → ∃ u,
        exec .portDrainElement s = .next u ∧ SameMemory s u ∧ u.strand who = { r with drains := rest, drainWalk := none, drainBad := r.drainBad ++ [(q, k)] })) ∧
    (∀ q a shift tag data rest, (s.tile s.arg.tile).copyFrozen = none → r.drains = .elem q (.store a) shift tag data 0 true :: rest →
      let n : Nat := (((a : Int) + shift) % 2 ^ 32).toNat
      n < 2 ^ 20 → ∃ u, exec .portDrainElement s = .next u ∧ SameMemory s u ∧ (u.tile s.arg.tile).copyFrozen = some (BitVec.ofNat 64 n) ∧
        (u.strand who).drains = rest ∧ (u.strand who).drainBad = r.drainBad ++ [(q, BitVec.ofNat 64 n)] ∧ u.trust.seq = s.trust.seq + 1)

/-- R152, R153, R154, R176, R177: the checks of `q.open` on a pattern record, in the order of its table: the record's place, its reserved bits
and counts, the alignment of its base and strides, the bounds of every element, the rights of its handle, and whether the port is open.
Which element of several is named, and the address that a stride gives, are the model's (log 27), and so is the bounds fault for HV = 0 with a
HANDLE or a BASE above 32 bits (log 31). -/
def openRules : Prop :=
  ∀ (s : State) (q a item : Nat),
    let t := s.tile s.myTile
    let bad := BitVec.ofNat 64 a
    let hv := item.testBit 176
    let base : Nat := item % 2 ^ 64
    let n0 := item / 2 ^ 128 % 2 ^ 16
    let n1 := item / 2 ^ 144 % 2 ^ 16
    let d0 : Int := (BitVec.ofNat 32 (item / 2 ^ 64)).toInt
    let d1 : Int := (BitVec.ofNat 32 (item / 2 ^ 96)).toInt
    let index := item / 2 ^ 160 % 2 ^ 16
    let e := s.entryOf s.myTile index
    let at_ (i1 i0 : Nat) : Int := (base : Int) + i1 * d1 + i0 * d0
    let placed := a % 32 = 0 ∧ t.xb ≤ a ∧ a + 32 ≤ t.xb + t.scr ∧ (t.race = true → a + 32 ≤ t.ringBase)
    let formed := item / 2 ^ 178 % 2 ^ 78 = 0 ∧ n0 ≠ 0 ∧ n1 ≠ 0 ∧ (hv = false → index = 0 ∧ base < 2 ^ 32)
    let aligned := base % 4 = 0 ∧ d0 % 4 = 0 ∧ d1 % 4 = 0
    let fits (n : Int) : Prop := if hv = true then entryValid e = true ∧ 0 ≤ n ∧ n + 256 ≤ entryLen e
      else 0 ≤ n ∧ n < 2 ^ 32 ∧ ∃ p, s.localTarget s.myTile n.toNat 256 = .ok p
    let all := ∀ i1 i0, i1 < n1 → i0 < n0 → fits (at_ i1 i0)
    let right := hv = true → admits (s.vf (s.launchOf s.myTile).vf) e (if item.testBit 177 then .portOut else .portIn) = true
    let gives (x : Option TrapInfo) : Prop := s.openTrap q a item = x
    (a % 32 ≠ 0 → gives (some (5, 0, bad))) ∧ (a % 32 = 0 → a < t.xb → gives (some (7, 0, bad))) ∧
    (a % 32 = 0 → t.xb ≤ a → t.xb + t.scr < a + 32 → t.race = false → gives (some (6, 0, bad))) ∧
    (placed → ¬ formed → gives (some (6, 0, bad))) ∧
    (placed → formed → base % 4 ≠ 0 → gives (some (5, 0, BitVec.ofNat 64 base))) ∧
    (placed → formed → ¬ aligned → ∃ x, gives (some (5, 0, x))) ∧
    (placed → formed → aligned → ¬ all → ∃ code i1 i0, gives (some (code, 0, BitVec.ofInt 64 (at_ i1 i0))) ∧ i1 < n1 ∧ i0 < n0 ∧
      ¬ fits (at_ i1 i0) ∧ (hv = true → code = 6) ∧
      (hv = false → code = 6 ∨ (code = 7 ∧ ∃ k, s.localTarget s.myTile (at_ i1 i0).toNat 256 = .error k ∧ k.1 = 7))) ∧
    (placed → formed → aligned → all → ¬ right → gives (some (7, 0, BitVec.ofNat 64 base))) ∧
    (placed → formed → aligned → all → right → (readPort s.me q).isOpen = true → gives (some (7, 0, BitVec.ofNat 64 (q + 32)))) ∧
    (placed → formed → aligned → all → right → (readPort s.me q).isOpen = false → gives none)

/-- R148, R152: `t.enc` joins its cluster's queue under the next TLE number, or waits while the queue or the timeline is full; then the
alignment of both addresses, both regions, and the ownership of the engine (the order of the two addresses, and the address that the last
fault gives, are the model's: log 16). -/
def encodeIssueRules : Prop :=
  ∀ (f : Fields) (s : State), CanonicalTiles s → Ready (.tEnc f) s →
    let r := s.me
    let c := clusterOf s.myTile
    let cl := s.cluster c
    let ts := f.imm10.toNat % 4
    let tv := f.imm10.toNat / 4 + 1
    let ta := (readX r f.a.toNat).toNat % 2 ^ 32
    let da := (readX r f.b.toNat).toNat % 2 ^ 32
    let room := cl.encoder.length < 64 ∧ r.tle.full = false
    let t := s.tile s.myTile
    let n := blockBytes ts tv + 8
    let aligned := room ∧ ta % 4 = 0 ∧ da % 8 = 0 ∧ t.race = false
    let region (a k : Nat) (ok : Prop) : Prop :=
      (ok → a < t.xb → exec (.tEnc f) s = .next (s.takeTrap 7 0 (BitVec.ofNat 64 a))) ∧
      (ok → t.xb ≤ a → t.xb + t.scr < a + k → exec (.tEnc f) s = .next (s.takeTrap 6 0 (BitVec.ofNat 64 a)))
    let inside (a k : Nat) : Prop := t.xb ≤ a ∧ a + k ≤ t.xb + t.scr
    (64 ≤ cl.encoder.length ∨ r.tle.full = true → exec (.tEnc f) s = .next s) ∧
    region ta 1024 aligned ∧ region da n (aligned ∧ inside ta 1024) ∧
    (aligned → inside ta 1024 → inside da n → (s.vf (s.launchOf s.myTile).vf).viterbi.getLsbD c = false →
      exec (.tEnc f) s = .next (s.takeTrap 7 0 (BitVec.ofNat 64 ta))) ∧
    (room → ta % 4 ≠ 0 → exec (.tEnc f) s = .next (s.takeTrap 5 0 (BitVec.ofNat 64 ta))) ∧
    (room → ta % 4 = 0 → da % 8 ≠ 0 → exec (.tEnc f) s = .next (s.takeTrap 5 0 (BitVec.ofNat 64 da))) ∧
    (room → ta % 4 = 0 → da % 8 = 0 → (t.race = true → ta + 1024 ≤ t.ringBase ∧ da + n ≤ t.ringBase) → inside ta 1024 → inside da n →
      (s.vf (s.launchOf s.myTile).vf).viterbi.getLsbD c = true → ∃ u, exec (.tEnc f) s = .next u ∧ SameMemory s u ∧
      u.me.pc = nextPc r f ∧ u.me.tle.last = r.tle.last + 1 ∧ u.me.tlm = r.tlm ∧
      (u.cluster c).encoder = cl.encoder ++ [⟨s.myTile, s.mySlot, r.tle.last + 1, ta, da, ts, tv, true⟩])

/-- R149, R150: the Viterbi engine reads the 256 targets of the first block of its queue; when it completes the block its
stream and scales are written and its number completes; targets that are not all finite fail it with NV. -/
def encodeEngineRules : Prop :=
  ∀ (s : State) (e : EncOp) (rest : List EncOp), CanonicalTiles s → mapWf {} s.clusters = true → s.badWords = [] →
    let c := s.arg.cluster
    let cl := s.cluster c
    cl.encoder = e :: rest → (∀ o ∈ rest, o ≠ e) →
    let who := e.tile * 8 + e.slot
    let r := s.strand who
    (cl.targets = none → ∃ u ws, exec .viterbiBlockStart s = .next u ∧ SameMemory s u ∧
      (u.cluster c).encoder = e :: rest ∧ (u.cluster c).targets = some ws ∧ ws.length = 256 ∧
      ∀ i, i < 256 → ws[i]? = some (BitVec.ofNat 32 (readNat (s.tile e.tile).store (e.ta + 4 * i) 4))) ∧
    (∀ ws, cl.targets = some ws → (∀ w ∈ ws, ∃ v, targetUnits w = some v) →
      let bytes := encodeBlock ((ws.map targetUnits).filterMap id) e.ts e.tv
      ∃ u, exec .viterbiBlockComplete s = .next u ∧ (u.cluster c).encoder = rest ∧ (u.cluster c).targets = none ∧
        u.strand who = { r with tle := r.tle.finish e.num 0 } ∧ readBytes (u.tile e.tile).store e.da bytes.length = bytes ∧
        ∀ m k, (m = .store e.tile → k < e.da ∨ e.da + bytes.length ≤ k) → readCell u m k = readCell s m k) ∧
    (∀ ws, cl.targets = some ws → (∃ w ∈ ws, targetUnits w = none) →
      ∃ u, exec .viterbiBlockComplete s = .next u ∧ SameMemory s u ∧ (u.cluster c).encoder = rest ∧
        u.strand who = { r with tle := r.tle.fail e.num flagNV (BitVec.ofNat 64 e.ta),
                                status := if e.live then r.status ||| 1 else r.status })

/-- R149 step 3: a path: a window of 16 bits for each step, whose low bits are what the shift leaves of the one before. -/
def IsPath (ts n : Nat) (w : Nat → Nat) : Prop :=
  (∀ j, j < n → w j < 2 ^ 16) ∧ ∀ j, j + 1 < n → w (j + 1) % 2 ^ (16 - ts) = w j / 2 ^ ts

/-- R149: the cost of a choice of windows under scales, in units of 2^−298, for targets in units of 2^−149. -/
def pathCost (targets : List Int) (scale : Nat → Nat) (tv : Nat) (w : Nat → Nat) : Int :=
  ((List.range 256).map fun i =>
    let x := if scale (i / 32) = 0 then 0 else windowValue (w (i / tv)) (i % tv) * 2 ^ (scale (i / 32) + 14)
    (x - targets.getD i 0) ^ 2).sum

/-- R53, R54, R149: an encoded block: each group's scale is 0 for targets of 0, else the least that covers them, or 254; the stream's windows are a
path that starts and ends in the state σ, the least of the states in which a least-cost path ends; no other such path costs less, and one that
costs the same has the greater state before the step from which on they agree; the error behind the block is that cost, rounded to fp64. A target
is a finite fp32 value, here in units of 2^−149. -/
def encodeBlockRules : Prop :=
  (∀ w : BitVec 32, (targetUnits w = none ↔ ¬ Exact (readFloat (ffmt 10 false) w.toNat)) ∧
    ∀ v, targetUnits w = some v → realOf (readFloat (ffmt 10 false) w.toNat) = v * 2 ^ (-149 : Int)) ∧
  ∀ (targets : List Int) (ts tv : Nat), targets.length = 256 → ts ∈ [1, 2, 3] → tv ∈ [1, 2] →
    let n := 256 / tv
    let bytes := encodeBlock targets ts tv
    let len := n * ts / 8
    let scale (g : Nat) : Nat := (bytes.getD (len + g) 0).toNat
    let p (j : Nat) : Nat := windowAt (bytesToNat (bytes.take len)) ts tv j
    let first (w : Nat → Nat) : Nat := w 0 % 2 ^ (16 - ts)
    let final (w : Nat → Nat) : Nat := w (n - 1) / 2 ^ ts
    let cost := pathCost targets scale tv
    let group (g : Nat) (q : Nat → Prop) : Prop := ∀ i, i < 256 → i / 32 = g → q (targets.getD i 0).natAbs
    bytes.length = len + 16 ∧
    (∀ g, g < 8 → (group g (· = 0) → scale g = 0) ∧
      (¬ group g (· = 0) → 1 ≤ scale g ∧ scale g ≤ 254 ∧ (scale g < 254 → group g (· ≤ 510 * 2 ^ (scale g + 14))) ∧
        ∀ e, 1 ≤ e → e < scale g → ¬ group g (· ≤ 510 * 2 ^ (e + 14)))) ∧
    IsPath ts n p ∧ first p = final p ∧
    (∃ w, IsPath ts n w ∧ final w = final p ∧ ∀ w', IsPath ts n w' → cost w ≤ cost w' ∧ (cost w' = cost w → final w ≤ final w')) ∧
    (∀ w, IsPath ts n w → first w = final p → final w = final p → cost p ≤ cost w ∧
      (cost w = cost p → ∀ j, j < n → w j ≠ p j → (∀ k, j < k → k < n → w k = p k) → p j % 2 ^ (16 - ts) < w j % 2 ^ (16 - ts))) ∧
    bytes.drop (len + 8) = natToBytes 8 (deliver (ffmt 16 false) 0 false 0 (.fin false (cost p).toNat (-298) false)).1

/-! Strands. -/

/-- R163, R189, R226: what a started strand holds: no span level is open, the registers of every level are 0, and no throttle warning stands; the
writebacks charged to the strand that ran in its slot before are still waited for. -/
def Started (old new : Strand) (cycle : Nat) (pc : BitVec 32) (xs : List Word) (status tvb ovh tbr : Word) : Prop :=
  new.run = .running ∧ new.pc = pc ∧ (∀ n, n ≠ 0 → readX new n = xs.getD (n - 1) 0) ∧ (∀ n, readV new n = 0) ∧
  (∀ n, n ≠ 0 → readK new n = 0) ∧ (∀ n, readW new n = 0) ∧ new.la = 0 ∧ new.laCarry = 0 ∧ new.status = status ∧ new.tvb = tvb ∧
  new.ovh = ovh ∧ new.tbr = tbr ∧ new.epc = 0 ∧ new.cause = 0 ∧ new.badaddr = 0 ∧ new.depth = 0 ∧ new.hp = 0 ∧ new.esc = 0 ∧ new.spans = [] ∧ new.thr = false ∧
  new.ports = [] ∧ new.task = none ∧ new.longs = [] ∧
  new.posted = (old.posted.filter fun p => p.wb).map (fun p => { p with old := true }) ∧
  new.seed = old.seed ∧ new.srcnt = old.srcnt ∧ new.tlc = old.tlc ∧ new.tlm = old.tlm ∧ new.tle = old.tle ∧ new.tlg = old.tlg ∧
  new.copies = old.copies ∧ new.startedAt = cycle + 1

/-- The STATUS of a strand started with an RM and an FMODE (R38). -/
def freshStatus (rm : BitVec 3) (fmode : Bool) : Word := (rm.setWidth 64 <<< 8) ||| (if fmode then 128 else 0)

/-- R187: `fork` starts the lowest free slot, says so, and never waits. -/
def forkRules : Prop :=
  ∀ (f : Fields) (s : State), CanonicalTiles s → Ready (.fork f) s → s.me.run = .running →
    let r := s.me
    let pc : BitVec 32 := (readX r f.c.toNat).setWidth 32
    let isFree (k : Nat) : Prop := (s.strand (s.myTile * 8 + k)).run = .free ∧ (s.strand (s.myTile * 8 + k)).issuedAt ≠ s.cycle + 1
    (pc.toNat % 4 ≠ 0 → exec (.fork f) s = .next (s.takeTrap 5 0 (pc.setWidth 64))) ∧
    (pc.toNat % 4 = 0 → (∀ k, k < 8 → ¬ isFree k) → WritesX (.fork f) f s 8) ∧
    (∀ k, pc.toNat % 4 = 0 → k < 8 → isFree k → (∀ j, j < k → ¬ isFree j) → ∃ u, exec (.fork f) s = .next u ∧ SameMemory s u ∧
      u.me = { writeX r f.d.toNat (BitVec.ofNat 64 k) with pc := nextPc r f, issuedAt := s.cycle + 1 } ∧
      Started (s.strand (s.myTile * 8 + k)) (u.strand (s.myTile * 8 + k)) s.cycle pc [readX r f.a.toNat, readX r f.b.toNat]
        (freshStatus (r.status.extractLsb' 8 3) (r.status.getLsbD 7)) r.tvb r.ovh ((s.launchOf s.myTile).tbr.setWidth 64))

/-- R186: an answered instruction has issued: its message is on its way, and its register waits for the answer. -/
def asking (f : Fields) (s : State) (home : Home) (body : Body) : State :=
  { s.setMe { s.me with
      longs := s.me.longs ++ [{ id := s.fresh, dest := destX f, answered := true, waiting := 1 }], pc := nextPc s.me f, issuedAt := s.cycle + 1 } with
    net := s.net ++ [{ id := s.fresh + 1, src := s.cur, home := home, addr := 0, body := body }], fresh := s.fresh + 2 }
def Asked (i : Instr) (f : Fields) (s : State) (home : Home) (body : Body) : Prop := exec i s = .next (asking f s home body)

/-- R188, R199: `spawn` and `ln.go`: their checks and the messages they send. -/
def startMessageRules : Prop :=
  ∀ (f : Fields) (s : State), longRoom s.me false = true →
    let r := s.me
    let l := s.launchOf s.myTile
    let x (n : Nat) : Word := readX r n
    let target : BitVec 32 := r.pc + 4 * (immOf f).setWidth 32
    let rm := (r.status.extractLsb' 8 3).toNat
    let fmode := r.status.getLsbD 7
    (Ready (.spawn f) s →
      let c := (x f.c.toNat).toNat
      let tx := c % 32
      let ty := c / 2 ^ 8 % 32
      (l.w ≤ tx ∨ l.h ≤ ty → exec (.spawn f) s = .next (s.takeTrap 17 0 (x f.c.toNat))) ∧
      (tx < l.w → ty < l.h → Asked (.spawn f) f s (.tile (tileAt (l.ox + tx) (l.oy + ty)))
        (.spawn s.fresh target (x f.a.toNat) (x (f.a.toNat + 1)) (x f.b.toNat) (x (f.b.toNat + 1))
          (BitVec.ofNat 64 (l.fx s.myTile + l.fy s.myTile * 256)) rm fmode))) ∧
    (Ready (.lnGo f) s →
      let a := (x f.a.toNat).toNat
      let ox := a % 32
      let oy := a / 2 ^ 8 % 32
      let lw := a / 2 ^ 16 % 8
      let lh := a / 2 ^ 20 % 8
      let good := ox % 2 ^ lw = 0 ∧ oy % 2 ^ lh = 0 ∧ ox + 2 ^ lw ≤ l.w ∧ oy + 2 ^ lh ≤ l.h
      (¬ good → exec (.lnGo f) s = .next (s.takeTrap 6 0 (x f.a.toNat))) ∧
      (good → Asked (.lnGo f) f s (.tile (tileAt (l.ox + ox) (l.oy + oy)))
        (.lnGo s.fresh (s.launchKeyOf s.myTile) ox oy lw lh target (x f.b.toNat) (x f.c.toNat) rm fmode)))

/-- An answered operation of a strand receives its answer. -/
def Answered (s u : State) (src op : Nat) (v : Word) : Prop :=
  (u.strand src).longs = (s.strand src).longs.map fun o => if o.id = op then { o with waiting := 0, data := v.setWidth 2048 } else o

/-- R188, R199, R218: what a start message comes to at its target: a spawn takes the lowest free slot or bounces, from a tile that is full,
saved or being saved, or reserved by a device-side launch or started by one in this cycle; such a launch reserves the idle tiles of its
subfield and starts strand 0 of every one in a cycle that is a multiple of 8, or nothing. It is decided whatever its source has still on the way to that
tile (R252). -/
def startArrivalRules : Prop :=
  ∀ (s : State) (m : Msg), CanonicalTiles s → s.message s.arg.message = some m →
    (∀ t op pc x1 x2 x3 x4 x5 rm fmode, m.home = .tile t → m.body = .spawn op pc x1 x2 x3 x4 x5 rm fmode → rm < 8 → s.slotPassed t = true →
      (s.vf (s.launchOf t).vf).frozen = false →
      let away := (s.tile t).preempt ≠ .running ∧ ∀ d, (s.tile t).preempt ≠ .deferring d
      let gone := (s.tile t).lnGo ≠ none ∨ (s.tile t).lnGoAt = s.cycle + 1
      let isFree (k : Nat) : Prop := (s.strand (t * 8 + k)).run = .free ∧ (s.strand (t * 8 + k)).issuedAt ≠ s.cycle + 1
      (away ∨ gone ∨ (∀ k, k < 8 → ¬ isFree k) → ∃ u, exec .spawnArrival s = .next u ∧ SameMemory s u ∧
        Answered s u m.src op 1 ∧ ∀ i, i ≠ m.src → u.strand i = s.strand i) ∧
      (∀ k, ¬ away → ¬ gone → k < 8 → isFree k → (∀ j, j < k → ¬ isFree j) → m.src ≠ t * 8 + k →
        ∃ u, exec .spawnArrival s = .next u ∧ SameMemory s u ∧ Answered s u m.src op 0 ∧
          Started (s.strand (t * 8 + k)) (u.strand (t * 8 + k)) s.cycle pc [x1, x2, x3, x4, x5] (freshStatus (BitVec.ofNat 3 rm) fmode)
            (s.strand (t * 8 + k)).tvb (s.strand (t * 8 + k)).ovh ((s.launchOf t).tbr.setWidth 64))) ∧
    (∀ op key x y w h pc x1 x2 rm fmode, m.body = .lnGo op key x y w h pc x1 x2 rm fmode → rm < 8 →
      let l := s.launch key
      let tiles (t : Nat) : Prop := ∃ i j, i < 2 ^ w ∧ j < 2 ^ h ∧ t = tileAt (l.ox + x + i) (l.oy + y + j)
      let idle (t : Nat) : Prop := (s.tile t).lnGo = none ∧ ∀ k, k < 8 →
        (s.strand (t * 8 + k)).run = .free ∧ (s.strand (t * 8 + k)).issuedAt ≠ s.cycle + 1
      let mine (t : Nat) : Prop := (s.tile t).lnGo = some m.id
      l.ox + x + 2 ^ w ≤ 32 → (∀ t, tiles t → s.slotPassed t = true ∧ (s.tile t).spawnAt ≠ s.cycle + 1) →
      ((∃ t, tiles t ∧ ¬ idle t) → (∃ t, tiles t ∧ ¬ mine t) → ∃ u, exec .lnGoArrival s = .next u ∧ SameMemory s u ∧ Answered s u m.src op 1 ∧
        ∀ i, i ≠ m.src → u.strand i = s.strand i) ∧
      ((∀ t, tiles t → idle t) → s.cycle % 8 ≠ 0 → ∃ u, exec .lnGoArrival s = .next u ∧ SameMemory s u ∧ u.net = s.net ∧ u.strands = s.strands ∧
        ∀ t, (tiles t → (u.tile t).lnGo = some m.id) ∧ (¬ tiles t → u.tile t = s.tile t)) ∧
      ((∀ t, tiles t → idle t) ∨ (∀ t, tiles t → mine t) → s.cycle % 8 = 0 →
        (∀ t, tiles t → m.src ≠ t * 8 ∧ (s.vf (s.launchOf t).vf).frozen = false) → ∃ u, exec .lnGoArrival s = .next u ∧
        ((∀ t, tiles t → (s.tile t).preempt ≠ .saved) → SameMemory s u) ∧ Answered s u m.src op 0 ∧ ∀ t, tiles t → (u.tile t).lnGo = none ∧
          Started (s.strand (t * 8)) (u.strand (t * 8)) s.cycle pc [x1, x2] (freshStatus (BitVec.ofNat 3 rm) fmode)
            (s.strand (t * 8)).tvb (s.strand (t * 8)).ovh (l.tbr.setWidth 64)))

/-- R190: `halt`: the nesting fault, the hold, the report of a rejected store, then of a failed drain (their order is the model's: log 52),
and the end. -/
def haltRules : Prop :=
  ∀ (f : Fields) (s : State), CanonicalTiles s → Ready (.halt f) s →
    let r := s.me
    let busy := r.longs ≠ [] ∨ (∃ p ∈ r.posted, p.rejected = false ∧ p.old = false) ∨ r.drains ≠ []
    let sound := ∀ p ∈ r.posted, p.rejected = false
    (0 < r.depth → exec (.halt f) s = .next (s.takeTrap 16 r.depth 0)) ∧
    (r.depth = 0 → busy → exec (.halt f) s = .next s) ∧
    (∀ p, r.depth = 0 → ¬ busy → r.posted.find? (fun q => q.rejected) = some p →
      exec (.halt f) s = .next ((s.setMe { r with posted := r.posted.filter fun q => !q.rejected }).takeTrap 10 0 p.addr)) ∧
    (∀ p rest, r.depth = 0 → ¬ busy → sound → r.drainBad = p :: rest →
      exec (.halt f) s = .next ((s.setMe { r with drainBad := [] }).takeTrap 10 0 p.2)) ∧
    (r.depth = 0 → ¬ busy → sound → r.drainBad = [] → ∃ u, exec (.halt f) s = .next u ∧ SameMemory s u ∧
      u.me.run = .free ∧ u.me.ports = [] ∧ u.me.task = none ∧ u.me.tlc = r.tlc ∧ u.me.tlm = r.tlm ∧ u.me.seed = r.seed ∧
      (∀ n, (slotAt (u.tile s.myTile) n).owner ≠ some s.mySlot ∨ 8 ≤ n) ∧
      (r.task = none → u.net = s.net) ∧
      (∀ id, r.task = some id → ∃ m, u.net = s.net ++ [m] ∧ m.src = s.cur ∧
        m.body = .taskEnd (s.launchKeyOf s.myTile) (id % 2 ^ 26) ∧ m.home = .hoist ((s.launchOf s.myTile).cluster (id / 2 ^ 26))))

/-! Halyard barriers and spans. -/

/-- R77, R200, R201: the three instructions on the barrier that a size and an id name at the tile: P in bit 0 and ARR in bit 1. An id above 3,
which R77 counts among the checks of steps 2 to 6, comes before the size. -/
def halyardRules : Prop :=
  ∀ (f : Fields) (s : State), CanonicalTiles s →
    let r := s.me
    let size := readX r f.a.toNat
    let lw := size.toNat % 8
    let lh := size.toNat / 16 % 8
    let l := s.launchOf s.myTile
    let bits (t : State) (n : Nat) : BitVec 2 := mapGet 0 (t.tile n).halyard ((lh * 8 + lw) * 4 + f.imm10.toNat)
    let arr := (bits s s.myTile).getLsbD 1
    let limit (t0 : Word) := t0.toNat + (readX r f.b.toNat).toNat
    (l.lw < lw ∨ l.lh < lh → f.imm10.toNat ≤ 3 →
      (Ready (.hyArrive f) s → exec (.hyArrive f) s = .next (s.takeTrap 6 0 size)) ∧
      (Ready (.hyWait f) s → exec (.hyWait f) s = .next (s.takeTrap 6 0 size)) ∧
      (Ready (.hyTry f) s → exec (.hyTry f) s = .next (s.takeTrap 6 0 size))) ∧
    (3 < f.imm10.toNat → ∀ i, i ∈ [.hyArrive f, .hyWait f, .hyTry f] → Ready i s →
      exec i s = .next (s.takeTrap 1 (readNat (s.tile s.myTile).store r.pc.toNat 4) 0)) ∧
    (lw ≤ l.lw → lh ≤ l.lh → f.imm10.toNat ≤ 3 →
      (Ready (.hyArrive f) s → ∃ u, exec (.hyArrive f) s = .next u ∧ SameMemory s u ∧
        u.me = { r with pc := nextPc r f, issuedAt := s.cycle + 1 } ∧ bits u s.myTile = bits s s.myTile ||| 2 ∧
        ∀ t, t ≠ s.myTile → u.tile t = s.tile t) ∧
      (Ready (.hyTry f) s → WritesX (.hyTry f) f s (if arr then 0 else 1)) ∧
      (Ready (.hyWait f) s → r.hyIssue = none →
        (arr = false → WritesX (.hyWait f) f s 0) ∧
        (arr = true → limit s.dt ≤ s.dt.toNat → WritesX (.hyWait f) f s 1) ∧
        (arr = true → s.dt.toNat < limit s.dt →
          exec (.hyWait f) s = .next (s.setMe { r with hyIssue := some s.dt, hyKey := (lh * 8 + lw) * 4 + f.imm10.toNat, hyPassed := false }))) ∧
      (∀ t0, Ready (.hyWait f) s → r.hyIssue = some t0 →
        let past := r.hyPassed = true
        let out (v : Word) : Prop := exec (.hyWait f) s = .next (s.retire { writeX r f.d.toNat v with hyIssue := none } f)
        (past → out 0) ∧ (¬ past → limit t0 ≤ s.dt.toNat → out 1) ∧
        (¬ past → s.dt.toNat < limit t0 → exec (.hyWait f) s = .next s) ∧
        (¬ past → limit t0 ≤ s.dt.toNat → fetchAct s = .run (.hyWait f) →
          exec .hyWaitTimeout s = .next (s.retire { writeX r f.d.toNat 1 with hyIssue := none } f))))

/-- R200, R201: when every tile of the subfield has arrived, all of them flip P and clear ARR at once, and every `hy.wait` held there has seen
its phase complete; before that nothing happens. -/
def halyardPhaseRules : Prop :=
  ∀ (s : State), CanonicalTiles s →
    let l := s.launchOf s.arg.tile
    let lw := s.arg.lw
    let lh := s.arg.lh
    let key := (lh * 8 + lw) * 4 + s.arg.id
    let bits (t : State) (n : Nat) : BitVec 2 := mapGet 0 (t.tile n).halyard key
    let x0 := (tileX s.arg.tile - l.ox) / 2 ^ lw * 2 ^ lw
    let y0 := (tileY s.arg.tile - l.oy) / 2 ^ lh * 2 ^ lh
    let member (t : Nat) : Prop := ∃ i j, i < 2 ^ lw ∧ j < 2 ^ lh ∧ t = tileAt (l.ox + x0 + i) (l.oy + y0 + j)
    (s.tile s.arg.tile).launch.isSome = true → lw ≤ l.lw → lh ≤ l.lh → s.arg.id < 4 → l.ox + l.w ≤ 32 →
    l.ox ≤ tileX s.arg.tile → tileX s.arg.tile < l.ox + l.w →
    ((∀ t, member t → (bits s t).getLsbD 1 = true) → ∃ u, exec .halyardPhaseComplete s = .next u ∧ SameMemory s u ∧
      (∀ t, member t → bits u t = if (bits s t).getLsbD 0 then 0 else 1) ∧ (∀ t, ¬ member t → u.tile t = s.tile t) ∧
      ∀ i, let r := s.strand i
        (member (i / 8) → r.hyIssue ≠ none → r.hyKey = key → u.strand i = { r with hyPassed := true }) ∧
        (¬ member (i / 8) ∨ r.hyIssue = none ∨ r.hyKey ≠ key → u.strand i = r)) ∧
    ((∃ t, member t ∧ (bits s t).getLsbD 1 = false) → exec .halyardPhaseComplete s = .next s)

/-- R203, R204, R226, R227: opening and closing spans. -/
def spanRules : Prop :=
  ∀ (f : Fields) (s : State), CanonicalTiles s → mapWf {} s.me.spans = true →
    let r := s.me
    let lo := readX r f.a.toNat
    let hi := readX r f.b.toNat
    (Ready (.spanOpen f) s →
      (r.depth = 4 → exec (.spanOpen f) s = .next (s.takeTrap 16 4 0)) ∧
      (r.depth < 4 → hi.toNat < lo.toNat → (0 < r.depth ∨ (s.tile s.myTile).preempt = .running) →
        exec (.spanOpen f) s = .next (s.takeTrap 6 0 lo)) ∧
      (r.depth < 4 → lo.toNat ≤ hi.toNat → (0 < r.depth ∨ (s.tile s.myTile).preempt = .running) →
        ∃ u, exec (.spanOpen f) s = .next u ∧ OnlyMe s u ∧ u.me.depth = r.depth + 1 ∧ u.me.pc = nextPc r f ∧
          mapGet {} u.me.spans r.depth = ⟨s.dt, lo, hi, (r.pc + 4 * (immOf f).setWidth 32).setWidth 64, readX r f.c.toNat⟩ ∧
          (∀ d, d ≠ r.depth → mapGet {} u.me.spans d = mapGet {} r.spans d) ∧
          (∀ d, d < 4 → u.me.hp.getLsbD d = (r.hp.getLsbD d && d != r.depth) ∧ u.me.esc.getLsbD d = (r.esc.getLsbD d && d != r.depth)) ∧
          u.me.x = r.x ∧ u.me.status = r.status) ∧
      (r.depth = 0 → (s.tile s.myTile).preempt ≠ .running → exec (.spanOpen f) s = .next s)) ∧
    (Ready (.spanClose f) s →
      (r.depth = 0 → exec (.spanClose f) s = .next (s.takeTrap 16 0 0)) ∧
      (∀ d, r.depth = d + 1 →
        let p := mapGet {} r.spans d
        (s.dt.toNat < p.openAt.toNat + p.minimum.toNat → exec (.spanClose f) s = .next s) ∧
        (d < 4 → p.openAt.toNat + p.minimum.toNat ≤ s.dt.toNat → ∃ u, exec (.spanClose f) s = .next u ∧ OnlyMe s u ∧ u.me.depth = d ∧
          u.me.pc = nextPc r f ∧ u.me.spans = r.spans ∧ u.me.hp.getLsbD d = false ∧ u.me.esc.getLsbD d = false ∧ u.me.x = r.x)))

/-- R228 to R231, R234: the deadline events: the lowest open level whose deadline has passed enters its handler, escalates, or parks
its strand; a strand saved with a broken mark enters the handler of level 0. -/
def spanEventRules : Prop :=
  ∀ (s : State) (d : Nat), CanonicalTiles s → mapWf {} s.me.spans = true → d < s.me.depth → s.me.depth ≤ 4 →
    let r := s.me
    let level (k : Nat) : Span := mapGet {} r.spans k
    let late (k : Nat) : Prop := (level k).openAt.toNat + (level k).maximum.toNat < 2 ^ 64 ∧
      (level k).openAt.toNat + (level k).maximum.toNat ≤ s.dt.toNat
    let enters (i : Instr) (code k : Nat) (p : Span) (esc : Bool) : Prop := ∃ u, exec i s = .next u ∧ OnlyMe s u ∧
      u.me.pc = (level k).handler.setWidth 32 ∧ u.me.epc = r.pc.setWidth 64 ∧ u.me.cause = causeOf k code ∧ u.me.badaddr = 0 ∧
      u.me.depth = k + 1 ∧ mapGet {} u.me.spans k = p ∧ u.me.run = .running ∧ u.me.x = r.x ∧ u.me.status = r.status ∧
      u.me.hp.getLsbD k = true ∧ u.me.esc.getLsbD k = esc ∧ (∀ j, k < j → j < 4 → u.me.hp.getLsbD j = false) ∧
      (u.me.thr = true ↔ s.mhz < 600)
    let handling (k : Nat) : Span := { level k with openAt := s.dt, minimum := 0, maximum := (level k).bound }
    (late d → (∀ k, k < d → ¬ late k) →
      (r.hp.getLsbD d = false → enters .spanOverrun 11 d (handling d) false) ∧
      (∀ k, d = k + 1 → r.hp.getLsbD d = true → enters .spanEscalation 11 k { level k with minimum := 0 } true) ∧
      (d = 0 → r.hp.getLsbD 0 = true → r.task = none → ∃ u, exec .spanHandlerPark s = .next u ∧ u.me.run = .parked ∧
        u.me.cause = causeOf 11 19 ∧ u.me.epc = r.pc.setWidth 64 ∧ u.me.pc = r.pc ∧ u.me.x = r.x ∧ (u.launchOf s.myTile).faulted = true)) ∧
    (r.broken = true → enters .spanBroken 12 0 (handling 0) false)

/-! Control registers and system calls. -/

/-- R95, R207, R210, R215, R216, R226: what each control register reads as. -/
def controlReadRules : Prop :=
  ∀ (f : Fields) (s : State), Ready (.ctlRd f) s →
    let r := s.me
    let l := s.launchOf s.myTile
    let n := f.imm10.toNat
    let reads (k : Nat) (v : Word) : Prop := n = k → WritesX (.ctlRd f) f s v
    let span (k : Nat) : Span := mapGet {} r.spans k
    reads 0 r.status ∧ reads 1 r.seed ∧ reads 2 r.srcnt ∧ reads 3 (BitVec.ofNat 64 (s.tile s.myTile).xb) ∧ reads 4 r.ovh ∧
    reads 5 r.tvb ∧ reads 6 r.epc ∧ reads 7 r.cause ∧ reads 8 r.badaddr ∧
    reads 9 (BitVec.ofNat 64 (r.depth + r.hp.toNat * 16 + r.esc.toNat * 256 + (if r.thr then 4096 else 0))) ∧
    (∀ k, k < 4 → reads (10 + k) (span k).openAt ∧ reads (14 + k) (span k).minimum ∧ reads (18 + k) (span k).maximum ∧
      reads (22 + k) (span k).handler ∧ reads (26 + k) (span k).bound ∧
      reads (30 + k) ((mapGet (0 : BitVec 16) (s.tile s.myTile).hbase k).setWidth 64)) ∧
    reads 34 (BitVec.ofNat 64 (s.dt36 / 36)) ∧
    reads 35 (BitVec.ofNat 64 (l.fx s.myTile + l.fy s.myTile * 2 ^ 8 + tileX s.myTile * 2 ^ 16 + tileY s.myTile * 2 ^ 24 +
      s.mySlot * 2 ^ 32 + clusterOf s.myTile * 2 ^ 40 + dieOf s.myTile * 2 ^ 48)) ∧
    reads 36 (BitVec.ofNat 64 (l.ox + l.oy * 2 ^ 8 + l.lw * 2 ^ 16 + l.lh * 2 ^ 20 + l.number.toNat * 2 ^ 32)) ∧
    reads 37 (BitVec.ofNat 64 (deliver (ffmt 16 false) 0 false 0 (.fin false l.tolM l.tolE false)).1) ∧ reads 38 r.tbr

/-- R37, R52, R210: what a write of each writable control register leaves; STATUS clears the flags that are written as ones. -/
def controlWriteRules : Prop :=
  ∀ (f : Fields) (s : State), CanonicalTiles s → Ready (.ctlWr f) s →
    let r := s.me
    let v := readX r f.a.toNat
    let n := f.imm10.toNat
    let writes (t : Strand) : Prop := exec (.ctlWr f) s = .next (s.retire t f)
    let rm := v.toNat / 256 % 8
    (n = 0 → 6 ≤ rm → exec (.ctlWr f) s =
      .next (s.takeTrap 1 (bytesToNat (readBytes (s.tile s.myTile).store r.pc.toNat 4)) 0)) ∧
    (n = 0 → rm < 6 → ∃ w : Word, writes { r with status := w } ∧ ∀ j, j < 64 → w.getLsbD j =
      if j < 5 ∨ j = 11 then r.status.getLsbD j && !v.getLsbD j else decide (7 ≤ j ∧ j < 11) && v.getLsbD j) ∧
    (n = 1 → writes { r with seed := v }) ∧ (n = 2 → writes { r with srcnt := v }) ∧
    (n = 4 → writes { r with ovh := (v.setWidth 32).setWidth 64 &&& ~~~ 3#64 }) ∧
    (n = 5 → writes { r with tvb := (v.setWidth 32).setWidth 64 &&& ~~~ 63#64 }) ∧
    (n = 6 → writes { r with epc := (v.setWidth 32).setWidth 64 &&& ~~~ 3#64 }) ∧
    (n = 38 → writes { r with tbr := (v.setWidth 32).setWidth 64 }) ∧
    (∀ k, k < 4 → n = 30 + k → ∃ u, exec (.ctlWr f) s = .next u ∧ SameMemory s u ∧
      u.me = { r with pc := nextPc r f, issuedAt := s.cycle + 1 } ∧
      ∀ j, mapGet (0 : BitVec 16) (u.tile s.myTile).hbase j = if j = k then v.setWidth 16 else mapGet 0 (s.tile s.myTile).hbase j)

/-- R209, R322: the services: their answers are on their way to x[D]; `post` writes an event record that holds the value and the strand. That nothing is
written where WR or RD of the queue is uncorrectable, or the record's channel retired, is the model's choice (log 45). -/
def systemCallRules : Prop :=
  ∀ (f : Fields) (s : State), CanonicalTiles s → longRoom s.me false = true → s.cur < 2 ^ 13 →
    let a := readX s.me f.a.toNat
    let v := s.vf (s.launchOf s.myTile).vf
    let answers (i : Instr) (w : Word) : Prop := Ready i s → exec i s = .next (s.startLong s.me f
      { id := 0, dest := destX f, answered := true, data := w.setWidth 2048 })
    answers (.sysCallEcho f) a ∧ answers (.sysCallTablegen f) (BitVec.ofNat 64 v.tableGen) ∧
    answers (.sysCallDefer f) (BitVec.ofNat 64 v.defer) ∧ answers (.sysCallOwned f) v.clusters ∧
    answers (.sysCallUnassigned f) (BitVec.allOnes 64) ∧
    (Ready (.sysCallPost f) s → ∃ u w, exec (.sysCallPost f) s = .next u ∧
      u.me = { s.me with longs := s.me.longs ++ [{ id := s.fresh, dest := destX f, answered := true, data := w }],
                         pc := nextPc s.me f, issuedAt := s.cycle + 1 } ∧
      let q := v.evq.toNat
      let wr := readNat s.mem q 8
      let rd := readNat s.mem (q + 8) 8
      (s.lostAt q 16 ≠ none → w = 1) ∧
      ((BitVec.ofNat 64 wr - BitVec.ofNat 64 rd).toNat < 4096 → s.mem.wf = true → s.lostAt q 16 = none → w = 0 ∧
        (let slot := q + 64 + 32 * (wr % 4096)
         s.lostChannel slot = false → readNat u.mem (slot + 16) 8 = a.toNat ∧ readNat u.mem (slot + 24) 8 = s.dt.toNat ∧ readNat u.mem (slot + 8) 8 = s.cur ∧
         readBytes u.mem (slot + 7) 1 = [9])) ∧
      (4096 ≤ (BitVec.ofNat 64 wr - BitVec.ofNat 64 rd).toNat → w = 1))

/-! Homes, acknowledgments and results. -/

/-- Every table and every memory of the package is in canonical form. -/
abbrev Canonical (s : State) : Prop :=
  CanonicalTiles s ∧ mapWf {} s.clusters = true ∧ (∀ p ∈ s.clusters, mapWf {} p.2.tasks = true) ∧ mapWf {} s.launches = true ∧
  mapWf {} s.vfs = true ∧ mapWf {} s.links = true ∧ s.mem.wf = true ∧ s.remote.wf = true ∧ s.hostMem.wf = true

/-- The memory of a home, and where an address of it lies there: log 13 places the bytes of remote devices. -/
def placeOf : Home → Nat → Space × Nat
  | .tile t, a => (.store t, a)
  | .channel _, a => (.device, a)
  | .fabric d, a => (.remote, d * 2 ^ 64 + a)
  | .hoist _, a => (.device, a)

/-- `n` bytes at a home. -/
def bytesAt (s : State) (h : Home) (a n : Nat) : List Byte := (List.range n).map fun j => readCell s (placeOf h a).1 ((placeOf h a).2 + j)

/-- Every byte but the `n` at a home reads as before. -/
def OnlyBytesAt (s u : State) (h : Home) (a n : Nat) : Prop :=
  ∀ m c, (m = (placeOf h a).1 → c < (placeOf h a).2 ∨ (placeOf h a).2 + n ≤ c) → readCell u m c = readCell s m c

/-- R241, R253, R363: a request that its home may serve next and performs: in one page, not diverted, not refused; with no page to log and no race
ring. -/
abbrev Served (s : State) (m : Msg) : Prop :=
  s.message s.arg.message = some m ∧ s.mayServe m = true ∧ m.cut = none ∧ (∀ c, m.home ≠ .hoist c) ∧ m.home ≠ .fabric 65536 ∧
  s.refusal m (s.arg.refused || s.unsent m) = none ∧ m.leaf = none ∧ s.badWords = [] ∧
  ∀ t, m.home = .tile t → s.diverts t = false ∧ (s.tile t).race = false

/-- Messages without the marks by which their homes are fair (R222). -/
abbrev unmarked (ms : List Msg) : List Msg := ms.map fun n => { n with passed := [] }

/-- The message is gone, and every other one is as it was. -/
abbrev Gone (s u : State) (m : Msg) : Prop := unmarked u.net = unmarked (s.net.filter fun n => n.id != m.id)

/-- The request is gone, and an acknowledgment is on its way to its strand. -/
def AckedTo (s u : State) (m : Msg) (post : Nat) (rejected task : Bool) : Prop :=
  Gone s u m ∧ u.acks = s.acks ++ [⟨s.fresh, m.src, post, rejected, task⟩]

/-- R160, R218, R222, R241, R247: what a home does not serve yet: a request behind an earlier one of its source; one to a tile whose own
slot of the cycle is still to come; a line fill, and a writeback, behind an earlier writeback of the line by the same tile; a source that was served before while
another source's earliest request waits; and which requests see a service: those that have arrived (log 33). Messages that start strands order nothing
(R252), and a message to another device may enter its port meanwhile. -/
def serviceOrderRules : Prop :=
  ∀ (s : State) (m : Msg), s.message s.arg.message = some m →
    let waits := s.entersPort m = none → exec .homeRequestService s = .next s
    let starts (n : Msg) : Prop := (∃ op pc a b c d e rm fm, n.body = .spawn op pc a b c d e rm fm) ∨ ∃ op k x y w h pc a b rm fm, n.body = .lnGo op k x y w h pc a b rm fm
    (∀ before n after, s.net = before ++ n :: after → n.src = m.src → n.home = m.home → ¬ starts n → (∀ k ∈ before, k.id ≠ m.id) → n.id ≠ m.id → waits) ∧
    (∀ t, m.home = .tile t → s.cursor ≤ t → (s.strand (t * 8 + s.cycle % 8)).run ≠ .free → waits) ∧
    (∀ op tag line takes n p data mask, m.body = .fill op tag line takes → n ∈ s.net → n.src / 8 = m.src / 8 → n.home = m.home → n.id < m.id →
      n.addr = m.addr → m.cut = none → n.cut = none → n.body = .writeback p data mask → waits) ∧
    (∀ n p data mask p' data' mask', m.body = .writeback p data mask → n ∈ s.net → n.src / 8 = m.src / 8 → n.home = m.home → n.id < m.id →
      n.addr = m.addr → m.cut = none → n.cut = none → n.body = .writeback p' data' mask' → waits) ∧
    (∀ n t, m.home = .tile t → n ∈ s.net → n.home = m.home → m.src ∈ n.passed → s.lineHeld n = false → waits) ∧
    (s.mayServe m = true → s.diverts (m.src / 8) = false → ∀ n, n ∈ s.net → n.home = m.home → n.src ≠ m.src → n.body.isAccess = true →
      s.firstOf n = true → n.id ≠ m.id → (∀ t, m.home = .tile t → s.diverts t = false) → ∃ u k, exec .homeRequestService s = .next u ∧ k ∈ u.net ∧
        k.id = n.id ∧ (n.id ∉ s.arg.late → m.src ∈ k.passed) ∧ (n.id ∈ s.arg.late → n.passed = [] → k.passed = []))

/-- R160, R163, R164, R167, R170, R241, R247: what a home does with the request that it serves next. A line fill brings the home's bytes, under
those that a writeback of the line by the same tile, still on its way, has taken there. -/
def serviceRules : Prop :=
  ∀ (s : State) (m : Msg), Canonical s → Served s m →
    let answers (u : State) (op : Nat) (g : LongOp → LongOp) : Prop := Gone s u m ∧ u.acks = s.acks ∧
      (u.strand m.src).longs = (s.strand m.src).longs.map fun o => if o.id = op then g o else o
    (∀ op pos size units, m.body = .read op pos size 0 units → ∃ u, exec .homeRequestService s = .next u ∧ SameMemory s u ∧
      answers u op fun o => { o with waiting := o.waiting - 1, data := putData o.data pos (bytesAt s m.home m.addr size) }) ∧
    (∀ p kind bytes, m.body = .write p kind bytes → ∃ u, exec .homeRequestService s = .next u ∧ AckedTo s u m p false false ∧
      bytesAt u m.home m.addr bytes.length = bytes ∧ OnlyBytesAt s u m.home m.addr bytes.length) ∧
    (∀ p bytes want, m.body = .writeCmp p bytes want → bytes.length = want.length → ∃ u, exec .homeRequestService s = .next u ∧
      AckedTo s u m p false false ∧ OnlyBytesAt s u m.home m.addr bytes.length ∧
      bytesAt u m.home m.addr bytes.length =
        if bytesAt s m.home m.addr bytes.length = want then bytes else bytesAt s m.home m.addr bytes.length) ∧
    (∀ p data mask, m.body = .writeback p data mask → ∃ u, exec .homeRequestService s = .next u ∧ AckedTo s u m p false false ∧
      OnlyBytesAt s u m.home m.addr 128 ∧ ∀ j, j < 128 → readCell u (placeOf m.home m.addr).1 ((placeOf m.home m.addr).2 + j) =
        if mask.getLsbD j then data.extractLsb' (8 * j) 8 else readCell s (placeOf m.home m.addr).1 ((placeOf m.home m.addr).2 + j)) ∧
    (∀ op sub fmt b c, m.body = .atomic op sub fmt b c → sub < 8 → fmt ∈ [4, 5, 6, 7] → ∃ u, exec .homeRequestService s = .next u ∧
      let z := fmtWidth fmt / 8
      let old := bytesToNat (bytesAt s m.home m.addr z)
      OnlyBytesAt s u m.home m.addr z ∧ bytesAt u m.home m.addr z = natToBytes z (atomicValue sub fmt old b c) ∧
      answers u op fun o => { o with waiting := o.waiting - 1, data := BitVec.ofNat 2048 old, flags := 0 }) ∧
    (∀ op fmt b c, m.body = .atomic op 8 fmt b c → fmt ∈ [10, 11, 12] → ∃ u, exec .homeRequestService s = .next u ∧
      let z := fmtWidth fmt / 8
      let old := bytesToNat (bytesAt s m.home m.addr z)
      let y := deliver (ffmt fmt false) 0 false 0 (addVal 0 (readFloat (ffmt fmt false) old) (readFloat (ffmt fmt false) b))
      OnlyBytesAt s u m.home m.addr z ∧ bytesAt u m.home m.addr z = natToBytes z y.1 ∧
      answers u op fun o => { o with waiting := o.waiting - 1, data := BitVec.ofNat 2048 old, flags := y.2 }) ∧
    (∀ op fmt b c, m.body = .atomic op 9 fmt b c → ∃ u, exec .homeRequestService s = .next u ∧
      let old := bytesToNat (bytesAt s m.home m.addr 16)
      OnlyBytesAt s u m.home m.addr 16 ∧ bytesAt u m.home m.addr 16 = natToBytes 16 (if old = b then c else old) ∧
      answers u op fun o => { o with waiting := o.waiting - 1, data := BitVec.ofNat 2048 old, flags := 0 }) ∧
    (∀ op tag line takes, m.body = .fill op tag line takes → s.diverts (m.src / 8) = false → ∃ u, exec .homeRequestService s = .next u ∧
      SameMemory s u ∧
      (answers u op fun o => takes.foldl (fun o t => { o with data := putData o.data t.1 (bytesAt s m.home (m.addr + t.2.1) t.2.2) })
        { o with waiting := o.waiting - 1, data := putData o.data 0 [] }) ∧
      let holds (data : Nat → Byte) : Prop := ∃ k, l1Find (u.tile (m.src / 8)) tag (line * 128) = some k ∧ k.valid = BitVec.allOnes 128 ∧
        ∀ j, j < 128 → k.data.extractLsb' (8 * j) 8 = data j
      let here (j : Nat) : Byte := (bytesAt s m.home (m.addr + j) 1).headD 0
      let fills (byte : Nat → Byte) : Prop :=
        (l1Find (s.tile (m.src / 8)) tag (line * 128) = none → (s.tile (m.src / 8)).l1.length < (s.tile (m.src / 8)).l1Lines → holds byte) ∧
        (∀ l, l1Find (s.tile (m.src / 8)) tag (line * 128) = some l →
          holds fun j => if l.dirty.getLsbD j then l.data.extractLsb' (8 * j) 8 else byte j)
      let quiet (n : Msg) : Prop := n.line = false ∧ ∀ p d k, n.body ≠ .writeback p d k
      let same (n : Msg) : Prop := n ∈ s.net ∧ n.id ≠ m.id ∧ n.src / 8 = m.src / 8 ∧ m.home ∈ n.homes
      ((∀ n, same n → quiet n) → fills here) ∧
      (∀ n p data mask, same n → n.home = m.home → n.addr = m.addr → n.body = .writeback p data mask → (∀ k, same k → k ≠ n → quiet k) →
        fills fun j => if mask.getLsbD j then data.extractLsb' (8 * j) 8 else here j))

/-- R242, R308, R309: an access that goes on in another page is one event still: its homes perform all of it, each part at its own translation. -/
def cutServiceRules : Prop :=
  ∀ (s : State) (m : Msg) (n : Nat) (q : Spot), Canonical s → s.message s.arg.message = some m → s.mayServe m = true → m.cut = some (n, q) →
    (∃ c, m.home = .channel c) → (∃ c, q.home = .channel c) → s.refusal m false = none → s.arg.refused = false → m.leaf = none → q.leaf = none → s.badWords = [] →
    (∀ op pos size, m.body = .read op pos size 0 1 → n < size → ∃ u, exec .homeRequestService s = .next u ∧ SameMemory s u ∧ Gone s u m ∧
      (u.strand m.src).longs = (s.strand m.src).longs.map fun o => if o.id = op then
        { o with waiting := o.waiting - 1, data := putData o.data pos (bytesAt s m.home m.addr n ++ bytesAt s q.home q.addr (size - n)) } else o) ∧
    (∀ p kind bytes, m.body = .write p kind bytes → n < bytes.length → (q.addr + bytes.length ≤ m.addr + n ∨ m.addr + n ≤ q.addr) →
      ∃ u, exec .homeRequestService s = .next u ∧ AckedTo s u m p false false ∧
        bytesAt u m.home m.addr n = bytes.take n ∧ bytesAt u q.home q.addr (bytes.length - n) = bytes.drop n ∧
        ∀ x c, (x = .device → (c < m.addr ∨ m.addr + n ≤ c) ∧ (c < q.addr ∨ q.addr + (bytes.length - n) ≤ c)) → readCell u x c = readCell s x c)

/-- R163, R315, R361, R363: an access whose page was withdrawn, whose channel was retired or lost to its VF, or that finds another
launch's tile, is not performed: a store is rejected, and a load is answered with uncorrectable data. A conditional store that would compare an
uncorrectable word freezes its strand, and nothing is written (R353, R358). -/
def refusalRules : Prop :=
  ∀ (s : State) (m : Msg), Canonical s → s.message s.arg.message = some m → s.mayServe m = true →
    (∀ t p bytes want kind a, m.home = .tile t → m.cut = none → s.diverts t = false → (s.tile t).launch = (s.tile (m.src / 8)).launch →
      (s.strand m.src).run.ended = false → m.body = .writeCmp p bytes want → badFrom s.badWords (localPa t m.addr) bytes.length = some (kind, a) →
      ∃ u, exec .homeRequestService s = .next u ∧ (u.strand m.src).run = .frozen ∧ (u.tile t).store = (s.tile t).store) ∧
    ((∃ c, m.home = .channel c ∧ (m.withdrawn = true ∨ s.retired.getLsbD c = true ∨ ∃ g, m.tag = some g ∧ s.reaches (g / 8) m.addr = false)) ∨
      (∃ t, m.home = .tile t ∧ s.diverts t = false ∧ (s.tile t).launch ≠ (s.tile (m.src / 8)).launch) →
    (∀ p kind bytes, m.body = .write p kind bytes →
      ∃ u, exec .homeRequestService s = .next u ∧ SameMemory s u ∧ AckedTo s u m p true false) ∧
    (∀ op pos size units, m.body = .read op pos size 0 units → ∃ u, exec .homeRequestService s = .next u ∧ SameMemory s u ∧
      ∀ o ∈ (u.strand m.src).longs, o.id = op → o.bad ≠ none) ∧
    (∀ op sub fmt x c, m.body = .atomic op sub fmt x c → ∃ u, exec .homeRequestService s = .next u ∧ SameMemory s u ∧
      ∀ o ∈ (u.strand m.src).longs, o.id = op → o.bad ≠ none))

/-- R255, R256: with a race ring, what another tile writes, a store, a vector store, a release or an atomic, is recorded in it after it is performed, and
so is a conditional store that writes nothing. -/
def raceRingRules : Prop :=
  ∀ (s : State) (m : Msg) (t : Nat), Canonical s → s.message s.arg.message = some m → s.mayServe m = true → m.home = .tile t → m.cut = none →
    (s.tile t).launch = (s.tile (m.src / 8)).launch → m.src / 8 ≠ t → s.diverts t = false → (s.tile t).race = true → m.src < 2 ^ 13 → m.addr < 2 ^ 20 →
    let n := (s.tile t).raceSeq.toNat
    let logs (kind z : Nat) : Prop := ∃ u, exec .homeRequestService s = .next u ∧ (u.tile t).raceSeq = (s.tile t).raceSeq + 1 ∧
      readNat (u.tile t).store ((s.tile t).ringBase + 16 * (n % 256)) 16 =
        m.addr + (m.src / 8) * 2 ^ 44 + (m.src % 8) * 2 ^ 54 + Nat.log2 z * 2 ^ 57 + kind * 2 ^ 61 + (s.dt.toNat % 2 ^ 32) * 2 ^ 64 + n * 2 ^ 96
    (∀ p kind bytes, m.body = .write p kind bytes → kind < 8 → bytes.length ∈ [1, 2, 4, 8, 256] → logs kind bytes.length) ∧
    (∀ p bytes want, s.badWords = [] → m.body = .writeCmp p bytes want → bytes.length ∈ [1, 2, 4, 8] →
      logs (if readBytes (s.tile t).store m.addr bytes.length = want then 4 else 5) bytes.length) ∧
    (∀ op sub fmt x c, s.badWords = [] → m.body = .atomic op sub fmt x c → (sub < 9 ∧ fmt ∈ [4, 5, 6, 7, 10, 11, 12]) ∨ sub = 9 →
      logs 6 (if sub = 9 then 16 else fmtWidth fmt / 8))

/-- R253, R323: from a tile's save instant on what comes for it, a request, an acknowledgment or the result of an operation, waits in its
spill queue in the save area; where the queue is full it waits outside. -/
def diversionRules : Prop :=
  ∀ (s : State) (t : Nat), Canonical s → s.diverts t = true →
    let joins (i : Instr) (x : Spilled) (gone : State → Prop) : Prop :=
      (2048 ≤ (s.tile t).spill.length → exec i s = .next s) ∧
      ((s.tile t).spill.length < 2048 → ∃ u, exec i s = .next u ∧ (u.tile t).spill = (s.tile t).spill ++ [x] ∧ u.strands = s.strands ∧ gone u ∧
        let a := s.saveBase t + 704512 + 320 * (s.tile t).spill.length
        ∀ m c, (m = .device → c < a ∨ a + 320 ≤ c) → readCell u m c = readCell s m c)
    (∀ m, s.message s.arg.message = some m → s.mayServe m = true → m.home = .tile t →
      joins .homeRequestService (.request m) fun u => Gone s u m ∧ u.acks = s.acks) ∧
    (∀ a, s.acks.find? (fun b => b.id == s.arg.message && b.task == false) = some a → a.src / 8 = t →
      joins .storeAcknowledgment (.ack a) fun u => u.net = s.net ∧ u.acks = s.acks.filter fun b => b.id != a.id) ∧
    (∀ o, s.arg.tile = t → (s.strand (argStrand s)).longs.find? (fun o => o.id == s.arg.op && o.waiting == 0 && (!o.answered && !o.atomic)) = some o →
      Spilled.result (s.arg.slot % 8) o.id ∉ (s.tile t).spill →
      joins .longResultWrite (.result (s.arg.slot % 8) o.id) fun u => u.net = s.net ∧ u.acks = s.acks)

/-- The outstanding operation that an event names: answered in full, on a tile that is not saved or being saved. -/
abbrev Returned (s : State) (o : LongOp) : Prop :=
  o ∈ (s.strand (argStrand s)).longs ∧ o.id = s.arg.op ∧ o.waiting = 0 ∧ s.diverts s.arg.tile = false ∧
  ∀ k ∈ (s.strand (argStrand s)).longs, k.id = s.arg.op → k = o

/-- R21, R39, R48, R157, R167, R170, R186, R343: a result reaches its register, its flags reach STATUS, and the register is pending no more;
an addition that overflowed LA sets LAOVF; the members of a replica load are summed. Uncorrectable data freezes the strand instead, with a
violation record (R354, R358). -/
def resultRules : Prop :=
  ∀ (s : State) (o : LongOp), CanonicalTiles s → Returned s o →
    let who := argStrand s
    let r := { s.strand who with longs := (s.strand who).longs.filter fun k => k.id != o.id }
    let sum (c : Nat) : Nat × Flags := match o.members.map fun m => m.toNat % 2 ^ fmtWidth c with
      | x :: xs => if isFloatFmt c then
          let F := ffmt c (r.status.getLsbD 7)
          deliver F 0 false 0 ((xs.map (readFloat F)).foldl (addVal 0) (readFloat F x))
        else ((x :: xs).sum % 2 ^ fmtWidth c, 0)
      | [] => (0, 0)
    let frozen (i : Instr) : Prop := ∀ k a, o.bad = some (k, a) → r.run = .running → r.task = none → mapWf 0 s.trust.ring = true → k < 256 →
      a < 2 ^ 64 → s.arg.tile < 1024 → ∃ u, exec i s = .next u ∧ (u.strand who).run = .frozen ∧ (u.strand who).x = r.x ∧
        (u.strand who).v = r.v ∧ u.trust.seq = s.trust.seq + 1 ∧
        let item := (mapGet (0 : BitVec 256) u.trust.ring (s.trust.seq % 1024)).toNat
        item / 2 ^ 192 = s.dt.toNat ∧ item / 2 ^ 128 % 2 ^ 64 = a ∧ item / 2 ^ 96 % 2 ^ 8 = k ∧ item / 2 ^ 80 % 2 ^ 8 = 0 ∧
        item / 2 ^ 64 % 2 ^ 16 = who
    let writes (i : Instr) : Prop := o.bad = none → o.members = [] → o.acquire = none → ∃ u r', exec i s = .next u ∧ SameMemory s u ∧
      u.strand who = { r' with status := r'.status ||| o.flags.setWidth 64 } ∧ (∀ j, j ≠ who → u.strand j = s.strand j) ∧
      (∀ n, o.dest = .x n → r' = writeX r n (match o.finish with
        | .scalar c => loadedValue c o.data.toNat
        | _ => o.data.setWidth 64)) ∧
      (∀ n, o.dest = .xPair n → n ≠ 0 → r' = writeX (writeX r n (o.data.setWidth 64)) (n + 1) (o.data.extractLsb' 64 64)) ∧
      (∀ n, o.dest = .v n → (∀ a b, o.finish ≠ .lanes a b) → r' = writeV r n o.data) ∧
      (∀ n a base, o.dest = .v n → o.finish = .lanes a base → ∃ v, r' = writeV r n v ∧
        ∀ j, j < 64 → elemAt 32 v j = if a.getLsbD j then elemAt 32 o.data j else elemAt 32 base j) ∧
      (o.dest = .la → r'.la = o.data.setWidth 384 ∧ r'.laCarry = o.data.extractLsb' 384 80 ∧ r'.x = r.x ∧
        r'.status = if o.data.getLsbD 464 then r.status ||| 2048 else r.status) ∧ (o.dest = .none → r' = r)
    (o.answered = false → o.atomic = false → writes .longResultWrite ∧ frozen .longResultWrite ∧
      (∀ n c, o.bad = none → o.acquire = none → o.members ≠ [] → o.dest = .x n → o.finish = .scalar c →
        ∃ u, exec .longResultWrite s = .next u ∧ SameMemory s u ∧ u.strand who =
          let r' := writeX r n (loadedValue c (sum c).1)
          { r' with status := r'.status ||| (o.flags ||| (sum c).2).setWidth 64 }) ∧
      (∀ scope, o.acquire = some scope → 1 ≤ scope → o.bad = none → o.members = [] → ∃ u, exec .longResultWrite s = .next u ∧
        ∀ l ∈ (u.tile s.arg.tile).l1, l.valid &&& ~~~ l.dirty = 0)) ∧
    (o.atomic = true → writes .atomicAcknowledgment ∧ frozen .atomicAcknowledgment) ∧ (o.answered = true → writes .answerReturn)

/-- R163, R197: an acknowledgment ends the wait for its store or task message; a rejection stays to be reported while the strand that it is charged to
runs. -/
def acknowledgmentRules : Prop :=
  ∀ (s : State) (a : Ack), CanonicalTiles s → s.acks.find? (fun b => b.id == s.arg.message && b.task == a.task) = some a →
    s.diverts (a.src / 8) = false →
    let r := s.strand a.src
    let i : Instr := if a.task then .taskMessageAcknowledgment else .storeAcknowledgment
    ∃ u, exec i s = .next u ∧ SameMemory s u ∧ u.acks = s.acks.filter (fun b => b.id != a.id) ∧
      let past := ∃ p ∈ r.posted, p.id = a.post ∧ p.old = true
      (a.rejected = false ∨ r.run = .free ∨ past → (u.strand a.src).posted = r.posted.filter fun p => p.id != a.post) ∧
      (a.rejected = true → r.run ≠ .free → ¬ past →
        (u.strand a.src).posted = r.posted.map fun p => if p.id = a.post then { p with rejected := true } else p) ∧
      (u.strand a.src).x = r.x ∧ (u.strand a.src).run = r.run

/-- R22, R309, R310, R353: the end of a miss: the cluster's cache has the entry, or the strand joins a queue; a walker works on the first walk
of its queue, and the others wait; the walk, a strand's own or one that an element of its engine work waits for, delivers the entry to both caches for
every strand and element of the die that misses on the page, leaves a fault to their next presentation, or freezes the strands where it ends outside
their VF's reach, or at an uncorrectable table entry (the last is the model's choice: log 40). -/
def walkEndRules : Prop :=
  ∀ (s : State) (w : Walk), CanonicalTiles s → mapWf {} s.clusters = true →
    let who := argStrand s
    let own := s.arg.far = false
    (if own then (s.strand who).walk else (s.strand who).engineWalks[s.arg.op]?) = some w → w.failed = false → w.barred = none →
    let held := s.tlbHit (s.cluster (clusterOf s.arg.tile)).tlb w.tag w.va
    let like (v : Walk) : Prop := v.failed = false ∧ v.barred = none ∧ v.tag = w.tag ∧ v.pool = w.pool
    let misses (i : Nat) (v : Walk) : Prop := (s.strand i).walk = some v ∧ like v ∧ dieOf (i / 8) = dieOf s.arg.tile
    let first := w.walker ≠ none ∧ (∀ v ∈ s.walksOf (dieOf s.arg.tile), v.walker = w.walker → w.stamp ≤ v.stamp) ∧ (own → held = none)
    (∀ e, own → held = some e → ∃ u, exec .walkComplete s = .next u ∧ SameMemory s u ∧ (u.strand who).walk = none ∧ e ∈ (u.tile s.arg.tile).tlb ∧
      u.clusters = s.clusters) ∧
    ((own → held = none) → w.walker ≠ none → ¬ first → exec .walkComplete s = .next s) ∧
    (own → held = none → w.walker = none → ∃ u v, exec .walkComplete s = .next u ∧ SameMemory s u ∧ u.strand who = { s.strand who with walk := some v } ∧
      v.tag = w.tag ∧ v.va = w.va ∧ v.walker ≠ none) ∧
    (∀ e, first → s.walk w.tag w.va w.pool = .leaf e → ∃ u, exec .walkComplete s = .next u ∧ SameMemory s u ∧
      e ∈ (u.tile s.arg.tile).tlb ∧ (own → (u.strand who).walk = none) ∧
      let found (v : Walk) : Prop := like v ∧ v.va / 2 ^ e.bits = w.va / 2 ^ e.bits ∧ s.reaches (w.tag / 8) (e.pa + v.va % 2 ^ e.bits) w.pool = true
      (∀ i v, misses i v → found v → (u.strand i).walk = none ∧ e ∈ (u.tile (i / 8)).tlb ∧ e ∈ (u.cluster (clusterOf (i / 8))).tlb) ∧
      (∀ i, dieOf (i / 8) = dieOf s.arg.tile → ∀ c ∈ (u.strand i).copies, ∀ v, c.walk = some v → ¬ found v)) ∧
    (first → s.walk w.tag w.va w.pool = .fault → ∃ u, exec .walkComplete s = .next u ∧ SameMemory s u ∧ u.tiles = s.tiles ∧
      (own → (u.strand who).walk = some { w with failed := true }) ∧
      (∀ i v, misses i v → v.va / 65536 = w.va / 65536 → (u.strand i).walk = some { v with failed := true }) ∧
      (∀ i, dieOf (i / 8) = dieOf s.arg.tile → ∀ c ∈ (s.strand i).copies, ∀ v, c.walk = some v → like v → v.va / 65536 = w.va / 65536 →
        { c with walk := some { v with failed := true } } ∈ (u.strand i).copies)) ∧
    (∀ kind a, first → (s.walk w.tag w.va w.pool = .violation ∧ kind = 1) ∨ s.walk w.tag w.va w.pool = .lost kind a → ∃ u, exec .walkComplete s = .next u ∧
      (own → (s.strand who).run = .running → s.trust.seq < u.trust.seq) ∧
      ∀ i v, (own ∧ i = who ∧ v = w) ∨ (misses i v ∧ v.va / 65536 = w.va / 65536) → (s.strand i).run = .running → (s.strand i).task = none →
        (u.strand i).run = .frozen ∧ (u.strand i).x = (s.strand i).x ∧ (u.strand i).epc = (s.strand i).pc.setWidth 64)

/-! Tasks and hoists. -/

/-- R192, R195: a gain that a task instruction refuses: NaN, infinite, or below −0; and −0 as it is stored. -/
abbrev GainBad (b : Word) : Prop := 0x7F800000 ≤ b.toNat % 2 ^ 31 ∨ (b.getLsbD 31 = true ∧ b.toNat % 2 ^ 31 ≠ 0)
def gainStored (b : Word) : Nat := if b.toNat % 2 ^ 32 = 2 ^ 31 then 0 else b.toNat % 2 ^ 32

/-- R282: whether task i with a key comes before task j: larger gains first, or earlier deadlines; ties go to the lower id. -/
abbrev Before (deadline : Bool) (k i k' i' : Nat) : Prop :=
  if deadline then k < k' ∨ (k = k' ∧ i < i') else k' < k ∨ (k = k' ∧ i < i')

/-- No VF has been frozen since: a hoist's access to device memory that ends outside its VF's reach, or meets uncorrectable data, freezes it (R309, R353;
log 38). -/
abbrev NoFreeze (s u : State) : Prop := ∀ v, (u.vf v).frozen = (s.vf v).frozen

/-- R280: KEY of a record, where its page is mapped, not logged, and in no retired channel. -/
abbrev KeyIs (s u : State) (l : Launch) (id key : Nat) : Prop :=
  ∀ e, s.walk l.tag (s.recordVa l id) = .leaf e → e.log = false → s.lostChannel (e.pa + s.recordVa l id % 2 ^ e.bits) = false →
    readNat u.mem (e.pa + s.recordVa l id % 2 ^ e.bits) 8 = key % 2 ^ 64

/-- R191, R193, R198: `tk.wait` and `tk.done`. -/
def taskStateRules : Prop :=
  ∀ (f : Fields) (s : State), CanonicalTiles s →
    let r := s.me
    let l := s.launchOf s.myTile
    (Ready (.tkWait f) s →
      (∀ id, r.task = some id → exec (.tkWait f) s = .next (s.takeTrap 21 0 0)) ∧
      (r.task = none → l.tasks = none ∨ l.term = .closed → exec (.tkWait f) s = .next (s.retire (writeX r 1 (BitVec.allOnes 64)) f)) ∧
      (r.task = none → l.tasks ≠ none → l.term ≠ .closed →
        exec (.tkWait f) s = .next (s.setMe { r with run := .waiting, waitAt := s.cycle, issuedAt := s.cycle + 1 }))) ∧
    (Ready (.tkDone f) s →
      (r.task = none → exec (.tkDone f) s = .next (s.takeTrap 21 0 0)) ∧
      (∀ id, r.task = some id → ∃ u, exec (.tkDone f) s = .next u ∧ SameMemory s u ∧
        u.me = { r with task := none, pc := nextPc r f, issuedAt := s.cycle + 1 } ∧
        u.net = s.net ++ [{ id := s.fresh, src := s.cur, home := .hoist (l.cluster (id / 2 ^ 26)), addr := 0,
                            body := .taskEnd (s.launchKeyOf s.myTile) (id % 2 ^ 26) }]))

/-- R192, R195 to R198: the task instructions that name an id: their checks in order, and the messages that they send to the id's home. -/
def taskMessageRules : Prop :=
  ∀ (f : Fields) (s : State), CanonicalTiles s →
    let r := s.me
    let l := s.launchOf s.myTile
    let a := readX r f.a.toNat
    let b := readX r f.b.toNat
    let id := a.toNat % 2 ^ 32
    let key := s.launchKeyOf s.myTile
    let home : Home := .hoist (l.cluster (id / 2 ^ 26))
    let badId := l.clusterCount ≤ id / 2 ^ 26 ∨ s.taskQ l ≤ id % 2 ^ 26
    let idTrap (i : Instr) : Prop := exec i s = .next (s.takeTrap 6 0 (BitVec.ofNat 64 id))
    let posts (i : Instr) (r' : Strand) (body : Body) : Prop := ∃ u, exec i s = .next u ∧ SameMemory s u ∧
      u.me = { r' with posted := r'.posted ++ [{ id := s.fresh, addr := 0, cover := 1, task := true }], pc := nextPc r f, issuedAt := s.cycle + 1 } ∧
      u.net = s.net ++ [{ id := s.fresh, src := s.cur, home := home, addr := 0, body := body }]
    let gain (i : Instr) (sub : Nat) : Prop := Ready i s →
      let mode := if sub = 0 then resolveMode r.status f.rm else 0
      (l.tasks = none → exec i s = .next (s.takeTrap 7 0 a)) ∧
      (l.tasks ≠ none → l.deadline = true → exec i s = .next (s.takeTrap 7 0 (BitVec.ofNat 64 id))) ∧
      (l.tasks ≠ none → l.deadline = false → (badId → idTrap i) ∧ (¬ badId → GainBad b → exec i s = .next (s.takeTrap 13 0 b)) ∧
        (¬ badId → ¬ GainBad b → posts i (countSr r mode) (.gain s.fresh key (id % 2 ^ 26) sub (gainStored b) mode r.seed r.srcnt)))
    gain (.gainAdd f) 0 ∧ gain (.gainMax f) 1 ∧ gain (.gainSet f) 2 ∧
    (Ready (.depDec f) s →
      (l.tasks = none → exec (.depDec f) s = .next (s.takeTrap 7 0 a)) ∧ (l.tasks ≠ none → badId → idTrap (.depDec f)) ∧
      (l.tasks ≠ none → ¬ badId → posts (.depDec f) r (.depDec s.fresh key (id % 2 ^ 26)))) ∧
    (Ready (.tkPush f) s → longRoom r false = true →
      (l.tasks = none → exec (.tkPush f) s = .next (s.takeTrap 7 0 a)) ∧ (l.tasks ≠ none → badId → idTrap (.tkPush f)) ∧
      (l.tasks ≠ none → ¬ badId → l.deadline = false → GainBad b → exec (.tkPush f) s = .next (s.takeTrap 13 0 b)) ∧
      (l.tasks ≠ none → ¬ badId → l.deadline = true ∨ ¬ GainBad b → ∃ u, exec (.tkPush f) s = .next u ∧
        { u with launches := s.launches } = asking f s home (.push s.fresh key (id % 2 ^ 26) (if l.deadline then b.toNat else gainStored b)) ∧
        (mapWf {} s.launches = true → (u.launch key).touched = true)))

/-- R194: one pop after another: the first resident task goes while its cost, argument 0 of its record, is within the budget, and it
retires; at the first that does not fit, or with none left, the batch ends; and at one whose cost is uncorrectable (R358). -/
def popRules : Prop :=
  ∀ (s : State) (l : Launch) (cl n budget i : Nat) (t : Task), Canonical s →
    let id := makeId (l.fc (clusterTile cl 0)) i
    let cost := s.record l id / 2 ^ 128 % 2 ^ 32
    s.popBatch l cl 0 budget = (s, [], none) ∧
    ((s.cluster cl).tasks = [] → s.popBatch l cl n budget = (s, [], none)) ∧
    ((i, t) ∈ (s.cluster cl).level 0 → (∀ p ∈ (s.cluster cl).level 0, p ≠ (i, t) → Before l.deadline t.key i p.2.key p.1) →
      (∀ x, s.recordLost l id 16 8 = some x → s.popBatch l cl (n + 1) budget = (s, [], some x)) ∧
      (s.recordLost l id 16 8 = none → budget < cost → s.popBatch l cl (n + 1) budget = (s, [], none)) ∧
      (s.recordLost l id 16 8 = none → cost ≤ budget →
        let u := s.retireTask l cl i
        ((u.cluster cl).task i).state = .retired ∧ (∀ j, j ≠ i → (u.cluster cl).task j = (s.cluster cl).task j) ∧ (NoFreeze s u → u.strands = s.strands) ∧
        (s.popBatch l cl (n + 1) budget).2.1 = id :: (u.popBatch l cl n (budget - cost)).2.1 ∧
        (s.popBatch l cl (n + 1) budget).2.2 = (u.popBatch l cl n (budget - cost)).2.2 ∧
        (s.popBatch l cl (n + 1) budget).1 = (u.popBatch l cl n (budget - cost)).1))

/-- R194, R198, R293, R358: `tk.batch`: its checks in order, and its answer, for the pops within TBR that `popRules` describes (they come in one
step: log 35); a pop from an uncorrectable heap, or of an uncorrectable cost, freezes the VF, and nothing is popped. -/
def batchRules : Prop :=
  ∀ (f : Fields) (s : State), CanonicalTiles s → Ready (.tkBatch f) s → longRoom s.me false = true →
    let r := s.me
    let t := s.tile s.myTile
    let l := s.launchOf s.myTile
    let n := readX r f.b.toNat
    let a := (readX r f.a.toNat).toNat % 2 ^ 32
    let bad := BitVec.ofNat 64 a
    let answer (k : Nat) : State := s.startLong r f { id := 0, dest := destX f, answered := true, data := BitVec.ofNat 2048 k }
    (l.tasks = none → exec (.tkBatch f) s = .next (s.takeTrap 7 0 0)) ∧
    (l.tasks ≠ none → 4096 < n.toNat → exec (.tkBatch f) s = .next (s.takeTrap 6 0 n)) ∧
    (l.tasks ≠ none → n.toNat ≤ 4096 → a % 4 ≠ 0 → exec (.tkBatch f) s = .next (s.takeTrap 5 0 bad)) ∧
    (l.tasks ≠ none → 0 < n.toNat → n.toNat ≤ 4096 → a % 4 = 0 → a < t.xb → exec (.tkBatch f) s = .next (s.takeTrap 7 0 bad)) ∧
    (l.tasks ≠ none → n.toNat ≤ 4096 → a % 4 = 0 → (n = 0 ∨ areaTrap t a (4 * n.toNat) bad = none) →
      (l.term ≠ .running ∨ n = 0 → exec (.tkBatch f) s = .next (answer 0)) ∧
      (l.term = .running → n ≠ 0 → (s.cluster (clusterOf s.myTile)).bad = true → exec (.tkBatch f) s = .next (s.freezeHoist (clusterOf s.myTile))) ∧
      (∀ kind x, l.term = .running → n ≠ 0 → (s.cluster (clusterOf s.myTile)).bad = false →
        (s.popBatch l (clusterOf s.myTile) n.toNat (r.tbr.toNat % 2 ^ 32)).2.2 = some (kind, x) →
        exec (.tkBatch f) s = .next (s.freezeHoist (clusterOf s.myTile) kind x)) ∧
      (l.term = .running → n = 0 ∨ (s.cluster (clusterOf s.myTile)).bad = false → (s.popBatch l (clusterOf s.myTile) n.toNat (r.tbr.toNat % 2 ^ 32)).2.2 = none →
        ∃ u ids, exec (.tkBatch f) s = .next u ∧ ids = (s.popBatch l (clusterOf s.myTile) n.toNat (r.tbr.toNat % 2 ^ 32)).2.1 ∧
        ids.length ≤ n.toNat ∧ (∃ o ∈ u.me.longs, (NoFreeze s u → o.id = s.fresh) ∧ o.dest = destX f ∧ o.answered = true ∧ o.waiting = 0 ∧
          o.data = BitVec.ofNat 2048 ids.length) ∧
        readBytes (u.tile s.myTile).store a (4 * ids.length) = ids.flatMap (natToBytes 4)))

/-- A task message that its home serves next, fairly between strands (R222); what comes after the snapshot of a cycle comes in a later one (R291);
the hoist meets no uncorrectable word (R358). -/
abbrev TaskServed (s : State) (m : Msg) (cl : Nat) : Prop :=
  s.message s.arg.message = some m ∧ s.firstOf m = true ∧ m.home = .hoist cl ∧ s.snapped cl = false ∧ (s.cluster cl).bad = false ∧
  (m.body.isRequest = true → s.fairTo m.home m.src = true)

/-- R192, R283, R285, R293: what a push comes to at its home: the task is queued with the key, or holds it until its end, and the key goes to KEY of its
record; refused when the heap is full or has closed. That a push of a killed idle task is answered 1, that a lent task takes the key, and that a refused push leaves KEY, are
the model's choices (log 35), and so is the answer in the step of the arrival (log 48). -/
def pushArrivalRules : Prop :=
  ∀ (s : State) (m : Msg) (cl op k i key : Nat), Canonical s → TaskServed s m cl → m.body = .push op k i key →
    let l := s.launch k
    let c := s.cluster cl
    let t := c.task i
    let full := 4096 ≤ (c.level 0).length ∧ 4096 ≤ (c.level 1).length
    let id := makeId (l.fc (clusterTile cl 0)) i
    ∃ u, exec .taskPushArrival s = .next u ∧ (NoFreeze s u → Gone s u m) ∧
      (l.term = .closed → Answered s u m.src op 1 ∧ u.clusters = s.clusters) ∧
      (l.term ≠ .closed → (t.state = .idle ∨ t.state = .retired) → (full ∨ t.killed = true) → Answered s u m.src op 1 ∧ u.clusters = s.clusters) ∧
      (l.term ≠ .closed → (t.state = .queued ∨ ((t.state = .idle ∨ t.state = .retired) ∧ ¬ full ∧ t.killed = false)) →
        Answered s u m.src op 0 ∧ ((u.cluster cl).task i).state = .queued ∧ ((u.cluster cl).task i).key = key ∧
        ((c.level 0).length < 4096 → c.level 1 = [] → c.level 2 = [] → KeyIs s u l id key)) ∧
      (l.term ≠ .closed → t.state = .lent → Answered s u m.src op 0 ∧ (u.cluster cl).task i = { t with key := key } ∧ KeyIs s u l id key) ∧
      (l.term ≠ .closed → t.state = .running → Answered s u m.src op 0 ∧ (u.cluster cl).task i = { t with pushed := some key } ∧ KeyIs s u l id key)

/-- R195: the new gain of an update: rounded addition that never exceeds the greatest finite number, the greater, or the operand. -/
def updated (sub mode : Nat) (seed srcnt : Word) (old b : Nat) : Nat :=
  let F := ffmt 10 false
  let sum := (deliver F mode true (if mode = 5 then draw seed srcnt 0 else 0) (addVal mode (readFloat F old) (readFloat F b))).1
  if sub = 0 then (if sum = 2 ^ 31 then 0 else sum) else if sub = 1 then max old b else b

/-- R195, R196, R285, R293: gain updates and dependence releases at their home; they are acknowledged whatever comes of them. An idle or retired task's
new gain goes to KEY of its record (R285). A record that is uncorrectable freezes the VF (R358; log 38). -/
def updateArrivalRules : Prop :=
  ∀ (s : State) (m : Msg) (cl k i : Nat), Canonical s → TaskServed s m cl →
    let l := s.launch k
    let t := (s.cluster cl).task i
    let id := makeId (l.fc (clusterTile cl 0)) i
    let acked (u : State) (p : Nat) : Prop := (NoFreeze s u → Gone s u m) ∧ u.acks = s.acks ++ [⟨s.fresh, m.src, p, false, true⟩]
    (∀ p sub b mode seed srcnt kind x, m.body = .gain p k i sub b mode seed srcnt → l.term ≠ .closed → t.state = .idle ∨ t.state = .retired →
      s.recordLost l id 0 8 = some (kind, x) → exec .gainUpdateArrival s = .next (s.freezeHoist cl kind x)) ∧
    (∀ p sub b mode seed srcnt, m.body = .gain p k i sub b mode seed srcnt →
      (l.term ≠ .closed → t.state = .idle ∨ t.state = .retired → s.recordLost l id 0 8 = none) →
      ∃ u, exec .gainUpdateArrival s = .next u ∧ acked u p ∧
        (l.term = .closed → u.clusters = s.clusters ∧ SameMemory s u) ∧
        (l.term ≠ .closed → t.state = .queued →
          ((u.cluster cl).task i).state = .queued ∧ ((u.cluster cl).task i).key = updated sub mode seed srcnt t.key b) ∧
        (l.term ≠ .closed → t.state = .lent →
          (u.cluster cl).task i = { t with key := updated sub mode seed srcnt t.key b } ∧ SameMemory s u) ∧
        (l.term ≠ .closed → t.state = .running →
          (u.cluster cl).task i = { t with gain := updated sub mode seed srcnt t.gain b } ∧ SameMemory s u) ∧
        let g := updated sub mode seed srcnt (s.storedKey l id) b
        (l.term ≠ .closed → t.state = .idle → u.clusters = s.clusters ∧ KeyIs s u l id g) ∧
        (l.term ≠ .closed → t.state = .retired →
          (g = 0 → u.clusters = s.clusters ∧ KeyIs s u l id 0) ∧
          (0 < g → ((u.cluster cl).task i).state = .queued ∧ ((u.cluster cl).task i).key = g))) ∧
    (∀ p, m.body = .depDec p k i →
      let dep := s.record l id / 2 ^ 64 % 2 ^ 16
      (l.term ≠ .closed → s.recordLost l id 8 8 = none ∧ s.recordLost l id 0 8 = none) →
      ∃ u, exec .depDecArrival s = .next u ∧ acked u p ∧
        (l.term = .closed ∨ dep = 0 → u.clusters = s.clusters ∧ SameMemory s u) ∧
        (l.term ≠ .closed → 1 < dep → u.clusters = s.clusters) ∧
        (l.term ≠ .closed → dep = 1 → (t.state = .idle ∨ t.state = .retired) → t.killed = false → ((u.cluster cl).task i).state = .queued) ∧
        (l.term ≠ .closed → dep = 1 → t.state ≠ .idle → t.state ≠ .retired → u.clusters = s.clusters))

/-- R284: the end of a running task: re-inserted with the larger of its pushed key and its pending gain, or retired. -/
def taskEndRules : Prop :=
  ∀ (s : State) (m : Msg) (cl k i : Nat), Canonical s → TaskServed s m cl → m.body = .taskEnd k i →
    let l := s.launch k
    let t := (s.cluster cl).task i
    t.state = .running → t.killed = false →
    ∃ u, exec .taskEndArrival s = .next u ∧ (NoFreeze s u → Gone s u m) ∧
      let t' := (u.cluster cl).task i
      (∀ p, t.pushed = some p → t'.state = .queued ∧ t'.key = if l.deadline then p else max p t.gain) ∧
      (t.pushed = none → l.deadline = false → 0 < t.gain → t'.state = .queued ∧ t'.key = t.gain) ∧
      (t.pushed = none → l.deadline = true ∨ t.gain = 0 → t'.state = .retired)

/-- R191, R286: dispatch: the first resident task goes to the strand that has waited longest, with its id, its arguments and its entry. An uncorrectable
record freezes the VF instead (R358; log 38). -/
def dispatchRules : Prop :=
  ∀ (s : State) (i w : Nat) (t : Task), Canonical s →
    let cl := s.arg.cluster
    let l := s.launch (s.launchKeyOf (clusterTile cl 0))
    let id := makeId (l.fc (clusterTile cl 0)) i
    let item := s.record l id
    let arg (n : Nat) : Word := BitVec.ofNat 64 (item / 2 ^ (128 + 32 * n) % 2 ^ 32)
    l.tasks ≠ none → l.term = .running → s.snapped cl = false → (s.cluster cl).bad = false → (i, t) ∈ (s.cluster cl).level 0 →
    (∀ p ∈ (s.cluster cl).level 0, p ≠ (i, t) → Before l.deadline t.key i p.2.key p.1) →
    w ∈ s.waiters cl → (∀ j ∈ s.waiters cl, j ≠ w → (s.strand w).waitAt < (s.strand j).waitAt) →
    (∀ kind x, s.recordLost l id 8 24 = some (kind, x) → exec .taskDispatch s = .next (s.freezeHoist cl kind x)) ∧
    (s.recordLost l id 8 24 = none →
    ∃ u, exec .taskDispatch s = .next u ∧ SameMemory s u ∧ (u.cluster cl).task i = { t with state := .running, key := 0, gain := 0, pushed := none } ∧
      u.strand w = { writeX (writeX (writeX (writeX (writeX (s.strand w) 1 (BitVec.ofNat 64 id)) 2 (arg 0)) 3 (arg 1)) 4 (arg 2)) 5 (arg 3) with
        run := .running, pc := BitVec.ofNat 32 (item / 2 ^ 98 % 2 ^ 30 * 4), task := some id, startedAt := s.cycle + 1 } ∧
      ∀ j, j ≠ w → u.strand j = s.strand j)

/-- R288: the other cluster of a launch with the best published key; among equals the one of the lower number in the field. -/
def BestVictim (s : State) (l : Launch) (cl v : Nat) : Prop :=
  ∃ i k, i < l.clusterCount ∧ l.cluster i = v ∧ v ≠ cl ∧ (s.cluster v).published = some (some k) ∧
    ∀ j k', j < l.clusterCount → l.cluster j ≠ cl → (s.cluster (l.cluster j)).published = some (some k') →
      (if l.deadline then k < k' else k' < k) ∨ (k = k' ∧ i ≤ j)

/-- R287 to R289: publication and stealing: the request, the loan or the refusal, the arrival at the thief, and what comes back. The record
travels as it was sent (R288); an uncorrectable one freezes the VF (R358; log 38). -/
def stealingRules : Prop :=
  ∀ (s : State), Canonical s →
    let cl := s.arg.cluster
    let k := s.launchKeyOf (clusterTile cl 0)
    let l := s.launch k
    let c := s.cluster cl
    (s.cycle % 64 = 0 → l.tasks ≠ none → c.bad = false → c.pubAt ≠ s.cycle / 64 + 1 → ∃ u, exec .keyPublication s = .next u ∧ SameMemory s u ∧
      u.strands = s.strands ∧ u.cluster cl = { c with
        published := some ((firstQueued l.deadline (c.level 0)).map fun p => p.2.key), pubAt := s.cycle / 64 + 1 }) ∧
    (∀ v, BestVictim s l cl v → l.tasks ≠ none → l.term = .running → s.waiters cl ≠ [] → c.level 0 = [] → c.stealing = false → c.bad = false →
      c.refusedAt ≠ some c.pubAt → ∃ u, exec .stealRequest s = .next u ∧ (u.cluster cl).stealing = true ∧
        u.net = s.net ++ [{ id := s.fresh, src := 8192 + cl, home := .hoist v, addr := 0, body := .stealRequest k cl }]) ∧
    (∀ m n key, TaskServed s m n →
      let v := s.cluster n
      let h := s.launch key
      let gone := s.net.filter fun q => q.id != m.id
      let say (dest : Home) (b : Body) : List Msg := gone ++ [{ id := s.fresh, src := 8192 + n, home := dest, addr := 0, body := b }]
      (∀ thief, m.body = .stealRequest key thief →
        (v.level 0 = [] → ∃ u, exec .stealRequestArrival s = .next u ∧ u.clusters = s.clusters ∧ u.net = say (.hoist thief) (.stealNone key)) ∧
        (∀ i t kind x, h.tasks ≠ none → h.term = .running → firstQueued h.deadline (v.level 0) = some (i, t) →
          s.recordLost h (makeId (h.fc (clusterTile n 0)) i) 8 24 = some (kind, x) → exec .stealRequestArrival s = .next (s.freezeHoist n kind x)) ∧
        (∀ i t, h.tasks ≠ none → h.term = .running → firstQueued h.deadline (v.level 0) = some (i, t) →
          s.recordLost h (makeId (h.fc (clusterTile n 0)) i) 8 24 = none →
          ∃ u, exec .stealRequestArrival s = .next u ∧ (u.cluster n).task i = { t with state := .lent } ∧
            u.net = say (.hoist thief) (.stolen key (makeId (h.fc (clusterTile n 0)) i) t.key (s.record h (makeId (h.fc (clusterTile n 0)) i))))) ∧
      (∀ id kept item, m.body = .stolen key id kept item →
        (s.firstWaiter n = none ∨ h.tasks = none ∨ h.term ≠ .running → ∃ u, exec .stolenRecordArrival s = .next u ∧ u.strands = s.strands ∧
          (u.cluster n).stealing = false ∧ u.net = say (.hoist (h.cluster (id / 2 ^ 26 % 64))) (.stealRefuse key (id % 2 ^ 26))) ∧
        (∀ w, s.firstWaiter n = some w → h.tasks ≠ none → h.term = .running → ∃ u, exec .stolenRecordArrival s = .next u ∧
          (u.cluster n).stealing = false ∧ (u.strand w).task = some id ∧ (u.strand w).run = .running ∧ readX (u.strand w) 1 = BitVec.ofNat 64 id ∧
          (u.strand w).pc = BitVec.ofNat 32 (item / 2 ^ 98 % 2 ^ 30 * 4) ∧
          (CanonicalRegs (s.strand w) → ∀ k, k < 4 → readX (u.strand w) (2 + k) = BitVec.ofNat 64 (item / 2 ^ (128 + 32 * k) % 2 ^ 32)) ∧
          u.net = say (.hoist (h.cluster (id / 2 ^ 26 % 64))) (.stealAck key (id % 2 ^ 26)))) ∧
      (∀ i, m.body = .stealAck key i → (v.task i).state = .lent → ∃ u, exec .stealAcknowledgment s = .next u ∧ u.net = gone ∧
        (u.cluster n).task i = { v.task i with state := .running, key := 0, gain := 0, pushed := none }) ∧
      (∀ i, m.body = .stealRefuse key i → (v.task i).state = .lent → ∃ u, exec .stealRefusal s = .next u ∧ (NoFreeze s u → u.net = gone) ∧
        ((u.cluster n).task i).state = .queued ∧ ((u.cluster n).task i).key = (v.task i).key) ∧
      (m.body = .stealNone key → ∃ u, exec .stealNoneAnswer s = .next u ∧ u.net = gone ∧
        u.cluster n = { v with stealing := false, refusedAt := some v.pubAt }))

/-- R282, R304: a level move changes no key and no state of a task, fills a resident level that has fallen below 2,048 entries, and gives
every spilled task its place in the spill area; one over an uncorrectable heap moves nothing and freezes the VF (R358). -/
def levelMoveRules : Prop :=
  ∀ (s : State), Canonical s →
    let cl := s.arg.cluster
    let c := s.cluster cl
    (c.bad = true → exec .heapLevelMove s = .next s ∨ exec .heapLevelMove s = .next (s.freezeHoist cl)) ∧
    (c.bad = false → ∃ u, exec .heapLevelMove s = .next u ∧ (∀ m a, m ≠ .device → readCell u m a = readCell s m a) ∧ (NoFreeze s u → u.strands = s.strands) ∧
      (∀ p ∈ (u.cluster cl).level 1, p.2.spillAt ≠ none) ∧
      (∀ i, ((u.cluster cl).task i).state = (c.task i).state ∧ ((u.cluster cl).task i).key = (c.task i).key) ∧
      ((c.level 0).length < 2048 → c.level 1 ≠ [] → (c.level 0).length < ((u.cluster cl).level 0).length))

/-- R292, R293: the heaps of a launch have closed: no task is left in them; where one task was queued its key and STATE 01 are in its
record, unless the access to it freezes the VF (log 38); and every strand that waits on a tile that runs leaves `tk.wait` with "done". -/
def Closed (s u : State) (key : Nat) : Prop :=
  let l := s.launch key
  let queued (c i : Nat) (t : Task) : Prop := (i, t) ∈ (s.cluster (l.cluster c)).tasks ∧ t.state = .queued
  (u.launch key).term = .closed ∧ (∀ c, c < l.clusterCount → (u.cluster (l.cluster c)).tasks = []) ∧
  ((∀ c i t, c < l.clusterCount → ¬ queued c i t) → SameMemory s u) ∧
  (∀ c i t, c < l.clusterCount → queued c i t → (∀ c' i' t', c' < l.clusterCount → queued c' i' t' → c' = c ∧ i' = i) →
    let id := makeId (l.fc (clusterTile (l.cluster c) 0)) i
    NoFreeze s u → u.mem = ((s.putKey l id t.key).putState l id 1).mem) ∧
  ∀ x y j, NoFreeze s u → x < l.w → y < l.h → l.ox + l.w ≤ 32 → j < 8 →
    let n := tileAt (l.ox + x) (l.oy + y)
    let r := s.strand (n * 8 + j)
    (s.tile n).preempt = .running → r.run = .waiting → r.broken = false →
      u.strand (n * 8 + j) = { writeX r 1 (BitVec.allOnes 64) with run := .running, pc := r.pc + 8, startedAt := s.cycle + 1 }

/-- R290 to R292: snapshots, combines, and the protocol by which a launch of tasks stops, ends or resumes; a task message under way at the snapshots
that decide, or issued after them, makes it drain anew (log 35). -/
def terminationRules : Prop :=
  ∀ (s : State), Canonical s →
    let cl := s.arg.cluster
    let k := s.launchKeyOf (clusterTile cl 0)
    let l := s.launch k
    let e := s.cycle / 64
    let part := BitVec.ofNat 384 (((s.cluster cl).tasks.map fun p => p.2.residual l.deadline).sum)
    (s.cycle % 64 = 0 → nextStrand s = none → (s.cluster cl).bad = false → l.tasks ≠ none → l.started = true → l.term ≠ .closed → (∀ p ∈ l.snaps, p.epoch ≠ e ∨ p.cluster ≠ cl) →
      ∃ u, exec .rsdSnapshot s = .next u ∧ SameMemory s u ∧ u.launch k = { l with
        snaps := l.snaps ++ [⟨e, cl, part⟩], touched := if l.term = .stopped (some e) then !s.drainedTasks k else l.touched }) ∧
    (let key := s.arg.launch
     let h := s.launch key
     (∀ n, h.knownEpoch s.cycle = some n →
      let rsd := ((h.epoch n).map fun p => p.part).foldl (· + ·) 0
      let below := rsd.toNat < h.tolM * 2 ^ (h.tolE + 200).toNat
      let h' := { h with snaps := h.snaps.filter fun p => decide (n < p.epoch) }
      ∃ u, exec .rsdCombine s = .next u ∧
        (h.term = .running → below → h.skipTo ≤ n → u.launch key = { h' with term := .stopped none }) ∧
        (h.term = .running → ¬ below → u.launch key = h') ∧
        (∀ last, h.term = .stopped (some last) → last ≤ n → ¬ below → u.launch key = { h' with term := .running, skipTo := n + 1 }) ∧
        (∀ last, h.term = .stopped (some last) → last ≤ n → below →
          (h.touched = true → u.launch key = { h' with term := .stopped none }) ∧
          (h.touched = false → (∀ c, c < h.clusterCount → (s.cluster (h.cluster c)).bad = false) → Closed s u key))) ∧
     (h.term = .stopped none →
      (s.drainedTasks key = false → exec .terminationDrain s = .next s) ∧
      (s.drainedTasks key = true → ∃ u last, exec .terminationDrain s = .next u ∧ u.launch key = { h with term := .stopped (some last), touched := false } ∧
        s.cycle ≤ 64 * last ∧ 64 * last < s.cycle + 64)))

/-! Launches, pre-emption and VFs. -/

/-- R319 to R321, R333: an event takes the record at WR of its queue, little-endian, and moves WR on; with 4,096 records unread it is
lost and counted; an interrupt is raised where it is enabled. That nothing is written where WR or RD is uncorrectable or in a retired channel is the model's
choice (log 45). -/
def eventRules : Prop :=
  ∀ (s : State) (vf code : Nat) (d0 d1 : Word), Canonical s → code < 256 →
    let q := (s.vf vf).evq.toNat
    let wr := readNat s.mem q 8
    let rd := readNat s.mem (q + 8) 8
    let u := s.event vf code d0 d1
    let slot := q + 64 + 32 * (wr % 4096)
    (s.lostAt q 16 ≠ none → u = s) ∧
    (s.lostAt q 16 = none → s.lostChannel slot = false → (BitVec.ofNat 64 wr - BitVec.ofNat 64 rd).toNat < 4096 →
      readNat u.mem q 8 = (wr + 1) % 2 ^ 64 ∧ readNat u.mem (slot + 24) 8 = s.dt.toNat ∧ readNat u.mem (slot + 16) 8 = d0.toNat ∧
      readNat u.mem (slot + 8) 8 = d1.toNat ∧ readNat u.mem slot 8 = code * 2 ^ 56 ∧
      (u.vf vf).interrupts = (s.vf vf).interrupts + (if (s.vf vf).ien.getLsbD 0 then 1 else 0)) ∧
    (s.lostAt q 16 = none → s.lostChannel (q + 16) = false → 4096 ≤ (BitVec.ofNat 64 wr - BitVec.ofNat 64 rd).toNat →
      readNat u.mem (q + 16) 8 = (readNat s.mem (q + 16) 8 + 1) % 2 ^ 64 ∧ readNat u.mem q 8 = wr)

/-- R212, R316, R353: whether the head launch of a VF can be taken now: one is there, none of the VF is about to start, and its tiles are free,
unless it is rejected. -/
def headRules : Prop :=
  ∀ (s : State) (v : Nat),
    let l := entryLaunch v (s.headEntry v)
    s.headReady v = true ↔ (s.vf v).lqtail ≠ (s.vf v).lqhead ∧ (s.vf v).frozen = false ∧ 5 ≤ s.trust.stage ∧
      (∀ p ∈ s.launches, p.2.vf = v → p.2.started = true ∨ p.2.ended = true) ∧
      (s.launchStatus l (s.headEntry v / 2 ^ 154 % 2 ^ 20) ≠ 0 ∨ ∀ t ∈ l.tiles, ∀ k, (s.tile t).launch = some k → (s.launch k).ended = true)

/-- R72, R212, R213, R255, R334: the first status that applies, in the order ALIGN, OWNER, SHAPE, SCRATCH. A heap in use means that the tiles
of its cluster are held, for which the launch waits (log 53); a table of length 0, and a race ring without its 4,096 bytes, are the other cases. That a
launch of a VF in reset is rejected with OWNER is the model's choice (logs 34 and 53: R326 names no status). -/
def launchStatusRules : Prop :=
  ∀ (s : State) (l : Launch) (slen : Nat),
    let align := l.ox % l.w = 0 ∧ l.oy % l.h = 0 ∧ l.ox + l.w ≤ 32 ∧ l.oy + l.h ≤ 32
    let owner := (s.vf l.vf).reset = none ∧ ∀ t ∈ l.tiles, (s.vf l.vf).clusters.getLsbD (clusterOf t) = true
    let shape := l.tasks = none ∨ (4 ≤ l.w ∧ 4 ≤ l.h ∧ s.taskQ l ≠ 0)
    let scratch := slen ≤ l.scr ∧ l.xb + l.scr ≤ 327680 ∧ (l.race = true → 4096 ≤ l.scr)
    (¬ align → s.launchStatus l slen = 2) ∧ (align → ¬ owner → s.launchStatus l slen = 3) ∧
    (align → owner → ¬ shape → s.launchStatus l slen = 4) ∧ (align → owner → shape → ¬ scratch → s.launchStatus l slen = 1) ∧
    (align → owner → shape → scratch → s.launchStatus l slen = 0)

/-- R316: the deficit round robin, as the rule writes it, from VF `v` with the credits `d`, for at most `n` visits: the VF whose head launch is
taken, and every credit then. -/
def roundRobin (s : State) : Nat → Nat → (Nat → Int) → Option (Nat × (Nat → Int))
  | 0, _, _ => none
  | n + 1, v, d =>
    let w : Int := (s.vf v).weight
    let next := (v + 1) % 96
    if s.headReady v then
      let x := min (d v + w * 2 ^ 20) (w * 2 ^ 22)
      let d' := fun u => if u = v then x else d u
      if 0 < x then some (v, d') else roundRobin s n next d'
    else roundRobin s n next fun u => if u = v then min (d v) 0 else d u

/-- What the launch engine reads in memory for the head launch of a VF: uncorrectable data there (R358, R361; log 40). -/
abbrev headLost (s : State) (v : Nat) : Option (Nat × Nat) :=
  let e := s.headEntry v
  let slen := e / 2 ^ 154 % 2 ^ 20
  s.launchLost (entryLaunch v e) (s.launchStatus (entryLaunch v e) slen) (e / 2 ^ 192 % 2 ^ 64) (e / 2 ^ 256 % 2 ^ 64) slen

/-- R316: the launch engine serves the VF that the round robin comes to and leaves the credits of its visits; where no head can be taken no VF
keeps a credit. -/
def creditRules : Prop :=
  ∀ s : State, Canonical s → (∀ v, v < 96 → 0 < (s.vf v).weight) →
    (∀ n v d, roundRobin s n ((s.served + 1) % 96) (fun u => (s.vf u).deficit) = some (v, d) → headLost s v = none →
      ∃ u, exec .launchQueueService s = .next u ∧ u.served = v ∧ ∀ w, w < 96 → (u.vf w).deficit = d w) ∧
    ((∀ v, v < 96 → s.headReady v = false) → ∃ u, exec .launchQueueService s = .next u ∧ SameMemory s u ∧ u.tiles = s.tiles ∧
      u.launches = s.launches ∧ ∀ v, (u.vf v).deficit = min (s.vf v).deficit 0)

/-- R213, R216, R314, R316, R334, R335: the launch engine takes the head launch of the VF that the round robin comes to: it ends at
once with its status, or its tiles receive their code and scratch, and their strands their seeds and counts. Where what it reads is uncorrectable the VF
is frozen, which is the model's choice (log 40). -/
def queueServiceRules : Prop :=
  ∀ (s : State) (v n : Nat), Canonical s → s.nextServed = some (v, n) →
    let e := s.headEntry v
    let f := s.vf v
    let slen := e / 2 ^ 154 % 2 ^ 20
    let l : Launch := { entryLaunch v e with number := f.launchNo + 1 }
    let k := launchKey v l.number
    (∀ kind a, headLost s v = some (kind, a) → exec .launchQueueService s = .next (s.freezeVf v kind a)) ∧
    (headLost s v = none → s.launchStatus l slen ≠ 0 → ∃ u, exec .launchQueueService s = .next u ∧ (u.vf v).lqhead = f.lqhead + 1 ∧
      (u.vf v).launchNo = f.launchNo + 1 ∧ u.served = v ∧ u.mem = (s.endedEvent l (s.launchStatus l slen)).mem ∧ u.tiles = s.tiles) ∧
    (headLost s v = none → s.launchStatus l slen = 0 → ∃ u, exec .launchQueueService s = .next u ∧ u.launch k = l ∧ (u.vf v).lqhead = f.lqhead ∧
      (u.vf v).launchNo = f.launchNo + 1 ∧ u.mem = s.mem ∧
      (l.tasks ≠ none → ∀ c, c < l.clusterCount → (u.cluster (l.cluster c)).tasks = []) ∧
      ∀ x y, x < l.w → y < l.h →
        let t := tileAt (l.ox + x) (l.oy + y)
        (u.tile t).launch = some k ∧ (u.tile t).xb = l.xb ∧ (u.tile t).scr = l.scr ∧ (u.tile t).array = [] ∧ (u.tile t).halyard = [] ∧
        (∀ a, a < l.xb → readCell u (.store t) a = readByte s.mem (e / 2 ^ 192 % 2 ^ 64 + a)) ∧
        (∀ a, a < slen → readCell u (.store t) (l.xb + a) = readByte s.mem (e / 2 ^ 256 % 2 ^ 64 + a)) ∧
        (∀ a, l.xb + slen ≤ a → readCell u (.store t) a = 0) ∧
        ∀ j, j < 8 → (u.strand (t * 8 + j)).run = .free ∧ (u.strand (t * 8 + j)).seed = l.seed ∧
          (u.strand (t * 8 + j)).srcnt = BitVec.ofNat 64 ((y * l.w + x) * 2 ^ 48 + j * 2 ^ 44))

/-- R219: the work that the strands of a launch issued has completed or been acknowledged; that this takes in the loads and answers of parked strands
and the messages of hoists is the model's choice (log 30). -/
abbrev WorkDone (s : State) (l : Launch) : Prop :=
  (∀ i ∈ l.strands, (s.strand i).longs = [] ∧ (∀ p ∈ (s.strand i).posted, p.rejected = true) ∧ (s.strand i).copies = [] ∧ (s.strand i).drains = []) ∧
  (∀ t ∈ l.tiles, (s.tile t).array = [] ∧ (s.tile t).encodes = [] ∧ (s.tile t).spill = [] ∧ ∀ e ∈ (s.cluster (clusterOf t)).encoder, e.tile ≠ t) ∧
  (∀ m ∈ s.net, (m.src < 8192 → m.src / 8 ∉ l.tiles) ∧ (8192 ≤ m.src → m.src - 8192 ∉ l.clusters)) ∧ ∀ a ∈ s.acks, a.src / 8 ∉ l.tiles

/-- R214, R219, R220, R280, R316: a prepared launch starts strand 0 of every tile in one cycle, a multiple of 8, but not while its VF is frozen;
it ends when every strand has ended and all its work is done, with its status in one event, the tasks still queued in their records, and its
measured work charged to its VF. That dirty L1 lines are posted in a step before it, and that a frozen strand becomes parked at it, are the model's
choices (log 30), and so is ACT in the CAUSE of a stalled strand (log 25). -/
def launchRules : Prop :=
  ∀ (s : State), Canonical s →
    let k := s.arg.launch
    let l := s.launch k
    ((s.vf l.vf).frozen = true ∨ s.cycle % 8 ≠ 0 → exec .launchStart s = .next s) ∧
    (s.active k = true → l.started = false → s.cycle % 8 = 0 → (s.vf l.vf).frozen = false → (∀ i ∈ l.strands, (s.strand i).posted = []) →
      l.ox + l.w ≤ 32 → ∃ u, exec .launchStart s = .next u ∧ SameMemory s u ∧ u.launch k = { l with started := true, startAt := s.cycle, stall := 0 } ∧
        (u.vf l.vf).lqhead = (s.vf l.vf).lqhead + 1 ∧
        ∀ x y, x < l.w → y < l.h →
          let i := tileAt (l.ox + x) (l.oy + y) * 8
          Started (s.strand i) (u.strand i) s.cycle l.entry [] (freshStatus 0 l.fmode) (s.strand i).tvb (s.strand i).ovh (l.tbr.setWidth 64)) ∧
    (s.active k = true → l.started = true → (∃ i ∈ l.strands, (s.strand i).run = .running ∨ (s.strand i).run = .waiting) ∨ ¬ WorkDone s l →
      exec .launchEnd s = .next s) ∧
    (s.active k = true → l.started = true → (∀ i ∈ l.strands, (s.strand i).run.ended = true) → WorkDone s l →
      ((∀ t ∈ l.tiles, ∀ x ∈ (s.tile t).l1, x.dirty = 0) → (∀ t ∈ l.tiles, (s.cluster (clusterOf t)).retiring = false) →
        (∀ c, c < l.clusterCount → (s.cluster (l.cluster c)).bad = false) →
        let status := if l.stalled then 6 else if l.faulted then 5 else 0
        let queued (c i : Nat) (t : Task) : Prop := l.tasks ≠ none ∧ l.term ≠ .closed ∧ c < l.clusterCount ∧
          (i, t) ∈ (s.cluster (l.cluster c)).tasks ∧ t.state = .queued
        ∃ u, exec .launchEnd s = .next u ∧ (NoFreeze s u → u.launch k = { l with ended := true, term := .closed, snaps := [] } ∧
          ((∀ c i t, ¬ queued c i t) → u.mem = (s.endedEvent l status).mem) ∧
          (∀ c i t, queued c i t → (∀ c' i' t', queued c' i' t' → c' = c ∧ i' = i) →
            let id := makeId (l.fc (clusterTile (l.cluster c) 0)) i
            u.mem = (((s.putKey l id t.key).putState l id 1).endedEvent l status).mem) ∧
          (u.vf l.vf).deficit = (s.vf l.vf).deficit - (l.w * l.h * (s.cycle - l.startAt) : Nat) ∧
          (∀ t ∈ l.tiles, (s.tile t).launch = some k → u.tileHeld t = false) ∧
          ∀ i ∈ l.strands, (u.strand i).run = (if (s.strand i).run = .frozen ∧ s.trust.dead = false then .parked else (s.strand i).run))) ∧
      ((∃ t ∈ l.tiles, ∃ x ∈ (s.tile t).l1, x.dirty ≠ 0) → (∀ t ∈ l.tiles, ∀ x ∈ (s.tile t).l1, x.bad = 0) → l.ox + l.w ≤ 32 → ∃ u, exec .launchEnd s = .next u ∧ SameMemory s u ∧
        u.launches = s.launches ∧ ∀ t ∈ l.tiles, ∀ x ∈ (u.tile t).l1, x.dirty = 0)) ∧
    (s.active k = true → l.started = true → l.stalled = false → 2 ^ 20 ≤ l.stall → ∃ u, exec .fieldStall s = .next u ∧ SameMemory s u ∧
      (u.launch k).stalled = true ∧ (u.launch k).term = .closed ∧
      ∀ i ∈ l.strands, ((s.strand i).run = .running ∨ (s.strand i).run = .waiting) → (u.strand i).run = .parked ∧
        (u.strand i).cause = causeOf 0 18 ∧ (u.strand i).epc = (s.strand i).pc.setWidth 64 ∧ (u.strand i).badaddr = 0 ∧ (u.strand i).x = (s.strand i).x)

/-- A write of CMDA by a VF that exists (R349), is not frozen and runs no command. -/
abbrev Commanding (s : State) (op : Nat) : Prop :=
  s.arg.value.toNat % 16 = op ∧ 5 ≤ s.trust.stage ∧ (s.vf s.arg.vf).frozen = false ∧ (s.vf s.arg.vf).command = none

/-- The command runs: BUSY is set and LOST and ERR are clear. -/
def Commanded (s u : State) : Prop :=
  (∃ c, (u.vf s.arg.vf).command = some c ∧ c.op = s.arg.value.toNat % 16 ∧ c.ctx = s.arg.value.toNat / 2 ^ 8 % 8 ∧
    c.tile = s.arg.value.toNat / 2 ^ 32 % 2 ^ 10) ∧
  (u.vf s.arg.vf).cmdErr = false ∧ (u.vf s.arg.vf).cmdLost = false ∧ (u.vf s.arg.vf).cmda = s.arg.value &&& 0x3FF0000070F#64

/-- The command is rejected: ERR is set and nothing else happens (R337). -/
def Rejected (s : State) (i : Instr) : Prop := ∃ u, exec i s = .next u ∧ SameMemory s u ∧ u.tiles = s.tiles ∧ u.strands = s.strands ∧
  (u.vf s.arg.vf).cmdErr = true ∧ (u.vf s.arg.vf).command = none ∧ (u.vf s.arg.vf).cmdLost = (s.vf s.arg.vf).cmdLost

/-- R226, R231, R233: the save instant: the array queue is empty, and no strand has an open level, a parked one either, or the limit has
passed. -/
def SaveInstant (s : State) (t : Nat) : Prop :=
  (s.tile t).array = [] ∧ ((s.tile t).preempt = .expired ∨ ∃ limit, (s.tile t).preempt = .deferring limit ∧
    ∀ j, j < 8 → (s.strand (t * 8 + j)).run ≠ .free → (s.strand (t * 8 + j)).depth = 0)

/-- R323 step 3: near copies, output ports and the tile's encode in progress have drained. -/
def Drained (s : State) (t : Nat) : Prop :=
  (∀ j, j < 8 → (s.strand (t * 8 + j)).drains = [] ∧ ∀ c ∈ (s.strand (t * 8 + j)).copies, c.far = true) ∧
  ((s.cluster (clusterOf t)).targets = none ∨ ∀ e, (s.cluster (clusterOf t)).encoder.head? = some e → e.tile ≠ t)

/-- A tile's state stands within its sizes (R16, R20): 327,680 bytes of store, 16,384 of each slot, 32,768 bank elements, and the registers of each file. -/
def WithinSizes (s : State) (t : Nat) : Prop :=
  (∀ c ∈ (s.tile t).store, c.1 < 327680) ∧ (∀ n, n < 8 → ∀ c ∈ (slotAt (s.tile t) n).mem, c.1 < 16384) ∧
  (∀ p ∈ (s.tile t).banks, p.1 < 32768) ∧
  ∀ j, j < 8 → let r := s.strand (t * 8 + j)
    (∀ p ∈ r.v, p.1 < 32) ∧ (∀ p ∈ r.x, p.1 < 64) ∧ (∀ p ∈ r.k, p.1 < 8) ∧ (∀ p ∈ r.w, p.1 < 64)

/-- R304, R323 to R325: a tile's save area, 1,376,256 bytes to a tile from SAVE of the context's descriptor: its local store stands at the start of
it, its slots and the registers of its strands behind it, and what lies outside stays; a restore reads the same places back, and a strand that
was frozen meanwhile stays as it is (the layout within the area is the model's, log 36). The area lies in a channel that serves (R361). -/
def saveAreaRules : Prop :=
  ∀ (s : State) (t : Nat), Canonical s →
    let l := s.launchOf t
    let base := s.descriptor l.vf l.ctx / 2 ^ 320 % 2 ^ 64 + t * 1376256
    let u := s.writeSaveArea t
    let b := s.readSaveArea t
    let slot (n : Nat) : Nat := base + 327680 + 16384 * n
    let regs (j : Nat) : Nat := base + 589824 + 9232 * j
    s.lostChannel base = false →
    (∀ a, a < 327680 → readCell u .device (base + a) = readCell s (.store t) a) ∧
    (∀ a, a < base → readCell u .device a = readCell s .device a) ∧ (∀ m a, m ≠ .device → readCell u m a = readCell s m a) ∧
    (WithinSizes s t → (∀ n a, n < 8 → a < 16384 → readCell u .device (slot n + a) = readCell s (.slot t n) a) ∧
      ∀ j, j < 8 → let r := s.strand (t * 8 + j)
        (∀ n, 0 < n → n < 64 → readNat u.mem (regs j + 8192 + 8 * n) 8 = (readX r n).toNat) ∧ readNat u.mem (regs j + 8960) 8 = r.pc.toNat ∧
        readNat u.mem (regs j + 8968) 8 = r.status.toNat ∧ readNat u.mem (regs j + 9008) 8 = r.epc.toNat) ∧
    (∀ a, a < 327680 → readCell b (.store t) a = readCell s .device (base + a)) ∧
    (∀ n a, n < 8 → a < 16384 → readCell b (.slot t n) a = readCell s .device (slot n + a)) ∧
    (∀ m a, m ≠ .store t → (∀ n, m ≠ .slot t n) → readCell b m a = readCell s m a) ∧
    (∀ j, j < 8 → let r := s.strand (t * 8 + j)
      let w := b.strand (t * 8 + j)
      (r.run = .frozen → w = r) ∧ w.run = r.run ∧
      (r.run ≠ .frozen → (∀ n, 0 < n → n < 64 → readX w n = BitVec.ofNat 64 (readNat s.mem (regs j + 8192 + 8 * n) 8)) ∧
        w.pc = BitVec.ofNat 32 (readNat s.mem (regs j + 8960) 8) ∧ w.status = BitVec.ofNat 64 (readNat s.mem (regs j + 8968) 8) ∧
        w.epc = BitVec.ofNat 64 (readNat s.mem (regs j + 9008) 8)))

/-- R325: what was diverted reaches its tile: an acknowledgment, the result of an operation, a request to its home. -/
def redeliveryRules : Prop :=
  ∀ (s : State) (t : Nat), Canonical s → (s.tile t).preempt = .running →
    (∀ a : Ack, a.rejected = false → SameMemory s (s.deliverSpilled t (.ack a)) ∧
      (s.deliverSpilled t (.ack a)).strand a.src = { s.strand a.src with posted := (s.strand a.src).posted.filter fun p => p.id != a.post }) ∧
    (∀ slot op o, (s.strand (t * 8 + slot)).longs.find? (fun o => o.id == op) = some o → o.bad = none → o.members = [] → o.acquire = none →
      ∀ n, o.dest = .x n → o.finish = .value →
        let r := s.strand (t * 8 + slot)
        let u := s.deliverSpilled t (.result slot op)
        SameMemory s u ∧ readX (u.strand (t * 8 + slot)) n = (if n = 0 then 0 else o.data.setWidth 64) ∧
        (u.strand (t * 8 + slot)).longs = r.longs.filter (fun k => k.id != op) ∧
        (u.strand (t * 8 + slot)).status = r.status ||| o.flags.setWidth 64) ∧
    (∀ m p bytes, m.home = .tile t → m.cut = none → m.body = .write p 0 bytes → m.leaf = none → (s.tile t).launch = (s.tile (m.src / 8)).launch →
      (s.tile t).race = false →
      let u := s.deliverSpilled t (.request m)
      readBytes (u.tile t).store m.addr bytes.length = bytes ∧ u.acks = s.acks ++ [⟨s.fresh, m.src, p, false, false⟩] ∧ u.strands = s.strands)

/-- R150, R233, R323 to R325, R337: pre-emption: the deferral starts; its limit passes; at the save instant the tile stops, and its queued
encodes are withdrawn; once it has drained its L1 is written back and dropped, its state goes to its save area and the event of the save is
posted; it is restored from its save area (log 36), with what was diverted delivered in order, and the strands that waited for closed heaps return. An
uncorrectable save area freezes the VF, which is the model's choice (log 40). -/
def preemptionRules : Prop :=
  ∀ (s : State), Canonical s →
    let v := s.arg.vf
    let t := s.arg.value.toNat / 2 ^ 32 % 2 ^ 10
    let owned := (s.vf v).clusters.getLsbD (clusterOf t) = true ∧ s.tileHeld t = true ∧ (s.launchOf t).vf = v
    let a := s.arg.tile
    let cl := s.cluster (clusterOf a)
    let busy := if cl.targets = none then [] else cl.encoder.take 1
    (Commanding s 5 →
      (owned → (s.launchOf t).started = true → (s.tile t).preempt = .running → ∃ u, exec .preempt s = .next u ∧
        SameMemory s u ∧ Commanded s u ∧ u.tile t = { s.tile t with preempt := .deferring (s.dt + BitVec.ofNat 64 (s.vf v).defer) }) ∧
      (¬ owned ∨ (s.launchOf t).started = false → Rejected s .preempt)) ∧
    (∀ limit, (s.tile a).preempt = .deferring limit →
      (limit.toNat ≤ s.dt.toNat → ∃ u, exec .preemptionDeferralExpiry s = .next u ∧
        SameMemory s u ∧ u.tile a = { s.tile a with preempt := .expired } ∧
        ∀ j, j < 8 → (s.strand (a * 8 + j)).run ≠ .free →
          (u.strand (a * 8 + j)).broken = ((s.strand (a * 8 + j)).broken || decide (0 < (s.strand (a * 8 + j)).depth))) ∧
      (s.dt.toNat < limit.toNat → exec .preemptionDeferralExpiry s = .next s)) ∧
    (SaveInstant s a → ∃ u, exec .tileSave s = .next u ∧ SameMemory s u ∧ u.strands = s.strands ∧
      u.tile a = { s.tile a with preempt := .saving, encodes := (cl.encoder.drop busy.length).filter fun e => e.tile == a } ∧
      (u.cluster (clusterOf a)).encoder = busy ++ (cl.encoder.drop busy.length).filter fun e => e.tile != a) ∧
    (¬ SaveInstant s a → (s.tile a).preempt ≠ .saving ∨ ¬ Drained s a → exec .tileSave s = .next s) ∧
    ((s.tile a).preempt = .saving → Drained s a → (∀ x ∈ (s.tile a).l1, SoundLine s x) → ∃ u, exec .tileSave s = .next u ∧
      u.tile a = { s.tile a with preempt := .saved, l1 := [] } ∧
      (∀ x ∈ (s.tile a).l1, x.dirty ≠ 0 → ∃ m p, m ∈ u.net ∧ m.home = x.home ∧ m.addr = x.pa ∧ m.body = .writeback p x.data x.dirty) ∧
      (∀ kind x, s.saveLost a false = some (kind, x) → (u.vf (s.launchOf a).vf).frozen = true) ∧
      (s.saveLost a false = none → u.mem = ((s.writeSaveArea a).event (s.launchOf a).vf 6 (BitVec.ofNat 64 a)
        (BitVec.ofNat 64 ((List.range 8).filter fun j => (s.strand (a * 8 + j)).broken).length)).mem)) ∧
    (Commanding s 6 →
      (∀ kind x, owned → (s.tile t).preempt = .saved → s.saveLost t true = some (kind, x) → ∃ u, exec .restore s = .next u ∧
        (u.vf v).frozen = true ∧ u.tile t = s.tile t) ∧
      (owned → (s.tile t).preempt = .saved → s.saveLost t true = none → ∃ u w, exec .restore s = .next u ∧ Commanded s w ∧ w.strands = (s.readSaveArea t).strands ∧
        (∀ m k, readCell w m k = readCell (s.readSaveArea t) m k) ∧
        w.net = s.net ∧ w.tile t = { (s.readSaveArea t).tile t with preempt := .running, spill := [], encodes := [] } ∧
        (w.cluster (clusterOf t)).encoder = (s.cluster (clusterOf t)).encoder ++ (s.tile t).encodes ∧
        let d := (s.tile t).spill.foldl (fun r m => r.deliverSpilled t m) w
        ((s.launchOf t).tasks = none ∨ (s.launchOf t).term ≠ .closed → u = d) ∧
        ((s.launchOf t).tasks ≠ none → (s.launchOf t).term = .closed → (s.tile t).spill = [] → ∀ j, j < 8 →
          let r := (s.readSaveArea t).strand (t * 8 + j)
          u.strand (t * 8 + j) = if r.run = .waiting ∧ r.broken = false
            then { writeX r 1 (BitVec.allOnes 64) with run := .running, pc := r.pc + 8, startedAt := s.cycle + 1 } else r)) ∧
      ((s.vf v).clusters.getLsbD (clusterOf t) = false ∨ (s.tile t).preempt ≠ .saved → Rejected s .restore))

/-- R327: one record of a serving table when its tenant's VF is reset: ARG3[31] is set; a queued or lent task leaves its heap with STATE 10; a
running one will retire at its end, an idle one is not inserted again. An uncorrectable record freezes the VF that owns the heap (R358; log 38). -/
def servingRules : Prop :=
  ∀ (s : State) (l : Launch) (cl i v : Nat), Canonical s →
    let id := makeId (l.fc (clusterTile cl 0)) i
    let old := s.record l id
    let task := (s.cluster cl).task i
    let u := s.resetRecord l cl i v
    let marked := s.putRecord l id 31 1 (old / 2 ^ 248 % 2 ^ 8 ||| 128)
    (∀ kind x, s.recordLost l id 24 8 = some (kind, x) → u = s.freezeHoist cl kind x) ∧
    (s.recordLost l id 24 8 = none →
      (old / 2 ^ 224 % 2 ^ 7 ≠ v ∨ task.state = .retired → u = s) ∧
      (old / 2 ^ 224 % 2 ^ 7 = v →
        (task.state = .queued ∨ task.state = .lent → ((u.cluster cl).task i).state = .retired ∧ (NoFreeze s u → u.mem = (marked.putState l id 2).mem)) ∧
        (task.state = .running ∨ task.state = .idle → (u.cluster cl).task i = { task with killed := true } ∧ u.mem = marked.mem))) ∧
    (NoFreeze s u → u.strands = s.strands) ∧ u.tiles = s.tiles

/-- R216, R326, R349: the reset of a VF, of which there is none before stage 5: it stops; after 100,000 ns its work, its launches, the state of its tiles and its entries in every cache are
gone; and then it is ready again. Its tiles are those that its launches hold or held last, and the free ones of its clusters (log 36). That LQHEAD comes to
LQTAIL is the model's choice (log 34). -/
def vfResetRules : Prop :=
  ∀ (s : State), Canonical s →
    let v := s.arg.vf
    let f := s.vf v
    let mine (t : Nat) : Prop := (∃ k, (s.tile t).launch = some k ∧ k / 2 ^ 32 = v) ∨ (f.clusters.getLsbD (clusterOf t) = true ∧ s.tileHeld t = false)
    (f.reset = none → 5 ≤ s.trust.stage → ∃ u, exec .vfReset s = .next u ∧ SameMemory s u ∧ u.vf v = { f with reset := some ⟨s.dt + 100000, false⟩ } ∧
      u.tiles = s.tiles ∧ u.strands = s.strands) ∧
    (∀ w, f.reset = some w → w.cleared = false → s.dt.toNat < w.until_.toNat → exec .vfResetDrainExpiry s = .next s) ∧
    (s.trust.stage < 5 → exec .vfReset s = .next s ∧ exec .vfResetDrainExpiry s = .next s ∧ exec .vfResetComplete s = .next s) ∧
    (∀ w, f.reset = some w → w.cleared = false → w.until_.toNat ≤ s.dt.toNat → 5 ≤ s.trust.stage → (∀ c, (s.cluster c).bad = false) →
      ∃ u, exec .vfResetDrainExpiry s = .next u ∧
      (NoFreeze s u → u.vf v = { f with reset := some { w with cleared := true }, launchNo := 0, command := none, lqhead := f.lqtail, halfRate := [] }) ∧
      (∀ p ∈ u.launches, p.2.vf ≠ v) ∧
      (∀ p ∈ s.tiles, mine p.1 → u.tile p.1 = {} ∧ (NoFreeze s u → (∀ j, j < 8 → u.strand (p.1 * 8 + j) = {}) ∧ ∀ m ∈ u.net, m.src / 8 ≠ p.1)) ∧
      (∀ c e, e ∈ (u.cluster c).tlb → e.tag / 8 ≠ v) ∧ (∀ c e, e ∈ (u.cluster c).handles → e.tag / 8 ≠ v) ∧
      (∀ t e, e ∈ (u.tile t).tlb → e.tag / 8 ≠ v) ∧ ∀ t x, x ∈ (u.tile t).l1 → x.owner / 8 ≠ v) ∧
    (∀ w, f.reset = some w → w.cleared = true → 5 ≤ s.trust.stage → ∃ u, exec .vfResetComplete s = .next u ∧ (u.vf v).reset = none ∧
      (u.vf v).flrDone = true ∧ u.mem = (s.event v 7 0 0).mem ∧ u.tiles = s.tiles ∧ u.strands = s.strands)

/-! The host ports. -/

/-- R312, R363: an access of a tag at an address passed an entry that a translation invalidation removes: the page through which it was translated,
of 2^`page` bytes, meets the range. -/
abbrev PassedRemoved (r : InvRange) (tag va page : Nat) : Prop := r.meets tag (va / 2 ^ page * 2 ^ page) (2 ^ page) = true

/-- R306, R311, R312, R337, R349, R353, R363: commands: what each leaves; when one is rejected, lost, or dropped; and when it is complete. -/
def commandRules : Prop :=
  ∀ (s : State), Canonical s →
    let v := s.arg.vf
    let f := s.vf v
    let op := s.arg.value.toNat % 16
    let tag := v * 8 + s.arg.value.toNat / 2 ^ 8 % 8
    let t := s.arg.value.toNat / 2 ^ 32 % 2 ^ 10
    let owned := f.clusters.getLsbD (clusterOf t) = true
    let range : InvRange := ⟨tag, f.cmdb.toNat, f.cmdc.toNat⟩
    let all (told : Instr → Prop) : Prop := (op = 1 → told .handleInvalidation) ∧ (op = 2 → told .translationInvalidation) ∧
      (op = 3 → told .resume) ∧ (op = 4 → told .refuse) ∧ (op = 5 → told .preempt) ∧ (op = 6 → told .restore) ∧
      (op = 0 ∨ 7 ≤ op → told .commandUndefinedOp)
    (∀ o, Commanding s o → ¬ owned → all (Rejected s)) ∧
    (Commanding s 1 → owned → ∃ u, exec .handleInvalidation s = .next u ∧ SameMemory s u ∧ Commanded s u ∧
      (∀ c e, e ∈ (u.cluster c).handles → e.tag ≠ tag) ∧ ∀ c e, e ∈ (s.cluster c).handles → e.tag ≠ tag → e ∈ (u.cluster c).handles) ∧
    (Commanding s 2 → owned → ∃ u, exec .translationInvalidation s = .next u ∧ SameMemory s u ∧ Commanded s u ∧
      (∀ i e, e ∈ (u.tile i).tlb → range.meets e.tag (e.page * 2 ^ e.bits) (2 ^ e.bits) = false) ∧
      (∀ c e, e ∈ (u.cluster c).tlb → range.meets e.tag (e.page * 2 ^ e.bits) (2 ^ e.bits) = false) ∧
      (∀ i w, w ∈ (u.strand i).walks → range.meets w.tag w.va 1 = false) ∧
      (∀ i x, (∃ c, x.home = .channel c) ∧ PassedRemoved range x.context (x.line * 128) x.page →
        (x ∈ (u.tile i).l1 → x.withdrawn = true) ∧ (x ∈ (s.tile i).l1 → { x with withdrawn := true } ∈ (u.tile i).l1)) ∧
      (∀ i x, x ∈ (s.tile i).l1 → ¬ ((∃ c, x.home = .channel c) ∧ PassedRemoved range x.context (x.line * 128) x.page) → x ∈ (u.tile i).l1) ∧
      (∀ m c g, m ∈ u.net → m.home = .channel c → m.tag = some g → PassedRemoved range g m.va m.page →
        m.withdrawn = true ∧ ∃ d, (u.vf v).command = some d ∧ m.id ∈ d.wait)) ∧
    (Commanding s 3 → (∀ i c, owned → s.heldCopy t = some (i, c) → ∃ u, exec .resume s = .next u ∧ SameMemory s u ∧ Commanded s u ∧
        (u.strand i).copies = (s.strand i).copies.map fun d => if d.num = c.num then { d with held := none, resumed := true } else d) ∧
      (¬ owned ∨ s.heldCopy t = none → Rejected s .resume)) ∧
    (Commanding s 4 → (∀ i c va, owned → s.heldCopy t = some (i, c) → c.held = some va → ∃ u, exec .refuse s = .next u ∧
        ((s.tile t).preempt ≠ .saved → SameMemory s u) ∧ Commanded s u ∧
        (c.writing = true → (u.strand i).copies = (s.strand i).copies.filter (fun d => d.num != c.num) ∧
          (u.strand i).tlc = (s.strand i).tlc.fail c.num c.flags va) ∧
        (c.writing = false → (u.strand i).tlc = (s.strand i).tlc ∧ ∀ d ∈ (u.strand i).copies, d.num = c.num → d.refused = true ∧ d.held = none ∧
          d.writing = true ∧ d.buf.getLast?.any (fun e => e.lost && e.va == va.toNat) = true)) ∧
      (¬ owned ∨ s.heldCopy t = none → Rejected s .refuse)) ∧
    (∀ o, Commanding s o → o = 0 ∨ 7 ≤ o → Rejected s .commandUndefinedOp) ∧
    (∀ c, 5 ≤ s.trust.stage → f.frozen = false → f.command = some c →
      all fun i => ∃ u, exec i s = .next u ∧ SameMemory s u ∧ u.tiles = s.tiles ∧ u.strands = s.strands ∧ u.vf v = { f with cmdLost := true }) ∧
    (s.trust.stage < 5 ∨ f.frozen = true → all fun i => exec i s = .next s) ∧
    (∀ c, f.command = some c →
      let done := if c.op = 2 then (∀ m ∈ s.net, m.id ∉ c.wait)
        else if c.op = 3 ∨ c.op = 4 then (∀ j, j < 8 → ∀ x ∈ (s.strand (c.tile * 8 + j)).copies, x.resumed = false ∧ x.refused = false)
        else if c.op = 5 then (s.tile c.tile).preempt = .saved ∨ (s.tile c.tile).preempt = .running
        else True
      (done → ∃ u, exec .commandComplete s = .next u ∧ SameMemory s u ∧ u.vf v = { f with command := none }) ∧
      (¬ done → exec .commandComplete s = .next s))

/-- R331: a port through which a host reaches the device: A, and B in upstream mode. -/
abbrev HostSide (s : State) (port : Nat) : Prop := port = 0 ∨ (port = 1 ∧ s.portB = .upstream)

/-- R331, R333 to R335, R349, R353: the register window, and the tail of the launch queue: what the host stored in its own memory first, through
that port, is there when the launch engine reads it. -/
def windowRules : Prop :=
  ∀ (s : State), Canonical s →
    let v := s.arg.vf
    let f := s.vf v
    let o := s.arg.offset
    let w := s.arg.value
    let port := s.arg.port
    let good := f.frozen = false ∧ 5 ≤ s.trust.stage ∧ s.arg.size = 8 ∧ o % 8 = 0
    let reads (at_ : Nat) (x : Word) : Prop := good → s.arg.data = none → o = at_ → ∃ u, exec .bar0RegisterWrite s = .next u ∧
      SameMemory s u ∧ u.vfs = s.vfs ∧ u.hostReads = s.hostReads ++ [natToBytes 8 x.toNat]
    let writes (at_ : Nat) (g : Vf) : Prop := ∀ d, good → s.arg.data = some d → o = at_ → ∃ u, exec .bar0RegisterWrite s = .next u ∧
      SameMemory s u ∧ u.vf v = g ∧ u.hostReads = s.hostReads
    (HostSide s port →
      reads 0 (BitVec.ofNat 64 (v % 128 + s.linkId.toNat * 2 ^ 16)) ∧ reads 8 f.lqbase ∧ reads 16 (f.lqtail.setWidth 64) ∧
      reads 24 (f.lqhead.setWidth 64) ∧ reads 32 f.evq ∧ reads 40 f.log ∧ reads 48 f.ien ∧ reads 56 f.wctx ∧ reads 256 f.cmda ∧
      reads 264 f.cmdb ∧ reads 272 f.cmdc ∧
      reads 280 (BitVec.ofNat 64 ((if f.command.isSome then 1 else 0) + (if f.cmdErr then 2 else 0) + (if f.cmdLost then 4 else 0))) ∧
      reads 64 0 ∧
      writes 8 { f with lqbase := w &&& ~~~ 16383#64, lqPort := port } ∧ writes 32 { f with evq := w } ∧ writes 40 { f with log := w } ∧
      writes 48 { f with ien := w &&& 1 } ∧ writes 56 { f with wctx := w &&& 7 } ∧ writes 264 { f with cmdb := w } ∧
      writes 272 { f with cmdc := w } ∧ writes 0 f ∧ writes 24 f ∧ writes 280 f ∧
      (¬ good → s.arg.data = none → ∃ u, exec .bar0RegisterWrite s = .next u ∧ u.vfs = s.vfs ∧
        u.hostReads = s.hostReads ++ [List.replicate s.arg.size 255]) ∧
      (∀ d, ¬ good → s.arg.data = some d → exec .bar0RegisterWrite s = .next s) ∧
      (let tail : BitVec 32 := w.setWidth 32
       ∃ u, exec .lqtailWrite s = .next u ∧ u.tiles = s.tiles ∧ u.strands = s.strands ∧ u.net = s.net ∧
         (∀ m a, m ≠ .host → readCell u m a = readCell s m a) ∧ (s.arg.data = none → u.hostMem = s.hostMem) ∧
         (∀ bytes, s.arg.data = some bytes → readBytes u.hostMem (port * 2 ^ 64 + o) bytes.length = bytes) ∧
         (f.frozen = false → 5 ≤ s.trust.stage → (tail - f.lqhead).toNat ≤ 256 → u.vf v = { f with lqtail := tail }) ∧
         (f.frozen = true ∨ s.trust.stage < 5 ∨ 256 < (tail - f.lqhead).toNat → u.vf v = f))) ∧
    (¬ HostSide s port → exec .bar0RegisterWrite s = .next s ∧ exec .lqtailWrite s = .next s) ∧
    s.headEntry v = readNat s.hostMem (f.lqPort * 2 ^ 64 + f.lqbase.toNat + 64 * (f.lqhead.toNat % 256)) 64

/-- R338, R339, R353: a port that carries flits: up, not frozen, and with no flit that has failed nine times, in either direction. -/
abbrev Carries (p : LinkPort) : Prop := p.down = false ∧ p.frozen = false ∧ p.failures < 9 ∧ p.sendFails < 9

/-- R254, R309, R333, R340, R349, R353: a host access through BAR2 and a request of another device are performed in device memory where every
byte is mapped with the rights that it needs, in one page here; reads are answered with the bytes, atomics with the old value and their flags. -/
def outsideRules : Prop :=
  ∀ (s : State) (e : TlbEntry) (bytes : List Byte), Canonical s → s.badWords = [] → s.retired = 0 → e.log = false →
    let v := s.arg.vf
    let f := s.vf v
    let n := s.arg.size
    let data := s.arg.data
    let mapped (tag va : Nat) : Prop := ∀ j, j < n → s.walk tag (va + j) = .leaf e ∧ (va + j) % 2 ^ e.bits = va % 2 ^ e.bits + j
    let stored (u : State) (a : Nat) (bs : List Byte) : Prop := readBytes u.mem a n = bs ∧
      ∀ m c, (m = .device → c < a ∨ a + n ≤ c) → readCell u m c = readCell s m c
    (let va := s.arg.offset % 2 ^ 36
     let a := e.pa + va % 2 ^ e.bits
     let ones := s.hostReads ++ [List.replicate n 255]
     (HostSide s s.arg.port → f.frozen = false → 5 ≤ s.trust.stage → mapped (v * 8 + f.wctx.toNat % 8) va →
       (data = none → e.rd = true → ∃ u, exec .bar2Access s = .next u ∧ SameMemory s u ∧ u.hostReads = s.hostReads ++ [readBytes s.mem a n]) ∧
       (data = some bytes → bytes.length = n → e.wr = true → ∃ u, exec .bar2Access s = .next u ∧ stored u a bytes) ∧
       (data = none → e.rd = false → 0 < n → ∃ u, exec .bar2Access s = .next u ∧ SameMemory s u ∧ u.hostReads = ones) ∧
       (data = some bytes → e.wr = false → 0 < n → exec .bar2Access s = .next s)) ∧
     (HostSide s s.arg.port → f.frozen = true ∨ s.trust.stage < 5 →
       (data = none → ∃ u, exec .bar2Access s = .next u ∧ SameMemory s u ∧ u.hostReads = ones) ∧
       (data = some bytes → exec .bar2Access s = .next s)) ∧
     (¬ HostSide s s.arg.port → exec .bar2Access s = .next s)) ∧
    (let va := s.arg.offset % 2 ^ 49
     let a := e.pa + va % 2 ^ e.bits
     let p := s.link s.arg.port
     let old := readBytes s.mem a n
     let answers (u : State) (x : Option (List Byte × Flags)) : Prop := u.link s.arg.port = { p with answers := p.answers ++ [x] }
     let does (rd wr : Bool) (after : Option (List Byte)) (x : List Byte × Flags) : Prop :=
       ((rd = true → e.rd = true) → (wr = true → e.wr = true) → ∃ u, exec .fabricRequestArrival s = .next u ∧ answers u (some x) ∧
         match after with
         | none => SameMemory s u
         | some bs => stored u a bs) ∧
       ((rd = true ∧ e.rd = false) ∨ (wr = true ∧ e.wr = false) → 0 < n → ∃ u, exec .fabricRequestArrival s = .next u ∧ SameMemory s u ∧
         answers u none)
     (Carries p → f.fabric.getLsbD s.arg.port = true → mapped (v * 8 + s.arg.ctx % 8) va →
       (s.arg.remote = .plain → data = none → does true false none (old, 0)) ∧
       (s.arg.remote = .plain → data = some bytes → bytes.length = n → does false true (some bytes) ([], 0)) ∧
       (∀ want, s.arg.remote = .compare want → data = some bytes → bytes.length = n → does false true (if old = want then some bytes else none) ([], 0)) ∧
       (∀ sub fmt b c, s.arg.remote = .atomic sub fmt b c →
         let y := atomicNew sub fmt (bytesToNat old) b c
         does true true (some (natToBytes n y.1)) (old, y.2))) ∧
     (¬ Carries p ∨ f.fabric.getLsbD s.arg.port = false → exec .fabricRequestArrival s = .next s))

/-! The clock and the links. -/

/-- R26, R27, R235, R321: throttle requests wait for spans to close, or become hard after 1 ms, and then step the clock at a cycle boundary,
with an event to every VF that owns a cluster. -/
def clockRules : Prop :=
  ∀ (s : State),
    let m := s.arg.mhz
    let lower := (m = 600 ∨ m = 480 ∨ m = 360) ∧ m < s.mhz
    let asks (i : Instr) (hard : Bool) : Prop :=
      (lower → exec i s = .next { s with throttles := s.throttles ++ [⟨s.arg.die, m, s.dt, hard⟩] }) ∧ (¬ lower → exec i s = .next s)
    let steps (die mhz : Nat) (u : State) : Prop := u.mhz = mhz ∧ u.strands = s.strands ∧ u.tiles = s.tiles ∧
      u.mem = ((s.vfs.filter fun p => p.2.clusters != 0).foldl (fun r p => r.event p.1 3 (BitVec.ofNat 64 die) (BitVec.ofNat 64 mhz)) s).mem
    asks .softThrottleRequest false ∧ asks .criticalTemperature true ∧
    (exec .hardThrottle s = .next { s with throttles := s.throttles.map fun t =>
      if t.hard = false ∧ t.at_.toNat + 1000000 ≤ s.dt.toNat then { t with hard := true, at_ := s.dt } else t }) ∧
    (s.cursor ≠ 0 → exec .throttleStep s = .next s) ∧
    (∀ t rest, s.cursor = 0 → s.throttles = t :: rest → t ∉ rest → t.mhz < s.mhz →
      let ready := t.hard = true ∨ ∀ p ∈ s.strands, p.2.run ≠ .free → p.2.depth = 0
      (ready → ∃ u, exec .throttleStep s = .next u ∧ u.throttles = rest ∧ steps t.die t.mhz u) ∧
      (¬ ready → rest = [] → exec .throttleStep s = .next s)) ∧
    (s.cursor = 0 → s.throttles = [] → (m = 600 ∨ m = 480 ∨ m = 360) → s.mhz < m → ∃ u, exec .throttleStep s = .next u ∧ u.throttles = [] ∧
      steps s.arg.die m u)

/-- R339: the port that a message of a VF to device `d` takes: the owned port of number d mod m, counted from the lowest, or the first after it,
going round, that carries flits. A port whose flit has failed nine times carries none (R338). -/
def TakesPort (s : State) (v d q : Nat) : Prop :=
  let ports := (List.range 96).filter fun p => (s.vf v).fabric.getLsbD p
  let carries (i : Nat) : Prop := ∃ p, ports[(d + i) % ports.length]? = some p ∧ Carries (s.link p)
  ∃ i, i < ports.length ∧ ports[(d + i) % ports.length]? = some q ∧ carries i ∧ ∀ j, j < i → ¬ carries j

/-- R254, R338, R339, R341: a message to another device leaves on its port under the port's next sequence number, and the port keeps it to send again.
It enters once the earlier ones of its strand to that device, and what went to its line before it, have entered a port, and no other port still carries
its pair's messages: the wait for the pair follows from the move and the delivery in order (R339, R341), and in which order the messages of different strands
enter is left open (log 41). -/
def sendingRules : Prop :=
  ∀ (s : State) (m : Msg) (d : Nat), Canonical s → m.home = .fabric d → d < 65536 →
    let v := (s.launchOf (m.src / 8)).vf
    (∀ q, TakesPort s v d q → s.sendOut m = s.setLink q { s.link q with
      out := (s.link q).out ++ [((s.link q).sendSeq, m.id)], sendSeq := (s.link q).sendSeq + 1 }) ∧
    ((∀ q, ¬ TakesPort s v d q) → s.sendOut m = s) ∧
    (let entered (n : Msg) : Prop := ∃ p ∈ s.links, ∃ o ∈ p.2.out, o.2 = n.id
     let turn (q : Nat) : Prop := (∀ n ∈ s.net, (n.src = m.src ∧ n.home = m.home ∧ n.id < m.id) ∨ m.lineAfter n = true → entered n) ∧
       ∀ p ∈ s.links, p.1 ≠ q → ∀ o ∈ p.2.out, ∀ n ∈ s.net, n.id = o.2 → ¬ (n.home = m.home ∧ (s.launchOf (n.src / 8)).vf = v)
     ∀ q, s.message s.arg.message = some m → TakesPort s v d q → ¬ entered m →
       (turn q → exec .homeRequestService s = .next (s.sendOut m)) ∧ (¬ turn q → exec .homeRequestService s = .next s))

/-- R338, R339, R345, R353, R356, R361: flits are delivered in sequence and intact; a bad one is asked for again, and one that fails nine times, in
either direction, takes the port down until it retrains, unless it is retired: what it had still to send goes to the next ports of its pairs, in
order, and is refused where none is left (home 65,536 names no device). Every retry is counted, those of link n of the mesh as of port 96 + n (log 41). -/
def flitRules : Prop :=
  ∀ (s : State), Canonical s →
    let n := s.arg.port
    let p := s.link n
    let t := s.arg.flit
    let seq : BitVec 8 := t.header.setWidth 8
    let intact := t.crc = crcBytes (natToBytes 8 t.header.toNat ++ natToBytes 240 t.payload.toNat)
    let up := Carries p
    let becomes (i : Instr) (q : LinkPort) : Prop := ∃ u, exec i s = .next u ∧ SameMemory s u ∧ u.link n = q
    (s.arg.refused = false → up → n < 96 → intact → seq = p.expect → becomes .flitReceive
      { p with expect := p.expect + 1, failures := 0, nak := false, delivered := p.delivered ++ [t.payload] }) ∧
    (s.arg.refused = false → up → intact → seq ≠ p.expect → becomes .flitReceive p) ∧
    let day (ts : List Word) : List Word := (ts.filter fun t => s.dt.toNat < t.toNat + 24 * 3600 * 1000000000) ++ [s.dt]
    (s.arg.refused = false → up → ¬ intact → p.nak = false ∨ seq = p.expect → n < 96 →
      becomes .flitReceive { p with nak := true, failures := p.failures + 1, retries := day p.retries }) ∧
    (s.arg.refused = false → up → ¬ intact → p.nak = true → seq ≠ p.expect → becomes .flitReceive p) ∧
    (¬ up → becomes .flitReceive p) ∧
    (s.arg.refused = true → up → n < 96 → becomes .flitReceive { p with sendFails := p.sendFails + 1, retries := day p.retries }) ∧
    (96 ≤ n → mapWf [] s.trust.meshRetries = true → ∃ u, exec .flitReceive s = .next u ∧ SameMemory s u ∧ u.links = s.links ∧
      ∀ k, mapGet [] u.trust.meshRetries k = if k = n - 96 ∧ (s.arg.refused = true ∨ ¬ intact) then day (mapGet [] s.trust.meshRetries k)
        else mapGet [] s.trust.meshRetries k) ∧
    (9 ≤ p.failures ∨ 9 ≤ p.sendFails → becomes .fabricPortDown { p with down := true, sendFails := 0, out := [] } ∧
      let gone := s.setLink n { p with down := true, sendFails := 0, out := [] }
      let goes (m : Msg) : Prop := ∃ d q, m.home = .fabric d ∧ d < 65536 ∧ TakesPort gone (s.launchOf (m.src / 8)).vf d q
      let nowhere (m : Msg) : Prop := ∃ d, m.home = .fabric d ∧ (∀ q, ¬ TakesPort gone (s.launchOf (m.src / 8)).vf d q) ∧
        ∀ q ∈ gone.links, ∀ o ∈ q.2.out, o.2 ≠ m.id
      (∀ o m, p.out = [o] → s.message o.2 = some m →
        (goes m → exec .fabricPortDown s = .next (gone.sendOut m)) ∧
        (nowhere m → exec .fabricPortDown s = .next
          { gone with net := gone.net.map fun x => if x.id = m.id then { x with home := .fabric 65536, cut := none } else x })) ∧
      (∀ o o' m m', p.out = [o, o'] → s.message o.2 = some m → s.message o'.2 = some m' → goes m → goes m' →
        exec .fabricPortDown s = .next ((gone.sendOut m).sendOut m'))) ∧
    (p.failures < 9 → p.sendFails < 9 → exec .fabricPortDown s = .next s) ∧
    (p.retired = false → s.trust.dead = false → becomes .fabricPortRetrain { p with
      down := false, frozen := false, expect := 0, failures := 0, nak := false, sendSeq := 0, sendFails := 0 }) ∧
    (p.retired = true → exec .fabricPortRetrain s = .next s)

/-- R311, R317, R332: the pool: the published occupancy, and the loss of its link, which holds every pool element in flight: none of
a tile that is saved or being saved, whose far copies have stopped at an element boundary (R323). -/
def poolRules : Prop :=
  ∀ (s : State), Canonical s →
    (∃ u, exec .poolOccupancyPublication s = .next u ∧ SameMemory s u ∧ u.strands = s.strands ∧
      ∀ v c, v < 96 → (c ∈ (u.vf v).halfRate ↔ (v, c) ∈ s.arg.busy ∧ s.pooled.getLsbD c = true)) ∧
    (s.arg.up = true → exec .poolLinkDown s = .next { s with poolDown := false }) ∧
    (s.arg.up = false → ∃ u, exec .poolLinkDown s = .next u ∧ u.tiles = s.tiles ∧ u.poolDown = true ∧
      (∀ i, s.diverts (i / 8) = true → u.strand i = s.strand i) ∧
      ∀ i c, s.diverts (i / 8) = false → (s.strand i).copyAt true = some c → c.row < c.rows → c.poolPlace ≠ none → ∃ d ∈ (u.strand i).copies, d.num = c.num ∧ d.held ≠ none)

/-! Trust. -/

/-- R347: an image of a KIND that every check admits. -/
def Accepted (t : Trust) (kind : Nat) (img : List Byte) : Prop :=
  let field (o n : Nat) : Nat := bytesToNat ((img.drop o).take n)
  let len := field 0x10 8
  field 0 4 = 0x4956524B ∧ field 4 4 = kind ∧ field 0x18 4 < 4 ∧ (mapGet (0 : BitVec 4) t.revoked kind).getLsbD (field 0x18 4) = false ∧
  mapGet 0 t.fusedSvn kind ≤ field 8 8 ∧ ((img.drop 0xB00).take len).length = len ∧
  (sha384 ((img.drop 0xB00).take len)).toNat = field 0x20 48 ∧
  ecdsaVerify (Config.ecdsaKey (field 0x18 4)) (img.take 0x50) ((img.drop 0x50).take 96) = true ∧
  lmsVerify (Config.lmsKey (field 0x18 4)) (img.take 0x50) ((img.drop 0xB0).take 2508) = true

/-- R359: the repair table with new entries, under a new MAC. -/
def RepairedBy (t u : Trust) (new : List Failing) : Prop :=
  u.repair = t.repair ++ new ∧ (new = [] → u.repairMac = t.repairMac) ∧
  (new ≠ [] → u.repairMac = Config.repairMac t.secret ((t.repair ++ new).flatMap failingBytes))

/-- R345, R346, R349, R359, R360: power-on reset runs the boot as far as the images on offer admit; what the table names, or this boot's tests
add to it, is out of service; afterwards a retry or a recovery load goes on. -/
def bootRules : Prop :=
  ∀ (s : State),
    let t := s.trust
    let stage5 (u : State) (img : List Byte) : Prop :=
      u.trust.stage = 5 ∧ u.trust.pfReady = true ∧ u.trust.fwHeader = img.take 0xA7C ∧ u.trust.recovery = false ∧ u.trust.frozenCores = 0
    (∃ u, exec .powerOnReset s = .next u ∧ u.dt36 = 0 ∧ u.mhz = 600 ∧ u.portB = s.arg.portB ∧ u.strands = [] ∧ u.tiles = [] ∧ u.launches = [] ∧ u.vfs = [] ∧
      u.mem = [] ∧ u.net = [] ∧ u.pooled = 0 ∧ u.hostMem = s.hostMem ∧ u.remote = s.remote ∧ u.trust.fusedSvn = t.fusedSvn ∧
      u.trust.revoked = t.revoked ∧ u.trust.secret = t.secret ∧ u.trust.dead = false ∧
      RepairedBy t u.trust (s.arg.tests.filter failingAtBoot) ∧
      (∀ n, n < 384 → (u.retired.getLsbD n = true ↔ .channel n ∈ u.trust.repair)) ∧
      (∀ n, (u.cluster n).retired = true ↔ ∃ fatal, .cluster n fatal ∈ u.trust.repair) ∧
      (∀ n, ((u.link n).retired = true ↔ .link n ∈ u.trust.repair) ∧ ((u.link n).retired = true → (u.link n).down = true)) ∧
      (∀ n, n < 2048 → (u.trust.meshDown.getLsbD n = true ↔ .meshLink n ∈ u.trust.repair)) ∧
      (Accepted t 1 t.flashA → Accepted t 2 t.mgmtImage → stage5 u t.mgmtImage ∧ u.trust.partHeader = t.flashA.take 0xA7C) ∧
      (¬ Accepted t 1 t.flashA → Accepted t 1 t.flashB → Accepted t 2 t.mgmtImage →
        stage5 u t.mgmtImage ∧ u.trust.partHeader = t.flashB.take 0xA7C) ∧
      (Accepted t 1 t.flashA → ¬ Accepted t 2 t.mgmtImage → Accepted t 2 t.peerImage → stage5 u t.peerImage) ∧
      (Accepted t 1 t.flashA → ¬ Accepted t 2 t.mgmtImage → ¬ Accepted t 2 t.peerImage →
        u.trust.stage = 3 ∧ u.trust.pfReady = false ∧ u.trust.retryAt = 10000000000) ∧
      (¬ Accepted t 1 t.flashA → ¬ Accepted t 1 t.flashB → u.trust.stage = 2 ∧ u.trust.recovery = true ∧ u.trust.pfReady = false)) ∧
    (t.dead = false →
      (t.stage = 3 → t.recovery = false → t.retryAt.toNat ≤ s.dt.toNat → s.arg.image ≠ [] →
        (Accepted t 2 s.arg.image → ∃ u, exec .managementFirmwareRetry s = .next u ∧ stage5 u s.arg.image ∧ u.tiles = s.tiles) ∧
        (¬ Accepted t 2 s.arg.image → ¬ Accepted t 2 t.peerImage → ∃ u, exec .managementFirmwareRetry s = .next u ∧ u.trust.stage = 3 ∧
          u.trust.retryAt = s.dt + 10000000000)) ∧
      (t.recovery = true → Accepted t 1 s.arg.image → Accepted t 2 t.mgmtImage → ∃ u, exec .romRecoveryLoad s = .next u ∧
        stage5 u t.mgmtImage ∧ u.trust.partHeader = s.arg.image.take 0xA7C) ∧
      (t.recovery = true → ¬ Accepted t 1 s.arg.image → ∃ u, exec .romRecoveryLoad s = .next u ∧ u.trust.stage = 2 ∧ u.trust.recovery = true)) ∧
    (s.dt.toNat < t.retryAt.toNat ∨ t.stage ≠ 3 → exec .managementFirmwareRetry s = .next s) ∧
    (t.recovery = false → exec .romRecoveryLoad s = .next s)

/-- R350, R353, R358: a management core that runs asks Crivis, after boot. -/
abbrev Asking (s : State) : Prop := 5 ≤ s.trust.stage ∧ s.trust.dead = false ∧ s.trust.frozenCores.getLsbD (s.arg.id % 4) = false

/-- R348, R350: committing raises the fused SVN to that of the running image, never down, and revokes key slots but never the last. -/
def commitRules : Prop :=
  ∀ (s : State), mapWf 0 s.trust.fusedSvn = true → mapWf 0 s.trust.revoked = true →
    let t := s.trust
    (¬ Asking s → exec .fuseCommit s = .next s) ∧
    (∀ kind, Asking s → s.arg.commit = .raiseSvn kind → kind = 1 ∨ kind = 2 → ∃ u, exec .fuseCommit s = .next u ∧
      mapGet 0 u.trust.fusedSvn kind = max (mapGet 0 t.fusedSvn kind)
        (min (bytesToNat (((if kind = 1 then t.partHeader else t.fwHeader).drop 8).take 8)) 64) ∧
      (∀ k, k ≠ kind → mapGet 0 u.trust.fusedSvn k = mapGet 0 t.fusedSvn k) ∧ u.trust.revoked = t.revoked) ∧
    (∀ kind n, Asking s → s.arg.commit = .revoke kind n → kind = 1 ∨ kind = 2 → n < 4 →
      let last := ∀ k, k < 4 → k ≠ n → (mapGet (0 : BitVec 4) t.revoked kind).getLsbD k = true
      (¬ last → ∃ u, exec .fuseCommit s = .next u ∧ u.trust.fusedSvn = t.fusedSvn ∧
        ∀ k, k < 4 → (mapGet (0 : BitVec 4) u.trust.revoked kind).getLsbD k = (decide (k = n) || (mapGet (0 : BitVec 4) t.revoked kind).getLsbD k)) ∧
      (last → exec .fuseCommit s = .next s))

/-- R28, R303, R315, R317, R340, R345, R350, R361: a partition that a running core asks for and that passes every check is applied and published;
a channel that it grants leaves the pool; another leaves everything as it was. Where the mesh does not reach every owned cluster none is admitted,
and the device is reported. -/
def partitionRules : Prop :=
  ∀ (s : State) (g : Grant), Canonical s → s.arg.grant = some g →
    let reached := meshReaches s.trust.meshDown (s.ownedWith g) = true
    let pool := (s.pooled ||| g.pooled) &&& ~~~ g.channels
    let minima := g.minima.foldl (fun m p => mapPut 0 m p.1 p.2) []
    let total (n : Nat) : Nat := ((List.range 96).map fun v => max 1 (mapGet 0 (if v = g.vf then minima else (s.vf v).minima) n)).sum
    (Asking s → reached → s.grantOk g = true → ∃ u, exec .partitionRequest s = .next u ∧ SameMemory s u ∧
      (u.vf g.vf).clusters = g.clusters ∧ (u.vf g.vf).banks = g.banks ∧ (u.vf g.vf).channels = g.channels ∧
      (u.vf g.vf).viterbi = g.viterbi ∧ (u.vf g.vf).fabric = g.fabric ∧ (u.vf g.vf).defer = g.defer ∧ (u.vf g.vf).weight = g.weight ∧
      (u.vf g.vf).minima = minima ∧ (u.vf g.vf).tableGen = (s.vf g.vf).tableGen + 1 ∧ u.pooled = pool ∧
      u.pooledBanks = (s.pooledBanks ||| g.pooledBanks) &&& ~~~ g.banks ∧ ∀ v, v ≠ g.vf → u.vf v = s.vf v) ∧
    (Asking s → ¬ reached → exec .partitionRequest s = .next { s with trust := { s.trust with needsService := true } }) ∧
    (¬ Asking s ∨ (reached ∧ s.grantOk g = false) → exec .partitionRequest s = .next s) ∧
    (s.trust.meshDown = 0 → reached) ∧
    (s.grantOk g = true → g.vf < 96 ∧ 1 ≤ g.weight ∧ g.weight ≤ 255 ∧ g.defer ≤ 1000000000 ∧
      (∀ p ∈ s.vfs, p.1 ≠ g.vf → p.2.clusters &&& g.clusters = 0 ∧ p.2.banks &&& g.banks = 0 ∧ p.2.channels &&& g.channels = 0 ∧
        p.2.viterbi &&& g.viterbi = 0 ∧ p.2.fabric &&& g.fabric = 0 ∧ p.2.channels &&& g.pooled = 0) ∧
      (∀ c, c < 64 → g.clusters.getLsbD c = true → (s.cluster c).retired = false) ∧ s.retired &&& (g.channels ||| g.pooled) = 0 ∧
      (∀ n, n < 96 → g.fabric.getLsbD n = true → (s.link n).retired = false) ∧
      (∀ n, n < 8 → 1 ≤ mapGet 0 minima n ∧ total n ≤ 256) ∧
      (pool ≠ 0 → 1 ≤ mapGet 0 minima 8 ∧ total 8 ≤ 128 * ((List.range 384).filter fun c => pool.getLsbD c).length) ∧
      (pool = 0 → mapGet 0 minima 8 = 0))

/-- R349, R350, R353, R354, R358: a management core that runs is frozen at an access outside its window, which records the violation; each class of master is unfrozen under its own condition, and none
after a failure of the security core. -/
def freezeRules : Prop :=
  ∀ (s : State), Canonical s → mapWf 0 s.trust.ring = true →
    let t := s.trust
    let n := s.arg.id % 4
    (Asking s → s.arg.offset < 2 ^ 64 → ∃ u, exec .managementWindowViolation s = .next u ∧ SameMemory s u ∧
      u.trust.frozenCores = t.frozenCores ||| BitVec.ofNat 4 (2 ^ n) ∧ u.trust.seq = t.seq + 1 ∧
      let item := (mapGet (0 : BitVec 256) u.trust.ring (t.seq % 1024)).toNat
      item / 2 ^ 192 = s.dt.toNat ∧ item / 2 ^ 128 % 2 ^ 64 = s.arg.offset ∧ item / 2 ^ 96 % 2 ^ 8 = 2 ∧ item / 2 ^ 80 % 2 ^ 8 = 4 ∧
      item / 2 ^ 64 % 2 ^ 16 = n ∧ item / 2 ^ 32 % 2 ^ 32 = t.seq % 2 ^ 32) ∧
    (¬ Asking s → exec .managementWindowViolation s = .next s) ∧
    (t.dead = true → exec .unfreezeRequest s = .next s) ∧
    (t.dead = false →
      (∀ tile slot, s.arg.master = .strand tile slot → slot < 8 → (s.strand (tile * 8 + slot)).run = .frozen →
        (s.tileHeld tile = false → exec .unfreezeRequest s =
          .next (s.setStrand (tile * 8 + slot) { s.strand (tile * 8 + slot) with run := .parked })) ∧
        (s.tileHeld tile = true → exec .unfreezeRequest s = .next s)) ∧
      (∀ tile, s.arg.master = .copyEngine tile →
        (s.tileHeld tile = false → exec .unfreezeRequest s = .next (s.setTile tile { s.tile tile with copyFrozen := none })) ∧
        (s.tileHeld tile = true → exec .unfreezeRequest s = .next s)) ∧
      (∀ v, s.arg.master = .vf v →
        (Asking s → (s.vf v).frozen = true → (s.vf v).flrDone = true →
          exec .unfreezeRequest s = .next (s.setVf v { s.vf v with frozen := false, flrDone := false })) ∧
        (¬ Asking s ∨ (s.vf v).flrDone = false → exec .unfreezeRequest s = .next s)) ∧
      (∀ p, s.arg.master = .fabricPort p → exec .unfreezeRequest s = .next s) ∧
      (∀ c, s.arg.master = .mgmtCore c →
        (t.stage < 5 → exec .unfreezeRequest s = .next s) ∧
        (5 ≤ t.stage → Accepted t 2 t.mgmtImage → exec .unfreezeRequest s = .next { s with trust := { t with
          fwHeader := t.mgmtImage.take 0xA7C, frozenCores := t.frozenCores &&& ~~~ BitVec.ofNat 4 (2 ^ (c % 4)) } }) ∧
        (¬ Accepted t 2 t.mgmtImage → ¬ Accepted t 2 t.peerImage → exec .unfreezeRequest s = .next s)))

/-- R351, R352, R354, R355: attestation is answered once stage 5 is reached, by the requests of SPDM 1.3 that R352 lists (their codes, and what is
signed, are the model's: log 11); readback answers the addressed word with its error flag, and a record of the security core's ring to a
management core that may ask (the numbering of the words is the model's: log 41). -/
def managementRules : Prop :=
  ∀ (s : State),
    let replies (i : Instr) (r : Spdm) : Prop :=
      (5 ≤ s.trust.stage → s.trust.dead = false →
        exec i s = .next { s with trust := { s.trust with responses := s.trust.responses ++ [r] } }) ∧
      (s.trust.stage < 5 ∨ s.trust.dead = true → exec i s = .next s)
    let digest := sha384 Config.certificateChain
    replies .getVersion (.version [(1, 3)]) ∧ replies .getCapabilities (.capabilities [0x81, 0x82, 0x83, 0x84, 0xE0, 0xE1, 0xE3]) ∧
    (.ecdsaP384Sha384 ∈ s.arg.offered → replies .negotiateAlgorithms (.algorithms (some .ecdsaP384Sha384))) ∧
    (.ecdsaP384Sha384 ∉ s.arg.offered → replies .negotiateAlgorithms (.algorithms none)) ∧
    replies .getDigests (.digests digest) ∧ replies .spdmUnsupportedRequest (.unsupported s.arg.id) ∧
    (s.arg.slot = 0 → replies .getCertificate (.certificate 0 Config.certificateChain)) ∧
    (s.arg.slot = 0 → ∃ msg, replies .challenge (.challengeAuth 0 s.arg.nonce (Config.ensignSignature s.trust.secret msg))) ∧
    (let block (n : Nat) (bytes : List Byte) : Prop :=
       (n = 1 → bytes = natToBytes 48 (sha384 Config.romImage).toNat) ∧ (n = 2 → bytes = s.trust.partHeader) ∧ (n = 3 → bytes = s.trust.fwHeader) ∧
       (n = 5 → bytes = natToBytes 48 (sha384 (s.trust.repair.flatMap failingBytes)).toNat)
     let measured (ids : List Nat) : Prop := ∃ blocks msg, blocks.map Prod.fst = ids ∧ (∀ b ∈ blocks, block b.1 b.2) ∧
       replies .getMeasurements (.measurements s.arg.id blocks (Config.ensignSignature s.trust.secret msg))
     (s.arg.id = 255 → measured [1, 2, 3, 4, 5, 6]) ∧ (1 ≤ s.arg.id → s.arg.id ≤ 6 → measured [s.arg.id])) ∧
    (let reads (target : ReadTarget) (w : Word) (bad : Bool) : Prop := s.arg.target = target → exec .readback s =
       .next { s with trust := { s.trust with readback := s.trust.readback ++ [(w, bad)] } }
     let spoilt (key : Nat) : Bool := s.badWords.any fun b => b.1 == key / 8
     let who (tile n : Nat) : Strand := s.strand (tile * 8 + n)
     let regWord (tile n off : Nat) : Bool := spoilt (regPa (tile * 8 + n) off)
     (∀ tile o, o % 8 = 0 → reads (.scratch tile o) (BitVec.ofNat 64 (readNat (s.tile tile).store o 8)) (spoilt (localPa tile o))) ∧
     (∀ tile n o, o % 8 = 0 → reads (.slot tile n o) (BitVec.ofNat 64 (readNat (slotAt (s.tile tile) n).mem o 8)) (spoilt (slotPa tile n o))) ∧
     (∀ tile b row col, col % 2 = 0 → reads (.bank tile b (row * 128 + col)) (bankAt (s.tile tile) b row (col + 1) ++ bankAt (s.tile tile) b row col)
       (spoilt (bankPa tile b (row * 128 + col)))) ∧
     (∀ tile b i, i % 2 = 0 → reads (.hist tile b i) (mapGet 0 (s.tile tile).hist (b * 64 + i + 1) ++ mapGet 0 (s.tile tile).hist (b * 64 + i))
       (spoilt (histPa tile b i))) ∧
     (∀ tile b, reads (.hbase tile b) ((mapGet 0 (s.tile tile).hbase b).setWidth 64) false) ∧
     (∀ tile n r, reads (.scalar tile n r) (readX (who tile n) r) (regWord tile n (8192 + 8 * r))) ∧
     (∀ tile n r, reads (.mask tile n r) (readK (who tile n) r) (regWord tile n (8704 + 8 * r))) ∧
     (∀ tile n r, reads (.window tile n r) ((readW (who tile n) r).setWidth 64) (regWord tile n (8768 + 8 * r))) ∧
     (∀ tile n r w, reads (.vector tile n r w) ((readV (who tile n) r).extractLsb' (64 * w) 64) (regWord tile n (256 * r + 8 * w))) ∧
     (∀ tile n w, reads (.longAcc tile n w) ((who tile n).la.extractLsb' (64 * w) 64) (regWord tile n (8896 + 8 * w))) ∧
     (∀ tile n c, reads (.control tile n c) (s.control (tile * 8 + n) c) (regWord tile n (8960 + 8 * c))) ∧
     (∀ tile n, reads (.pc tile n) ((who tile n).pc.setWidth 64) (regWord tile n 16376)) ∧
     (∀ a, a % 8 = 0 → reads (.device a) (BitVec.ofNat 64 (readNat s.mem a 8)) (spoilt a)) ∧
     (∀ tile i l w, w < 16 → (s.tile tile).l1[i]? = some l →
       reads (.l1 tile i w) (l.data.extractLsb' (64 * w) 64) (l.bad.extractLsb' (8 * w) 8 != 0)) ∧
     (∀ tile n q i e w, (readPort (who tile n) q).buf[i]? = some e → reads (.portBuffer tile n q i w) (e.data.extractLsb' (64 * w) 64) e.spoilt) ∧
     (∀ tile i e w, (s.tile tile).tlb[i]? = some e → ∃ x, reads (.tileTlb tile i w) x e.bad) ∧
     (∀ c i e w, (s.cluster c).tlb[i]? = some e → ∃ x, reads (.clusterTlb c i w) x e.bad) ∧
     (∀ c i e w, (s.cluster c).handles[i]? = some e → ∃ x, reads (.handle c i w) x e.bad) ∧
     (∀ i w, i < 1024 → w < 4 →
       (Asking s → reads (.violation i w) ((mapGet (0 : BitVec 256) s.trust.ring i).extractLsb' (64 * w) 64) false) ∧
       (¬ Asking s → s.arg.target = .violation i w → exec .readback s = .next s)) ∧
     (∀ q, reads (.link q 0) (BitVec.ofNat 64 ((if (s.link q).down then 1 else 0) + (if (s.link q).frozen then 2 else 0) +
       (if (s.link q).retired then 4 else 0) + (if (s.link q).nak then 8 else 0))) false) ∧
     (∀ v, reads (.vf v 0) (s.vf v).clusters false) ∧ reads (.package 0) (BitVec.ofNat 64 s.cycle) false)

/-- R357, R358: what the scrubber's finds do: corrected errors are counted for the row, within 24 hours; an uncorrectable word is logged, counted
once in 24 hours for its channel or tile, and left as it is, with a mark for its consumer: a word of memory by its key, a byte of an L1 line, an
entry of a cache, an element of a port, a hoist; a failure of the security core freezes every master, with one record each (log 40). -/
def scrubRules : Prop :=
  ∀ (s : State), Canonical s → mapWf [] s.trust.corrected = true → mapWf [] s.trust.uncorrected = true → mapWf 0 s.badWords = true →
    let v := s.arg.visit
    let t := s.trust
    let now := ((mapGet [] t.corrected (rowKey v.sram (scrubPlace v) v.row)).filter fun i => s.dt.toNat < i.toNat + 24 * 3600 * 1000000000) ++ [s.dt]
    let seen := ((mapGet [] t.uncorrected (placeKey v.sram (scrubPlace v))).filter fun p =>
      s.dt.toNat < p.1.toNat + 24 * 3600 * 1000000000 ∧ ¬ (p.2.word = v.word ∧ p.2.unit = v.unit)) ++ [(s.dt, v)]
    (v.uncorrectable = false → ∃ u, exec .patrolScrub s = .next u ∧ SameMemory s u ∧ u.badWords = s.badWords ∧ u.trust.uncorrected = t.uncorrected ∧
      let k := rowKey v.sram (scrubPlace v) v.row
      mapGet [] u.trust.corrected k = now ∧ ∀ j, j ≠ k → mapGet [] u.trust.corrected j = mapGet [] t.corrected j) ∧
    (v.uncorrectable = true → ∃ u, exec .patrolScrub s = .next u ∧ u.trust.scrubLog = t.scrubLog ++ [v] ∧ u.trust.corrected = t.corrected ∧
      (let k := placeKey v.sram (scrubPlace v)
       mapGet [] u.trust.uncorrected k = seen ∧ ∀ j, j ≠ k → mapGet [] u.trust.uncorrected j = mapGet [] t.uncorrected j) ∧
      (v.unit ≠ .security → SameMemory s u) ∧ (v.unit ≠ .word → u.badWords = s.badWords) ∧
      (v.unit = .word → (∀ k, mapGet 0 u.badWords k = if k = v.word then (if v.sram then 3 else if 0x200000000000 ≤ v.word * 8 then 5 else 4)
          else mapGet 0 s.badWords k) ∧ u.tiles = s.tiles ∧ u.clusters = s.clusters ∧ u.strands = s.strands) ∧
      (∀ i n b, v.unit = .l1 i n b → ∀ m l, (s.tile i).l1[m]? = some l →
        ∃ l', (u.tile i).l1[m]? = some l' ∧ { l' with bad := l.bad } = l ∧
          ∀ j, l'.bad.getLsbD j = (l.bad.getLsbD j || (decide (m = n) && decide (j / 8 = b / 8 % 16) && l.valid.getLsbD j))) ∧
      (∀ i n, v.unit = .tileTlb i n → ∀ m, (u.tile i).tlb[m]? = (s.tile i).tlb[m]?.map fun e => if m = n then { e with bad := true } else e) ∧
      (∀ c n, v.unit = .clusterTlb c n →
        ∀ m, (u.cluster c).tlb[m]? = (s.cluster c).tlb[m]?.map fun e => if m = n then { e with bad := true } else e) ∧
      (∀ c n, v.unit = .handle c n →
        ∀ m, (u.cluster c).handles[m]? = (s.cluster c).handles[m]?.map fun e => if m = n then { e with bad := true } else e) ∧
      (∀ i n q e, n < 8 → v.unit = .portElem i n q e → mapWf {} (s.strand (i * 8 + n)).ports = true → ∀ p, readPort (s.strand (i * 8 + n)) q = p → p.isOpen = true →
        ∀ m, (readPort (u.strand (i * 8 + n)) q).buf[m]? = p.buf[m]?.map fun x => if m = e then { x with spoilt := true } else x) ∧
      (∀ i n e q p shift tag data done bad, n < 8 → v.unit = .drain i n e →
        (s.strand (i * 8 + n)).drains[e]? = some (.elem q p shift tag data done bad) →
        (u.strand (i * 8 + n)).drains[e]? = some (.elem q p shift tag data done true) ∧
        ∀ m, m ≠ e → (u.strand (i * 8 + n)).drains[m]? = (s.strand (i * 8 + n)).drains[m]?) ∧
      (∀ c, v.unit = .hoist c → u.cluster c = { s.cluster c with bad := true }) ∧
      (v.unit = .security → u.trust.dead = true ∧ u.trust.frozenCores = 15 ∧ (∀ n, n < 96 → (u.vf n).frozen = true ∧ (u.link n).frozen = true) ∧
        (∀ i, i < 1024 → (u.tile i).copyFrozen ≠ none) ∧
        (∀ p ∈ s.strands, p.2.run = .running ∨ p.2.run = .waiting → (u.strand p.1).run = .frozen) ∧
        ((∀ n, n < 96 → (s.vf n).frozen = false ∧ (s.link n).frozen = false) → (∀ i, i < 1024 → (s.tile i).copyFrozen = none) → t.frozenCores = 0 →
          u.trust.seq = t.seq + (s.strands.filter fun p => p.2.run == .running || p.2.run == .waiting).length + 1220)))

/-- R360, R361: the case for a new entry of the repair table: a row of a channel with 16 corrected errors in 24 hours while spares remain; a channel
with 4 uncorrectable words in 24 hours, or with no spares left and a further such row; a cluster with such a tile; a link of the fabric or of the
mesh with 16 retries in 24 hours; a fatal fault. -/
def RetirementCase (s : State) : Failing → Prop :=
  let t := s.trust
  let recently (i : Word) : Bool := decide (s.dt.toNat < i.toNat + 24 * 3600 * 1000000000)
  let day (m : Map (List Word)) (k : Nat) : Nat := ((mapGet [] m k).filter recently).length
  let words (k : Nat) : Nat := ((mapGet [] t.uncorrected k).filter fun p => recently p.1).length
  let done (c : Nat) : List Nat := t.repair.filterMap fun f => match f with
    | .row false d r => if d = c then some r else none
    | _ => none
  let worn (c r : Nat) : Prop := 16 ≤ day t.corrected (rowKey false c r) ∧ r ∉ done c
  fun f => match f with
  | .row sram c r => sram = false ∧ worn c r ∧ (done c).length < Config.spareRows c
  | .channel c => 4 ≤ words (placeKey false c) ∨ (Config.spareRows c ≤ (done c).length ∧ ∃ r, worn c r)
  | .cluster c fatal => fatal = true ∨ ∃ i ∈ clusterTiles c, 4 ≤ words (placeKey true i)
  | .link n => 16 ≤ ((s.link n).retries.filter recently).length
  | .meshLink n => 16 ≤ day t.meshRetries n

/-- R350, R359 to R361: Crivis checks the case, and of a request the core that makes it. A fatal fault comes from the hardware: a core's claim of one
counts for nothing, and its request stands on the tiles' uncorrectable words (log 42). The table gets the entry, and a channel goes out of service at once, a cluster when no launch holds
it, after its strands have been frozen if its fault is fatal, and a row or a link changes nothing before the next boot. -/
def repairRules : Prop :=
  ∀ (s : State), Canonical s → mapWf [] s.trust.corrected = true →
    let f : Failing := match s.arg.failing with
      | .cluster n fatal => .cluster n (fatal && !s.arg.asked)
      | g => g
    (∀ n, f = .channel n → n < 384) →
    (s.trust.stage < 3 ∨ s.trust.dead = true ∨ (s.arg.asked = true ∧ ¬ Asking s) ∨ ¬ RetirementCase s f → exec .errorThreshold s = .next s) ∧
    (3 ≤ s.trust.stage → s.trust.dead = false → (s.arg.asked = true → Asking s) → RetirementCase s f → ∃ u, exec .errorThreshold s = .next u ∧ RepairedBy s.trust u.trust [f] ∧
      (∀ n, f = .channel n → u.retired.getLsbD n = true ∧ u.pooled.getLsbD n = false) ∧
      (∀ n, f = .cluster n false → n < 64 →
        ((∀ i ∈ clusterTiles n, s.tileHeld i = false) → (u.cluster n).retired = true ∧ ∀ v, s.clusterOwner n = some v →
          (u.vf v).clusters.getLsbD n = false ∧ (u.vf v).tableGen = (s.vf v).tableGen + 1 ∧ u.mem = (s.event v 10 (BitVec.ofNat 64 n) 0).mem) ∧
        ((∃ i ∈ clusterTiles n, s.tileHeld i = true) → (u.cluster n).retiring = true ∧ u.strands = s.strands)) ∧
      (∀ n, f = .cluster n true → ∀ i ∈ clusterTiles n, ∀ j, j < 8 → (s.strand (i * 8 + j)).run = .running → (s.strand (i * 8 + j)).task = none →
        (u.strand (i * 8 + j)).run = .frozen) ∧
      (∀ b c r, f = .row b c r → u = { s with trust := u.trust }) ∧ (∀ n, f = .link n ∨ f = .meshLink n → u = { s with trust := u.trust }))

/-- R317, R318: the pool's minima when a pooled channel is retired: with none left every minimum is 0; where the capacity still holds the sum they
stay, at 1 at least; else each becomes max(1, ⌊m × k / 256⌋) with the largest k for which the sum fits. Every VF gets a new table, and one whose
minimum changed the event with its number. -/
def poolShrinkRules : Prop :=
  ∀ (s : State), Canonical s →
    let capacity := 128 * ((List.range 384).filter fun c => s.pooled.getLsbD c).length
    let old (v : Nat) : Nat := mapGet 0 (s.vf v).minima 8
    let total (m : Nat → Nat) : Nat := ((List.range 96).map m).sum
    let scaled (k v : Nat) : Nat := max 1 (max 1 (old v) * k / 256)
    let u := s.shrinkPool
    let new (v : Nat) : Nat := mapGet 0 (u.vf v).minima 8
    u.tiles = s.tiles ∧ u.strands = s.strands ∧ (∀ v, v < 96 → (u.vf v).tableGen = (s.vf v).tableGen + 1) ∧
    ((∀ v, v < 96 → mapWf 0 (s.vf v).minima = true) →
      (s.pooled = 0 → ∀ v, v < 96 → new v = 0) ∧
      (s.pooled ≠ 0 → total (fun v => max 1 (old v)) ≤ capacity → ∀ v, v < 96 → new v = max 1 (old v)) ∧
      (s.pooled ≠ 0 → capacity < total (fun v => max 1 (old v)) → ∃ k, k ≤ 256 ∧ total (scaled k) ≤ capacity ∧
        (∀ j, k < j → j ≤ 256 → capacity < total (scaled j)) ∧ ∀ v, v < 96 → new v = scaled k v) ∧
      u.mem = (((List.range 96).filter fun v => new v != max 1 (old v)).foldl (fun r v =>
        r.event v 4 (BitVec.ofNat 64 ((s.vf v).tableGen + 1)) 0) s).mem ∧ ∀ m a, m ≠ .device → readCell u m a = readCell s m a)

/-! Frames, reset and invariants. -/

/-- Instructions whose whole effect is on the registers of their strand and that raise no flag (R99). -/
def integerInstrs : List (Fields → Instr) :=
  [.add, .sub, .mul, .mulh, .div, .rem, .min, .max, .and, .or, .xor, .andn, .shl, .shr, .rot, .clz, .ctz, .popc, .bext, .bins, .sext, .li,
   .lea, .mov, .sel, .setEq, .setNe, .setLt, .setGe, .setLo, .setHs, .setLe, .setGt, .setLs, .setHi, .kmov, .kget, .kopAnd, .kopOr,
   .kopXor, .kopAndn, .kopNot, .kpop, .kfill, .br, .bEq, .bNe, .bLt, .bGe, .bLo, .bHs, .bLe, .bGt, .bLs, .bHi, .jr, .call, .callr, .ret,
   .loop, .dtRd, .dtUntil, .nop, .wSet, .wStep, .wVal, .eret, .ctlRd]

/-- Those that may raise one. -/
def floatInstrs : List (Fields → Instr) :=
  [.fAdd, .fSub, .fMul, .fFma, .fDiv, .fSqrt, .fCvt, .fCvti, .fCmpEq, .fCmpNe, .fCmpLt, .fCmpGe, .fCmpLe, .fCmpGt, .fCmpUn, .fCmpOrd,
   .fMin, .fMax, .fAbs, .fNeg]

/-- R82, R99: what such an instruction leaves as it was, whatever comes of it with no handler active: everything but its strand and the
number that a long-class start takes; of the strand every register file entry but its destination, every bit of STATUS but the flags
that a floating instruction raises, the exception registers but for the alignment fault of an indirect jump and the ACT that `eret`
clears, and every register that only `ctl.wr`, spans, starts and tasks write. -/
def registerFrameRules : Prop :=
  ∀ (mk : Fields → Instr) (f : Fields) (s t : State), mk ∈ integerInstrs ++ floatInstrs → CanonicalTiles s →
    causeActive s.me.cause = false → exec (mk f) s = .next t →
    t = { s with strands := t.strands, fresh := t.fresh } ∧ (∀ j, j ≠ s.cur → t.strand j = s.strand j) ∧
    (∀ n, n ≠ f.d.toNat → readX t.me n = readX s.me n ∧ readK t.me n = readK s.me n ∧ readW t.me n = readW s.me n) ∧
    (mk ∈ integerInstrs → t.me.status = s.me.status ∧ t.me.srcnt = s.me.srcnt) ∧
    (∀ b, (5 ≤ b → t.me.status.getLsbD b = s.me.status.getLsbD b) ∧ (s.me.status.getLsbD b = true → t.me.status.getLsbD b = true)) ∧
    (mk ∉ [.jr, .ret, .callr] → t.me.epc = s.me.epc ∧ t.me.badaddr = s.me.badaddr ∧ (mk ∉ [.eret] → t.me.cause = s.me.cause)) ∧
    t.me.v = s.me.v ∧ t.me.la = s.me.la ∧ t.me.laCarry = s.me.laCarry ∧ t.me.seed = s.me.seed ∧ t.me.tvb = s.me.tvb ∧
    t.me.ovh = s.me.ovh ∧ t.me.tbr = s.me.tbr ∧ t.me.spans = s.me.spans ∧ t.me.depth = s.me.depth ∧ t.me.hp = s.me.hp ∧
    t.me.esc = s.me.esc ∧ t.me.tlc = s.me.tlc ∧ t.me.tlm = s.me.tlm ∧ t.me.tle = s.me.tle ∧ t.me.ports = s.me.ports ∧
    t.me.posted = s.me.posted ∧ t.me.task = s.me.task ∧ t.me.run = s.me.run

/-- R16, R25, R26: what reset leaves. -/
def resetRules : Prop :=
  State.reset.dt36 = 0 ∧ State.reset.mhz = 600 ∧ State.reset.net = [] ∧ State.reset.launches = [] ∧ Canonical State.reset ∧
  (∀ i, (State.reset.strand i).run = .free) ∧ (∀ i, (State.reset.tile i).launch = none) ∧ (∀ v, (State.reset.vf v).clusters = 0) ∧
  State.reset.trust.pfReady = false ∧ ∀ m a, readCell State.reset m a = 0

/-- The byte memories keep their canonical form, and the arithmetic clock runs at a step of R26, now and after every request. -/
abbrev Inv (s : State) : Prop :=
  s.mem.wf = true ∧ s.hostMem.wf = true ∧ s.remote.wf = true ∧ clockStep s.mhz = true ∧ ∀ t ∈ s.throttles, clockStep t.mhz = true

/-- R17, R18: the strand whose slot is at hand owns slot `cycle mod 8`; a strand that is halted, parked or frozen, or that waits for a
task with no open span, lets the slot pass, and nothing but the model's own place in the cycle changes. -/
def slotOfCycleRules : Prop :=
  ∀ (s : State) (c : Nat), startDue s = none → s.agenda = [] → nextInternal s = none → nextStrand s = some c →
    c % 8 = s.cycle % 8 ∧
    ((s.strand c).run = .free ∨ (s.strand c).run = .parked ∨ (s.strand c).run = .frozen ∨
      ((s.strand c).run = .waiting ∧ (s.strand c).broken = false ∧ (s.strand c).depth = 0) →
      step s = .next { s with cur := c, cursor := c / 8 + 1 })

/-- R205: the codes whose handler is at TVB + 64 × code: all that are raised but the overlay trap, the two span traps, and the two that park.
The `trap` instruction's own EPC is stated with it. -/
abbrev EntersAtTvb (code : Nat) : Prop := (0 < code ∧ code < 4) ∨ (4 < code ∧ code < 11) ∨ (12 < code ∧ code < 18) ∨ code = 20 ∨ code = 21

/-- R206, R207: what taking a trap leaves, and what it keeps. With no handler active EPC, CAUSE (INFO, ACT and CODE), BADADDR and the
PC are as R206 says; every register, flag and memory stays. -/
def trapEntryRules : Prop :=
  ∀ (s : State) (code info : Nat) (bad : Word), causeActive s.me.cause = false → s.me.run = .running → EntersAtTvb code → info < 2 ^ 32 →
    let t := s.takeTrap code info bad
    OnlyMe s t ∧ t.me.epc = s.me.pc.zeroExtend 64 ∧ t.me.pc = s.me.tvb.truncate 32 + BitVec.ofNat 32 (64 * code) ∧
    (t.me.cause.extractLsb' 32 32).toNat = info ∧ (t.me.cause.extractLsb' 0 5).toNat = code ∧ causeActive t.me.cause = true ∧
    t.me.badaddr = bad ∧ t.me.run = .running ∧
    t.me.x = s.me.x ∧ t.me.v = s.me.v ∧ t.me.k = s.me.k ∧ t.me.w = s.me.w ∧ t.me.la = s.me.la ∧ t.me.laCarry = s.me.laCarry ∧
    t.me.status = s.me.status ∧ t.me.srcnt = s.me.srcnt ∧ t.me.seed = s.me.seed ∧ t.me.tvb = s.me.tvb ∧ t.me.ovh = s.me.ovh ∧
    t.me.tbr = s.me.tbr ∧ t.me.spans = s.me.spans ∧ t.me.depth = s.me.depth ∧ t.me.longs = s.me.longs ∧ t.me.issuedAt = s.me.issuedAt

/-- R205, R206, R220, R278: a trap while a handler is active, other than a span trap, parks the strand with CODE 19 and the code of the
trap in INFO; EPC and BADADDR stay as the first trap left them, no handler is entered, and the launch is marked as ending in a fault; a strand with a
current task reports its end (R284). -/
def nestedTrapParksRules : Prop :=
  ∀ (s : State) (code info : Nat) (bad : Word), causeActive s.me.cause = true → EntersAtTvb code ∨ code = 4 →
    let t := s.takeTrap code info bad
    t.me.run = .parked ∧ t.me.cause = causeOf code 19 ∧ t.me.epc = s.me.epc ∧ t.me.badaddr = s.me.badaddr ∧ t.me.pc = s.me.pc ∧
    t.me.x = s.me.x ∧ t.me.v = s.me.v ∧ t.me.k = s.me.k ∧ t.me.status = s.me.status ∧ (t.launchOf s.myTile).faulted = true ∧ t.me.task = none ∧
    (s.me.task = none → t.net = s.net) ∧
    ∀ id, s.me.task = some id → ∃ m, t.net = s.net ++ [m] ∧ m.src = s.cur ∧ m.body = .taskEnd (s.launchKeyOf s.myTile) (id % 2 ^ 26)

/-- R205, R206, R224: the stall detector parks a strand, with CODE 18, its PC in EPC, and INFO and BADADDR 0; no handler is entered. That ACT is 1 in
the CAUSE of such a strand is the model's choice (log 25); a current task ends (R284). -/
def stallParksRules : Prop :=
  ∀ (s : State) (i : Nat), Canonical s →
    let l := s.launch s.arg.launch
    s.active s.arg.launch = true → l.started = true → l.stalled = false → 2 ^ 20 ≤ l.stall → i ∈ l.strands →
    ((s.strand i).run = .running ∨ (s.strand i).run = .waiting) →
    ∃ u, exec .fieldStall s = .next u ∧ (u.strand i).run = .parked ∧ (u.strand i).cause = causeOf 0 18 ∧ (u.strand i).badaddr = 0 ∧
      (u.strand i).epc = (s.strand i).pc.setWidth 64 ∧ (u.strand i).task = none ∧ (u.strand i).pc = (s.strand i).pc ∧ (u.strand i).x = (s.strand i).x

/-- R93, R116, R124: a comparison writes one bit for each of the 64 lanes; NaN lanes raise NV. -/
def vectorCompareRules : Prop :=
  ∀ (f : Fields) (s : State),
    let x (l : Nat) := operand s 32 f.a.toNat l
    let y (l : Nat) := operand s 32 f.b.toNat l
    let a (l : Nat) := readFloat (strandFmt s.me f.fmt.toNat) (x l)
    let b (l : Nat) := readFloat (strandFmt s.me f.fmt.toNat) (y l)
    let srcs := [f.a.toNat, f.b.toNat]
    let cmp (i : Instr) (code : Nat) : Prop := Ready i s → PortsReady s srcs none →
      ∃ (v : Word) (fl : Flags), exec i s = .next (s.retire (raise (writeK (popPorts s.me srcs) f.d.toNat v) fl) f) ∧
        (∀ l, l < 64 → v.getLsbD l = if isFloatFmt f.fmt.toNat then (floatCond code (a l) (b l)).1 else intCond code 32 (x l) (y l)) ∧
        FlagsOver 64 (fun _ => isFloatFmt f.fmt.toNat) (fun l => (floatCond code (a l) (b l)).2) fl
    cmp (.vCmpEq f) 0 ∧ cmp (.vCmpNe f) 1 ∧ cmp (.vCmpLt f) 2 ∧ cmp (.vCmpGe f) 3 ∧ cmp (.vCmpLo f) 4 ∧ cmp (.vCmpHs f) 5 ∧
    cmp (.vCmpLe f) 6 ∧ cmp (.vCmpGt f) 7 ∧ cmp (.vCmpLs f) 8 ∧ cmp (.vCmpHi f) 9 ∧ cmp (.vCmpUn f) 10 ∧ cmp (.vCmpOrd f) 11

/-- R102, R124: logic, shifts and counts per lane or element, and `v.sel`, which takes the lane of B where the mask is off. -/
def vectorLogicRules : Prop :=
  ∀ (f : Fields) (s : State),
    let c := f.fmt.toNat
    let b := fmtWidth c
    let two := [f.a.toNat, f.b.toNat]
    let x (j : Nat) := operand s b f.a.toNat j
    let n (j : Nat) := operand s b f.b.toNat j % b
    let lanes (i : Instr) (g : Nat → Nat → Nat) : Prop := Ready i s → PortsReady s two (some f.d.toNat) →
      Elementwise i f s two 0 32 (fun l => (g (operand s 32 f.a.toNat l) (operand s 32 f.b.toNat l), 0))
    let elems (i : Instr) (srcs : List Nat) (g : Nat → Int) : Prop := Ready i s → PortsReady s srcs (some f.d.toNat) →
      Elementwise i f s srcs 0 b (fun j => (deliverInt c f.s (g j), 0))
    lanes (.vAnd f) (fun p q => p &&& q) ∧ lanes (.vOr f) (fun p q => p ||| q) ∧ lanes (.vXor f) (fun p q => p ^^^ q) ∧
    lanes (.vAndn f) (fun p q => p &&& (2 ^ 32 - 1 - q)) ∧
    (0 < b → elems (.vShl f) two (fun j => readFmtInt c (x j) * 2 ^ n j)) ∧
    (0 < b → elems (.vShr f) two (fun j => readFmtInt c (x j) / 2 ^ n j)) ∧
    (f.s = false → f.fmt.toNat ∈ [2, 3, 4, 5] → Ready (.vRot f) s → PortsReady s two (some f.d.toNat) →
      Elementwise (.vRot f) f s two 0 b (fun j => (x j * 2 ^ n j % 2 ^ b + x j / 2 ^ (b - n j), 0))) ∧
    (f.s = false → f.fmt.toNat ∈ [2, 3, 4, 5] → Ready (.vClz f) s → PortsReady s [f.a.toNat] (some f.d.toNat) →
      Elementwise (.vClz f) f s [f.a.toNat] 0 b (fun j => (if x j = 0 then b else b - 1 - Nat.log2 (x j), 0))) ∧
    (Ready (.vSel f) s → PortsReady s two (some f.d.toNat) →
      ∃ v, exec (.vSel f) s = .next (s.retire (writeVP (popPorts s.me two) f.d.toNat v) f) ∧
        ∀ l, l < 64 → elemAt 32 v l =
          if (laneMask s.me f).getLsbD l then operand s 32 f.a.toNat l else operand s 32 f.b.toNat l)

/-- R135, R136: claiming a slot that no other strand holds and that is not released with work pending gives it to the issuer; releasing
an owned slot frees it; testing it reads its state; a slot not owned is an unclaimed-slot fault with the slot in BADADDR. -/
def operandSlotsRules : Prop :=
  ∀ (f : Fields) (s : State),
    let t := s.tile s.myTile
    let n := f.a.toNat
    let o := slotAt t n
    let st := s.slotState s.myTile s.mySlot n
    (Ready (.oClaim f) s → st < 2 → exec (.oClaim f) s = .next ((s.setTile s.myTile
      (setSlot t n { o with owner := some s.mySlot, release := false })).retire (writeX s.me f.d.toNat 0) f)) ∧
    (Ready (.oClaim f) s → 2 ≤ st → WritesX (.oClaim f) f s 1) ∧
    (n < 8 → o.owner = some s.mySlot → exec (.oRel f) s =
      .next ((s.setTile s.myTile (setSlot t n { o with owner := none, release := true })).retire s.me f)) ∧
    (n < 8 → o.owner ≠ some s.mySlot → exec (.oRel f) s = .next (s.takeTrap 15 0 (BitVec.ofNat 64 n))) ∧
    (Ready (.oTst f) s → (∀ w, o.owner = some w → w < 8) → ∃ v : Word, WritesX (.oTst f) f s v ∧ v.toNat % 4 = st ∧
      v.toNat / 256 = min (s.slotPend s.myTile n) 255 ∧ (st = 2 → ∀ w, o.owner = some w → v.toNat / 16 % 16 = w)) ∧
    (o.owner = some s.mySlot → st = 1) ∧ (∀ w, o.owner = some w → w ≠ s.mySlot → st = 2)

/-- R47, R48, R134: what an addition to the long accumulator makes of its value, and normalization, for any words and carry counts. -/
def longAccumulatorValueRules : Prop :=
  ∀ (la : LongWord) (c : BitVec 80) (v : Int), -2 ^ 383 ≤ v → v < 2 ^ 383 →
    laValue (laAddInt v la c).1 (laAddInt v la c).2 = (laValue la c + v).bmod (2 ^ 384) ∧
    laValue (BitVec.ofInt 384 (laValue la c)) 0 = laValue la c ∧
    (laOverflows v la c = true ↔ laValue la c + v < -2 ^ 383 ∨ 2 ^ 383 ≤ laValue la c + v)

/-- R134: the instructions of the long accumulator. -/
def longAccumulatorRules : Prop :=
  ∀ (f : Fields) (s : State),
    let r := s.me
    let c := f.fmt.toNat
    let x : FVal := if isFloatFmt c then readFloat (strandFmt r c) (readX r f.a.toNat).toNat
      else intVal (readFmtInt c (readX r f.a.toNat).toNat)
    let mode := resolveMode r.status f.rm
    let starts (i : Instr) (r : Strand) (d : Dest) (v : VReg) (fl : Flags) : Prop := Ready i s → longRoom s.me false = true →
      exec i s = .next (s.startLong r f { id := 0, dest := d, data := v, flags := fl })
    let j := f.imm10.toNat
    let y := rounded s f c (.fin (decide (laValue r.la r.laCarry < 0)) (laValue r.la r.laCarry).natAbs (-200) false)
    (∀ neg m e k, x = .fin neg m e k → starts (.laAdd f) r .la
      (laPack (laAddInt (laUnits x) r.la r.laCarry).1 (laAddInt (laUnits x) r.la r.laCarry).2 (laOverflows (laUnits x) r.la r.laCarry)) 0) ∧
    ((∀ neg m e k, x ≠ .fin neg m e k) → starts (.laAdd f) r .la (laPack r.la r.laCarry false) flagNV) ∧
    starts (.laNorm f) r .la (laPack (BitVec.ofInt 384 (laValue r.la r.laCarry)) 0 false) 0 ∧
    starts (.laRd f) (countSr r mode) (destX f) (BitVec.ofNat 2048 y.1) y.2 ∧
    (Ready (.laClr f) s → exec (.laClr f) s = .next (s.retire { r with la := 0, laCarry := 0 } f)) ∧
    (j < 6 → Ready (.laGetw f) s → WritesX (.laGetw f) f s (r.la.extractLsb' (64 * j) 64)) ∧
    (6 ≤ j → j ≤ 10 → Ready (.laGetw f) s → WritesX (.laGetw f) f s ((r.laCarry.extractLsb' (16 * (j - 6)) 16).signExtend 64)) ∧
    (j < 6 → Ready (.laSetw f) s → ∃ la, exec (.laSetw f) s = .next (s.retire { r with la := la } f) ∧
      ∀ k, k < 6 → la.extractLsb' (64 * k) 64 = if k = j then readX r f.a.toNat else r.la.extractLsb' (64 * k) 64) ∧
    (6 ≤ j → j ≤ 10 → Ready (.laSetw f) s → ∃ cs, exec (.laSetw f) s = .next (s.retire { r with laCarry := cs } f) ∧
      ∀ k, k < 5 → cs.extractLsb' (16 * k) 16 =
        if k = j - 6 then (readX r f.a.toNat).setWidth 16 else r.laCarry.extractLsb' (16 * k) 16)

end Sys2Proof.Claims

open Sys2Proof Sys2Proof.Machine Sys2Proof.Claims

/-- R80, R87, R92 to R94: the bytes of every well-formed instruction decode to it, whatever its operands. -/
def Obligations.DecodeOfEncode : Prop :=
  ∀ i : Instr, i.WellFormed = true → decode (encode i) = .ok i

/-- R81, R97: no bit of a word is ignored: a word that decodes is the word of its instruction. -/
def Obligations.EncodeOfDecode : Prop :=
  ∀ (bytes : List Byte) (i : Instr), 16 ≤ bytes.length → decode bytes = .ok i →
    i.WellFormed = true ∧ ∃ f, i.fields = some f ∧ encode i = bytes.take f.bytes

/-- Words of the spec's own worked encodings decode to the instructions they stand for. -/
def Obligations.WorkedEncodings : Prop :=
  decodeTableWord 64 0x0000568028440D00 =
      some (.vAdd { d := 3, a := 4, b := 33, rm := 2, k := 2, kn := true, zm := true, fmt := 10 }) ∧
  decodeTableWord 64 0x0000568068440D00 = none ∧
  decodeTableWord 64 0x0000868028440D00 = none ∧
  decodeTableWord 96 0x000000030A30300000071681 =
      some (.ld { d := 5, a := 7, fmt := 6, imm10 := 40, h := true, hi := true, ext := .imm32 3 }) ∧
  decodeTableWord 64 0x01800000000017CC = some (.ctlRd { d := 5, imm10 := 6 }) ∧
  decodeTableWord 64 0x04000009030A0F44 = some (.spawn { d := 3, a := 10, b := 12, c := 9, imm10 := 16 }) ∧
  decodeTableWord 128 0x0047F5AA000000020000000F038D0EB2 =
      some (.cp { d := 3, a := 13, b := 14, c := 15, ext := .imm64 0x0047F5AA00000002 })

/-- R24, R79, R98, R205, R206: the checks of a fetch and the traps they end in. -/
def Obligations.FetchTraps : Prop :=
  lengthAndStraddleRules ∧ fetchChecksRules ∧ fetchTrapEntryRules

/-- A step runs the decoded instruction: where it is the strands' turn (nothing else is due, and the agenda says so, or it is empty and no
other agent has a step to take: the order of the agents is the model's choice, log 1), a running strand at its slot, whose tile and VF run,
which started in an earlier cycle, has no deadline behind it and holds no timed-out `hy.wait`, executes exactly the instruction whose word
stands below XB at its PC. -/
def Obligations.StepRunsDecoded : Prop :=
  ∀ (s : State) (c : Nat) (i : Instr) (rest : List (Instr × Args)),
    startDue s = none →
    ((s.agenda = [] ∧ rest = [] ∧ nextInternal s = none) ∨ ∃ e, s.agenda = e :: rest ∧ externalStep e.1 = false) → nextStrand s = some c →
    let u : State := { s with agenda := rest, cur := c, cursor := c / 8 + 1 }
    u.me.run = .running → (u.tile u.myTile).preempt.runs = true → (u.vf (u.launchOf u.myTile).vf).reset = none →
    u.me.startedAt ≠ u.cycle + 1 → u.me.broken = false → expiredLevel u.me u.dt = none → hyTimedOut u i = false →
    u.me.pc.toNat < (u.tile u.myTile).xb →
    badIn u.badWords (localPa u.myTile u.me.pc.toNat)
      ((lengthOf ((fetchBytes (u.tile u.myTile) u.me.pc.toNat).headD 0)).getD 4) = none →
    decodeAt u.me.pc.toNat (fetchBytes (u.tile u.myTile) u.me.pc.toNat) = .ok i →
    step s = exec i u

/-- R17, R18, R25, R27, R224, R287, R291, R292: whose slot a cycle is, the slots that pass, the passing of a cycle in device time, and what no
cycle passes by. -/
def Obligations.SlotsAndCycles : Prop := slotOfCycleRules ∧ cyclePassesRules ∧ slotInstantsRules ∧ dueStepsRules

/-- R21: an instruction that names a pending register is not issued: its slot passes and nothing changes. -/
def Obligations.PendingHolds : Prop :=
  ∀ (i : Instr) (s : State), regsPending i s.me = true → exec i s = .next s

/-- R206, R207, R220: what taking a trap leaves and what it keeps, and the trap that parks; of a stalled strand the ACT in CAUSE is the model's
choice (log 25). -/
def Obligations.TrapEntry : Prop := trapEntryRules ∧ nestedTrapParksRules ∧ stallParksRules

/-- R208: `trap` completes as an instruction and raises code 20 with the address after it in EPC; `eret` goes to EPC, clears CAUSE.ACT
and leaves every other register. -/
def Obligations.TrapAndReturn : Prop :=
  ∀ (f : Fields) (s : State),
    (causeActive s.me.cause = false →
      exec (.trap f) s = .next ((s.setMe { s.me with issuedAt := s.cycle + 1 }).setMe { s.me with
        issuedAt := s.cycle + 1, epc := (s.me.pc + BitVec.ofNat 32 f.bytes).zeroExtend 64
        cause := causeOf (f.imm10.signExtend 32).toNat 20, badaddr := 0, pc := s.me.tvb.truncate 32 + 1280
        fence := none, hyIssue := none, walk := none })) ∧
    exec (.eret f) s = .next (s.setMe { s.me with
      pc := s.me.epc.truncate 32, cause := s.me.cause &&& 0xFFFFFFFFFFFFFEFF#64, issuedAt := s.cycle + 1 })

/-- R85, R99, R102: with S = 0 the low bits of the exact result, extended. -/
def wrappingRules : Prop :=
  ∀ (f : Fields) (s : State), ScalarIntFmt f → f.s = false →
    let a := readX s.me f.a.toNat
    let b := readX s.me f.b.toNat + immOf f
    let n := b.toNat % 64 % opWidth f.fmt
    let signed : Prop := f.fmt = 4 ∨ f.fmt = 6
    (Ready (.add f) s → WritesX (.add f) f s (fitted f.fmt (a + b))) ∧
    (Ready (.sub f) s → WritesX (.sub f) f s (fitted f.fmt (a - b))) ∧
    (Ready (.mul f) s → WritesX (.mul f) f s (fitted f.fmt (a * b))) ∧
    (Ready (.mulh f) s → WritesX (.mulh f) f s
      (fitted f.fmt (BitVec.ofInt 64 (valueIn f.fmt a * valueIn f.fmt b / 2 ^ opWidth f.fmt)))) ∧
    (Ready (.min f) s → WritesX (.min f) f s (if valueIn f.fmt a < valueIn f.fmt b then fitted f.fmt a else fitted f.fmt b)) ∧
    (Ready (.max f) s → WritesX (.max f) f s (if valueIn f.fmt a < valueIn f.fmt b then fitted f.fmt b else fitted f.fmt a)) ∧
    (Ready (.and f) s → WritesX (.and f) f s (fitted f.fmt (a &&& b))) ∧
    (Ready (.or f) s → WritesX (.or f) f s (fitted f.fmt (a ||| b))) ∧
    (Ready (.xor f) s → WritesX (.xor f) f s (fitted f.fmt (a ^^^ b))) ∧
    (Ready (.andn f) s → WritesX (.andn f) f s (fitted f.fmt (a &&& ~~~b))) ∧
    (Ready (.shl f) s → WritesX (.shl f) f s (fitted f.fmt (a <<< n))) ∧
    (signed → Ready (.shr f) s → WritesX (.shr f) f s ((fitted f.fmt a).sshiftRight n)) ∧
    (¬ signed → Ready (.shr f) s → WritesX (.shr f) f s (fitted f.fmt a >>> n)) ∧
    (f.fmt = 4 ∨ f.fmt = 5 → Ready (.rot f) s → WritesX (.rot f) f s (fitted f.fmt (((a.setWidth 32).rotateLeft n).setWidth 64))) ∧
    (f.fmt = 6 ∨ f.fmt = 7 → Ready (.rot f) s → WritesX (.rot f) f s (a.rotateLeft n))

/-- R102: with S = 1 the exact result moves to the nearest value of the format; the other operations have no such form. -/
def saturatingRules : Prop :=
  ∀ (f : Fields) (s : State), ScalarIntFmt f → f.s = true →
    let a := valueIn f.fmt (readX s.me f.a.toNat)
    let bv := readX s.me f.b.toNat + immOf f
    let b := valueIn f.fmt bv
    (Ready (.add f) s → WritesX (.add f) f s (saturated f.fmt (a + b))) ∧
    (Ready (.sub f) s → WritesX (.sub f) f s (saturated f.fmt (a - b))) ∧
    (Ready (.mul f) s → WritesX (.mul f) f s (saturated f.fmt (a * b))) ∧
    (Ready (.shl f) s → WritesX (.shl f) f s (saturated f.fmt (a * 2 ^ (bv.toNat % 64 % opWidth f.fmt)))) ∧
    ∀ i : Instr, i ∈ [.mulh f, .min f, .max f, .and f, .or f, .xor f, .andn f, .shr f, .rot f] → i.WellFormed = false

/-- R85, R99, R102: integer arithmetic and logic, without saturation and with it. -/
def Obligations.IntegerArithmetic : Prop := wrappingRules ∧ saturatingRules

/-- R103: division toward zero; a zero divisor gives −1, or all ones in a natural format, and leaves the dividend as the remainder; the
signed minimum over −1 saturates with S = 1 and wraps to the minimum without. No form traps and no form raises a flag. -/
def Obligations.Division : Prop :=
  ∀ (f : Fields) (s : State), ScalarIntFmt f → longRoom s.me false = true →
    let a := valueIn f.fmt (readX s.me f.a.toNat)
    let b := valueIn f.fmt (readX s.me f.b.toNat + immOf f)
    (Ready (.div f) s → b = 0 → StartsX (.div f) f s s.me (fitted f.fmt (BitVec.allOnes 64)) 0) ∧
    (Ready (.div f) s → b ≠ 0 → StartsX (.div f) f s s.me
      (if f.s then saturated f.fmt (a.tdiv b) else fitted f.fmt (BitVec.ofInt 64 (a.tdiv b))) 0) ∧
    (Ready (.rem f) s → b = 0 → StartsX (.rem f) f s s.me (fitted f.fmt (readX s.me f.a.toNat)) 0) ∧
    (Ready (.rem f) s → b ≠ 0 → StartsX (.rem f) f s s.me (fitted f.fmt (BitVec.ofInt 64 (a - b * a.tdiv b))) 0)

/-- R104, R105: bit counts, sign extension, field extraction and insertion. -/
def Obligations.BitOperations : Prop :=
  bitCountsRules ∧ bitFieldsRules

/-- R106 to R109, R112: moves, conditions, mask registers and device time. -/
def Obligations.MovesAndMasks : Prop :=
  movesRules ∧ conditionsRules ∧ masksRules

/-- R82, R109: x0 reads 0 and k0 all ones; a write to either is discarded; every other register reads what was written to it last, and
the others keep their contents. -/
def Obligations.RegisterFiles : Prop :=
  ∀ (r : Strand), CanonicalRegs r →
    (∀ (n m : Nat) (v : Word), readX (writeX r n v) m = if m = 0 then 0 else if m = n then v else readX r m) ∧
    (∀ (n m : Nat) (v : Word), readK (writeK r n v) m = if m = 0 then BitVec.allOnes 64 else if m = n then v else readK r m) ∧
    (∀ (n m : Nat) (v : VReg), readV (writeV r n v) m = if m = n then v else readV r m) ∧
    (∀ (n m : Nat) (v : BitVec 16), readW (writeW r n v) m = if m = n then v else readW r m) ∧
    (∀ (n : Nat) (v : Word), CanonicalRegs (writeX r n v) ∧ CanonicalRegs (writeK r n v)) ∧
    (∀ (n : Nat) (v : VReg), CanonicalRegs (writeV r n v)) ∧ (∀ (n : Nat) (v : BitVec 16), CanonicalRegs (writeW r n v))

/-- R86, R110, R111, R113: branches, calls, loops, indirect jumps and `dt.until`. -/
def Obligations.ControlFlow : Prop :=
  branchesRules ∧ indirectJumpsRules ∧ dtUntilRules

/-- R36, R114, R123: sums, products, quotients and roots of finite values are the exact ones: a sum and a product as such; a quotient, a
square root and a reciprocal root to at least 78 bits (the 53 of the widest mantissa, the 24 of sr and one more), marked where something
was left over; and what zero operands give. The signs of a quotient that is infinite or zero are the model's choice (log 57: R36 and R114 name none);
those of a reciprocal are R123's. -/
def Obligations.ExactArithmetic : Prop :=
  ∀ (mode : Nat) (a b : FVal), Exact a → Exact b →
    (Exact (addVal mode a b) ∧ realOf (addVal mode a b) = realOf a + realOf b) ∧
    (Exact (mulVal a b) ∧ realOf (mulVal a b) = realOf a * realOf b) ∧
    (Exact a.negate ∧ realOf a.negate = -realOf a) ∧
    (realOf a ≠ 0 → realOf b ≠ 0 → ∃ (neg : Bool) (m : Nat) (e : Int) (left : Bool), (divVal a b).1 = .fin neg m e left ∧
      (neg = true ↔ realOf a / realOf b < 0) ∧ (m : ℚ) * 2 ^ e ≤ |realOf a / realOf b| ∧
      |realOf a / realOf b| < ((m : ℚ) + 1) * 2 ^ e ∧ (left = false ↔ (m : ℚ) * 2 ^ e = |realOf a / realOf b|) ∧ 2 ^ 78 ≤ m ∧
      (divVal a b).2 = 0) ∧
    (realOf a ≠ 0 → realOf b = 0 → divVal a b = (.inf (a.isNeg != b.isNeg), flagDZ)) ∧
    (realOf a = 0 → realOf b = 0 → divVal a b = (.nan, 0)) ∧
    (realOf a = 0 → realOf b ≠ 0 → Exact (divVal a b).1 ∧ realOf (divVal a b).1 = 0 ∧ (divVal a b).1.isNeg = (a.isNeg != b.isNeg)) ∧
    rcpVal a = divVal (.fin false 1 0 false) a ∧
    (realOf a < 0 → sqrtVal a = .nan ∧ rsqVal a = (.nan, 0)) ∧
    (realOf a = 0 → realOf (sqrtVal a) = 0 ∧ Exact (sqrtVal a) ∧ (sqrtVal a).isNeg = a.isNeg ∧ rsqVal a = (.inf a.isNeg, flagDZ)) ∧
    (0 < realOf a → ∃ (m : Nat) (e : Int) (left : Bool), sqrtVal a = .fin false m e left ∧ ((m : ℚ) * 2 ^ e) ^ 2 ≤ realOf a ∧
      realOf a < (((m : ℚ) + 1) * 2 ^ e) ^ 2 ∧ (left = false ↔ ((m : ℚ) * 2 ^ e) ^ 2 = realOf a) ∧ 2 ^ 78 ≤ m) ∧
    (0 < realOf a → ∃ (m : Nat) (e : Int) (left : Bool), rsqVal a = (.fin false m e left, 0) ∧ ((m : ℚ) * 2 ^ e) ^ 2 * realOf a ≤ 1 ∧
      1 < (((m : ℚ) + 1) * 2 ^ e) ^ 2 * realOf a ∧ (left = false ↔ ((m : ℚ) * 2 ^ e) ^ 2 * realOf a = 1) ∧ 2 ^ 78 ≤ m)

/-- R44: the draw: the mix of SEED, SRCNT and the element number, modulo 2^64, and its bits 63 to 40. -/
def drawRules : Prop :=
  ∀ (seed srcnt : Word) (l : Nat),
    let z0 := seed.toNat ^^^ (srcnt.toNat * 0x9E3779B97F4A7C15 % 2 ^ 64) ^^^ (l * 0xC2B2AE3D27D4EB4F % 2 ^ 64)
    let z1 := (z0 ^^^ (z0 / 2 ^ 29)) * 0xBF58476D1CE4E5B9 % 2 ^ 64
    let z2 := (z1 ^^^ (z1 / 2 ^ 32)) * 0x94D049BB133111EB % 2 ^ 64
    draw seed srcnt l = (z2 ^^^ (z2 / 2 ^ 29)) / 2 ^ 40

/-- R33, R34, R39 to R41, R44: the value delivered for an exact finite result, where it is finite: a nearest one, a tie going to the even
mantissa or away from zero; the next one toward zero, down or up; or one of the two neighbours. NX is raised exactly where it differs,
UF where the exact result is also below the least normal magnitude. From the midpoint above the greatest finite value, or from that value
on, according to the mode, the overflow result is delivered with OF and NX. Under sr the greater neighbour is taken, beyond the greatest finite
value as its overflow, exactly where the first 24 bits of the discarded fraction exceed the draw. -/
def Obligations.Rounding : Prop :=
  drawRules ∧ ∀ F ∈ floatFormats, ∀ (mode r : Nat) (S : Bool) (x : FVal), Exact x →
    let d := deliver F mode S r x
    let y := realOf (readFloat F d.1)
    let u := realOf x
    let all (p : ℚ → Prop) : Prop := ∀ bits, bits < 2 ^ F.width → Exact (readFloat F bits) → p (realOf (readFloat F bits))
    let below : Prop := y ≤ u ∧ all fun z => z ≤ u → z ≤ y
    let above : Prop := u ≤ y ∧ all fun z => u ≤ z → y ≤ z
    let most := realOf (readFloat F F.maxFin)
    let ulp := most - realOf (readFloat F (F.maxFin - 1))
    let zeroward : Prop := mode = 1 ∨ (mode = 2 ∧ 0 < u) ∨ (mode = 3 ∧ u < 0)
    let outward : Prop := (mode = 2 ∧ u < 0) ∨ (mode = 3 ∧ 0 < u)
    let beyond : Prop := most + ulp ≤ |u| ∨ (outward ∧ most < |u|) ∨ (mode = 4 ∧ most + ulp / 2 ≤ |u|) ∨
      (mode = 0 ∧ (most + ulp / 2 < |u| ∨ (most + ulp / 2 = |u| ∧ F.maxFin % 2 = 1)))
    let sign := if u < 0 then 2 ^ (F.width - 1) else 0
    (mode < 6 → beyond → d.2 = flagOF ||| flagNX ∧
      (zeroward ∨ S = true → d.1 = F.maxFin + sign) ∧
      (¬ zeroward → S = false → d.1 = if F.infs = true then F.maxFin + 1 + sign else F.nanBits)) ∧
    (mode < 5 → ¬ beyond → Exact (readFloat F d.1) ∧ d.2 &&& flagOF = 0) ∧
    (mode < 6 → |u| ≤ most → Exact (readFloat F d.1) ∧ (d.2 &&& flagUF ≠ 0 ↔ y ≠ u ∧ |u| < 2 ^ (1 - (F.bias : Int)))) ∧
    d.1 < 2 ^ F.width ∧
    (mode = 5 → r < 2 ^ 24 → (∀ a b, 0 ≤ a → a ≤ |u| → |u| < b → (∃ k, k < 2 ^ F.width ∧ Exact (readFloat F k) ∧ realOf (readFloat F k) = a) →
        (∃ k, k < 2 ^ F.width ∧ Exact (readFloat F k) ∧ realOf (readFloat F k) = b) → (all fun z => z ≤ a ∨ b ≤ z) →
        0 ≤ y * u ∧ |y| = if (r : Int) < ⌊(|u| - a) / (b - a) * 2 ^ 24⌋ then b else a) ∧
      (most < |u| → |u| < most + ulp → if (r : Int) < ⌊(|u| - most) / ulp * 2 ^ 24⌋ then d.2 = flagOF ||| flagNX ∧
        d.1 = (if S = true then F.maxFin + sign else if F.infs = true then F.maxFin + 1 + sign else F.nanBits) else d = (F.maxFin + sign, flagNX))) ∧
    (Exact (readFloat F d.1) →
      (mode = 0 ∨ mode = 4 → all fun z => |y - u| ≤ |z - u|) ∧
      (mode = 0 → all fun z => |y - u| = |z - u| → z ≠ y → d.1 % 2 = 0) ∧
      (mode = 4 → all fun z => |y - u| = |z - u| → |z| ≤ |y|) ∧
      (mode = 1 → |y| ≤ |u| ∧ 0 ≤ y * u ∧ all fun z => |z| ≤ |u| → |z| ≤ |y|) ∧
      (S = false ∨ |u| ≤ most → (mode = 2 → below) ∧ (mode = 3 → above) ∧ (mode = 5 → r < 2 ^ 24 → below ∨ above)) ∧
      (mode < 6 → (d.2 &&& flagNX = 0 ↔ y = u)))

/-- R33 to R36, R41: a value of a format is delivered in it unchanged and with no flag, in every mode, whatever S and the draw; a NaN
becomes the format's default NaN with NV. -/
def Obligations.RepresentableUnchanged : Prop :=
  ∀ F ∈ floatFormats, ∀ (mode r bits : Nat) (S : Bool), bits < 2 ^ F.width →
    ((readFloat F bits).isNan = false → deliver F mode S r (readFloat F bits) = (bits, 0)) ∧
    ((readFloat F bits).isNan = true → deliver F mode S r (readFloat F bits) = (F.nanBits, flagNV))

/-- R40, R42, R44: a value rounded to an integer: to nearest, the even one or away from zero where two are; toward zero; down; up; or by a draw. -/
def intRounded (mode r : Nat) (u : ℚ) : Int :=
  let a := ⌊|u|⌋
  let rest := |u| - a
  let up : Bool := match mode with
    | 0 => decide (1 / 2 < rest) || (decide (rest = 1 / 2) && a % 2 == 1)
    | 1 => false
    | 2 => decide (u < 0) && decide (rest ≠ 0)
    | 3 => decide (0 < u) && decide (rest ≠ 0)
    | 4 => decide (1 / 2 ≤ rest)
    | _ => decide ((r : Int) < ⌊rest * 2 ^ 24⌋)
  (if u < 0 then -1 else 1) * (a + if up = true then 1 else 0)

/-- R31, R42: a floating value converted to an integer of a width: a NaN gives 0, what is out of range the nearest limit, with NV; else the rounded
value, with NX where it differs. -/
def floatToIntRules : Prop :=
  ∀ (signed : Bool) (w mode r : Nat) (x : FVal), 0 < w → mode < 6 → r < 2 ^ 24 →
    let lo : Int := if signed = true then -2 ^ (w - 1) else 0
    let hi : Int := if signed = true then 2 ^ (w - 1) - 1 else 2 ^ w - 1
    let g := floatToInt signed w mode r x
    let k := intRounded mode r (realOf x)
    (x = .nan → g = (0, flagNV)) ∧ (x = .inf false → g = (hi, flagNV)) ∧ (x = .inf true → g = (lo, flagNV)) ∧
    (Exact x → (k < lo → g = (lo, flagNV)) ∧ (hi < k → g = (hi, flagNV)) ∧
      (lo ≤ k → k ≤ hi → g = (k, if (k : ℚ) = realOf x then 0 else flagNX)))

/-- R42, R100, R114 to R117: the scalar floating instructions, and the integers that a conversion gives. -/
def Obligations.ScalarFloat : Prop :=
  scalarFloatRules ∧ scalarFloatCompareRules ∧ floatToIntRules

/-- R39, R45, R46, R83, R119, R121, R122: elementwise arithmetic. Floating elements are rounded once with L = j; integer ones wrap or
saturate. -/
def Obligations.VectorArithmetic : Prop :=
  ∀ (f : Fields) (s : State),
    let c := f.fmt.toNat
    let b := fmtWidth c
    let mode := resolveMode s.me.status f.rm
    let x := floatAt s f f.a.toNat
    let y := floatAt s f f.b.toNat
    let z := floatAt s f f.c.toNat
    let m := intAt s f f.a.toNat
    let n := intAt s f f.b.toNat
    let two := [f.a.toNat, f.b.toNat]
    let three := [f.a.toNat, f.b.toNat, f.c.toNat]
    let sum (i : Instr) (g : Nat → FVal) (h : Nat → Int) : Prop := Ready i s → PortsReady s two (some f.d.toNat) →
      Elementwise i f s two (if isFloatFmt c then mode else 0) b
        (fun j => if isFloatFmt c then roundedAt s f j (g j) else (deliverInt c f.s (h j), 0))
    let fused (i : Instr) (g : Nat → FVal) : Prop := Ready i s → PortsReady s three (some f.d.toNat) →
      Elementwise i f s three mode b (fun j => roundedAt s f j (g j))
    let exact (i : Instr) (srcs : List Nat) (g : Nat → FVal) (h : Nat → Int) : Prop :=
      Ready i s → PortsReady s srcs (some f.d.toNat) → Elementwise i f s srcs 0 b
        (fun j => if isFloatFmt c then deliver (strandFmt s.me c) 0 false 0 (g j) else (deliverInt c f.s (h j), 0))
    sum (.vAdd f) (fun j => addVal mode (x j) (y j)) (fun j => m j + n j) ∧
    sum (.vSub f) (fun j => addVal mode (x j) (y j).negate) (fun j => m j - n j) ∧
    sum (.vMul f) (fun j => mulVal (x j) (y j)) (fun j => m j * n j) ∧
    fused (.vFma f) (fun j => addVal mode (mulVal (x j) (y j)) (z j)) ∧
    fused (.vFms f) (fun j => addVal mode (mulVal (x j) (y j)) (z j).negate) ∧
    fused (.vFnma f) (fun j => addVal mode (mulVal (x j) (y j)).negate (z j)) ∧
    exact (.vMin f) two (fun j => if (x j).isNan || (y j).isNan then .nan else if lessVal (x j) (y j) then x j else y j)
      (fun j => min (m j) (n j)) ∧
    exact (.vMax f) two (fun j => if (x j).isNan || (y j).isNan then .nan else if lessVal (x j) (y j) then y j else x j)
      (fun j => max (m j) (n j)) ∧
    exact (.vAbs f) [f.a.toNat] (fun j => absVal (x j)) (fun j => |m j|) ∧
    exact (.vNeg f) [f.a.toNat] (fun j => (x j).negate) (fun j => -m j)

/-- R123: the functions at their special inputs, by its table: the two zeros, the two infinities, a NaN, a value below zero, and log2 of 1. -/
def functionInputRules : Prop :=
  ∀ x : FVal,
    let gives (y : FVal) (q : ℚ) : Prop := Exact y ∧ realOf y = q
    let zero (y : FVal) (neg : Bool) : Prop := gives y 0 ∧ y.isNeg = neg
    (Exact x → realOf x = 0 → rcpVal x = (.inf x.isNeg, flagDZ) ∧ rsqVal x = (.inf x.isNeg, flagDZ) ∧ gives (exp2Val x) 1 ∧
      log2Val x = (.inf true, flagDZ) ∧ zero (sinVal x) x.isNeg ∧ gives (cosVal x) 1 ∧ zero (tanhVal x) x.isNeg ∧ gives (sigVal x) (1 / 2)) ∧
    (x = .inf false → zero (rcpVal x).1 false ∧ (rcpVal x).2 = 0 ∧ zero (rsqVal x).1 false ∧ (rsqVal x).2 = 0 ∧ exp2Val x = .inf false ∧
      log2Val x = (.inf false, 0) ∧ sinVal x = .nan ∧ cosVal x = .nan ∧ gives (tanhVal x) 1 ∧ gives (sigVal x) 1) ∧
    (x = .inf true → zero (rcpVal x).1 true ∧ (rcpVal x).2 = 0 ∧ rsqVal x = (.nan, 0) ∧ zero (exp2Val x) false ∧ log2Val x = (.nan, 0) ∧
      sinVal x = .nan ∧ cosVal x = .nan ∧ gives (tanhVal x) (-1) ∧ zero (sigVal x) false) ∧
    (x = .nan → rcpVal x = (.nan, 0) ∧ rsqVal x = (.nan, 0) ∧ exp2Val x = .nan ∧ log2Val x = (.nan, 0) ∧ sinVal x = .nan ∧ cosVal x = .nan ∧
      tanhVal x = .nan ∧ sigVal x = .nan) ∧
    (Exact x → realOf x < 0 → rsqVal x = (.nan, 0) ∧ log2Val x = (.nan, 0)) ∧
    (Exact x → realOf x = 1 → zero (log2Val x).1 false ∧ (log2Val x).2 = 0)

/-- R21, R121, R123: division, square root and the transcendental functions are long class: each element is the function's value,
rounded once. -/
def Obligations.VectorFunctions : Prop :=
  functionInputRules ∧ ∀ (f : Fields) (s : State),
    let x := floatAt s f f.a.toNat
    let y := floatAt s f f.b.toNat
    let long (i : Instr) (srcs : List Nat) (g : Nat → FVal × Flags) : Prop :=
      Ready i s → longRoom s.me false = true → PortsReady s srcs none → ElementwiseLong i f s srcs (fmtWidth f.fmt.toNat)
        (fun j => ((roundedAt s f j (g j).1).1, (roundedAt s f j (g j).1).2 ||| (g j).2))
    long (.vDiv f) [f.a.toNat, f.b.toNat] (fun j => divVal (x j) (y j)) ∧
    long (.vSqrt f) [f.a.toNat] (fun j => (sqrtVal (x j), 0)) ∧
    long (.vRcp f) [f.a.toNat] (fun j => rcpVal (x j)) ∧ long (.vRsq f) [f.a.toNat] (fun j => rsqVal (x j)) ∧
    long (.vExp2 f) [f.a.toNat] (fun j => (exp2Val (x j), 0)) ∧ long (.vLog2 f) [f.a.toNat] (fun j => log2Val (x j)) ∧
    long (.vSin f) [f.a.toNat] (fun j => (sinVal (x j), 0)) ∧ long (.vCos f) [f.a.toNat] (fun j => (cosVal (x j), 0)) ∧
    long (.vTanh f) [f.a.toNat] (fun j => (tanhVal (x j), 0)) ∧ long (.vSig f) [f.a.toNat] (fun j => (sigVal (x j), 0))

/-- R122 to R124: vector comparisons, minima and maxima, lane logic, shifts, rotates, counts and selection. -/
def Obligations.VectorCompareAndLogic : Prop := vectorCompareRules ∧ vectorLogicRules

/-- R125, R126: conversions and dot products. -/
def Obligations.VectorConversions : Prop :=
  vectorConversionsRules ∧ vectorDotRules

/-- R35, R127 to R129: reductions and scans; that a NaN which nothing combines becomes the default NaN with NV is R35 (log 17). -/
def Obligations.VectorReductions : Prop :=
  vectorReductionsRules ∧ vectorScansRules

/-- R130: the instructions that move lanes and elements. -/
def Obligations.VectorMoves : Prop :=
  ∀ (f : Fields) (s : State),
    let c := f.fmt.toNat
    let b := fmtWidth c
    let n := 2048 / b
    let a := readX s.me f.a.toNat
    let idx := (readX s.me f.b.toNat + immOf f).toNat % n
    let active (l : Nat) := (laneMask s.me f).getLsbD l
    let before (l : Nat) := ((List.range l).filter active).length
    let el (i : Instr) (srcs : List Nat) (w : Nat) (g : Nat → Nat) : Prop := Ready i s → PortsReady s srcs (some f.d.toNat) →
      Elementwise i f s srcs 0 w (fun j => (g j, 0))
    let one := [f.a.toNat]
    (c ∈ [2, 3, 4, 5, 10, 11, 12] →
      el (.vPerm f) [f.a.toNat, f.b.toNat] b (fun j => operand s b f.a.toNat (operand s b f.b.toNat j % n)) ∧
      el (.vBcast f) one b (fun _ => operand s b f.a.toNat idx) ∧ el (.vSplat f) [] b (fun _ => a.toNat) ∧
      el (.vIota f) [] b (fun j => (a + BitVec.ofNat 64 j * immOf f).toNat) ∧
      (Ready (.vIns f) s → PortsReady s [] (some f.d.toNat) →
        ∃ v, exec (.vIns f) s = .next (s.retire (writeVP s.me f.d.toNat v) f) ∧
          ∀ j, j < n → elemAt b v j = if j = idx then a.toNat % 2 ^ b else elemAt b (readDst s.me f.d.toNat) j) ∧
      (Ready (.vExt f) s → PortsReady s one none → exec (.vExt f) s = .next (s.retire (writeX (popPorts s.me one) f.d.toNat
        (if isFloatFmt c then BitVec.ofNat 64 (operand s b f.a.toNat idx)
          else BitVec.ofInt 64 (readFmtInt c (operand s b f.a.toNat idx)))) f))) ∧
    el (.vMov f) one 32 (fun l => operand s 32 f.a.toNat l) ∧ el (.vExpd f) one 32 (fun l => operand s 32 f.a.toNat (before l)) ∧
    (Ready (.vCpr f) s → PortsReady s one (some f.d.toNat) →
      ∃ v, exec (.vCpr f) s = .next (s.retire (writeVP (popPorts s.me one) f.d.toNat v) f) ∧
        (∀ l, l < 64 → active l = true → elemAt 32 v (before l) = operand s 32 f.a.toNat l) ∧
        ∀ m, before 64 ≤ m → m < 64 → elemAt 32 v m = 0)

/-- R51: the bin of a value: 0 for a zero; 63 for what is not finite; 62 for a subnormal; else by its exponent, or the logarithm of an integer, from
the bank's base on. -/
def histBinRules : Prop :=
  ∀ (c : Nat) (fmode : Bool) (base : BitVec 16) (bits : Nat),
    let bin := histBin c fmode base bits
    let at_ (e : Int) : Prop := (bin : Int) = max 1 (min 61 (e - base.toInt + 1))
    let x := readFloat (ffmt c fmode) bits
    let least : ℚ := 2 ^ (1 - ((ffmt c fmode).bias : Int))
    let v := readFmtInt c bits
    (c ∈ [10, 11, 12, 13, 14, 16] → bits < 2 ^ (ffmt c fmode).width →
      (¬ Exact x → bin = 63) ∧ (Exact x → realOf x = 0 → bin = 0) ∧ (Exact x → 0 < |realOf x| → |realOf x| < least → bin = 62) ∧
      (∀ e : Int, Exact x → least ≤ |realOf x| → (2 : ℚ) ^ e ≤ |realOf x| → |realOf x| < 2 ^ (e + 1) → at_ e)) ∧
    (isFloatFmt c = false → (v = 0 → bin = 0) ∧ ∀ e : Nat, 2 ^ e ≤ v.natAbs → v.natAbs < 2 ^ (e + 1) → at_ e)

/-- R51, R131, R358: recording counts every element of the source once, one bin each, and a full counter stays; reading takes a bank's
counters and zeroes them. That a counter that is read and uncorrectable freezes the strand is the model's choice: R358's table lists no histogram counter
(log 40). -/
def Obligations.Histograms : Prop :=
  histBinRules ∧ ∀ (f : Fields) (s : State), CanonicalTiles s →
    let t := s.tile s.myTile
    let b := fmtWidth f.fmt.toNat
    let bin (j : Nat) := histBin f.fmt.toNat (statusFmode s.me.status) (mapGet 0 t.hbase f.d.toNat) (operand s b f.a.toNat j)
    let bad (bank n : Nat) : Prop := badIn s.badWords (histPa s.myTile bank n) 4 ≠ none
    let freezes (i : Instr) : Prop := ∃ kind, exec i s = .next (s.freeze s.cur kind 0)
    (Ready (.vHist f) s → PortsReady s [f.a.toNat] none → ∀ j, j < 2048 / b → bad f.d.toNat (bin j) → freezes (.vHist f)) ∧
    (Ready (.vHistGet f) s → PortsReady s [] (some f.d.toNat) → ∀ n, n < 64 → bad f.a.toNat n → freezes (.vHistGet f)) ∧
    (Ready (.vHist f) s → PortsReady s [f.a.toNat] none → (∀ j, j < 2048 / b → ¬ bad f.d.toNat (bin j)) → ∃ u,
      exec (.vHist f) s = .next ((s.setTile s.myTile u).retire (popPorts s.me [f.a.toNat]) f) ∧ u = { t with hist := u.hist } ∧
      ∀ bank n, n < 64 → (mapGet 0 u.hist (bank * 64 + n)).toNat =
        if bank = f.d.toNat then
          min (2 ^ 32 - 1) ((mapGet 0 t.hist (bank * 64 + n)).toNat + ((List.range (2048 / b)).filter fun j => bin j == n).length)
        else (mapGet 0 t.hist (bank * 64 + n)).toNat) ∧
    (Ready (.vHistGet f) s → PortsReady s [] (some f.d.toNat) → (∀ n, n < 64 → ¬ bad f.a.toNat n) → ∃ u v,
      exec (.vHistGet f) s = .next ((s.setTile s.myTile u).retire (writeVP s.me f.d.toNat v) f) ∧ u = { t with hist := u.hist } ∧
      (∀ l, l < 64 → elemAt 32 v l = (mapGet 0 t.hist (f.a.toNat * 64 + l)).toNat ∧ mapGet 0 u.hist (f.a.toNat * 64 + l) = 0) ∧
      ∀ k, k / 64 ≠ f.a.toNat → mapGet 0 u.hist k = mapGet 0 t.hist k)

/-- R44, R132, R133: sampling: a bit per lane by u × q ≤ p, or one index by the draw; both count SRCNT once. -/
def Obligations.Sampling : Prop :=
  ∀ (f : Fields) (s : State),
    let p (l : Nat) := readFloat (ffmt 10 false) (operand s 32 f.a.toNat l)
    let q (l : Nat) := readFloat (ffmt 10 false) (operand s 32 f.b.toNat l)
    let two := [f.a.toNat, f.b.toNat]
    let r := popPorts s.me two
    let mass (x : FVal) : Prop := Exact x ∧ 0 ≤ realOf x
    let at_ (l : Nat) : ℚ := (draw s.me.seed s.me.srcnt l : ℚ) / 2 ^ 24
    let above (x : FVal) : Prop := x = .inf false ∨ (Exact x ∧ 0 < realOf x)
    let target (x : FVal) : Prop := x = .nan ∨ mass x
    let scale (x : FVal) : ℚ := if x.isNan then 1 else realOf x
    (Ready (.vAccept f) s → PortsReady s two none → ∃ (v : Word) (fl : Flags),
      exec (.vAccept f) s = .next (s.retire { raise (writeK r f.d.toNat v) fl with srcnt := s.me.srcnt + 1 } f) ∧
      (∀ l, l < 64 → (v.getLsbD l = true ↔
        above (p l) ∧ target (q l) ∧ (p l = .inf false ∨ at_ l * scale (q l) ≤ realOf (p l)))) ∧
      (fl = 0 ∨ fl = flagNV) ∧
      (fl = flagNV ↔ ∃ l, l < 64 ∧ ((¬ above (p l) ∧ ¬ (Exact (p l) ∧ realOf (p l) = 0)) ∨ (above (p l) ∧ ¬ target (q l))))) ∧
    (Ready (.vDraw f) s → PortsReady s two none → ∃ (v : Word) (fl : Flags),
      exec (.vDraw f) s = .next (s.retire { raise (writeX r f.d.toNat v) fl with srcnt := s.me.srcnt + 1 } f) ∧
      ((∃ l, l < 64 ∧ (¬ mass (p l) ∨ ¬ mass (q l))) → v = BitVec.allOnes 64 ∧ fl = flagNV) ∧
      ((∀ l, l < 64 → mass (p l) ∧ mass (q l)) → fl = 0 ∧
        let hit (i : Nat) : Prop := realOf (q i) ≠ 0 ∧ realOf (p i) ≤ at_ 0 * (realOf (p 63) + realOf (q 63))
        (∀ i, i < 64 → hit i → (∀ k, i < k → k < 64 → ¬ hit k) → v = BitVec.ofNat 64 i) ∧
        ((∀ i, i < 64 → ¬ hit i) → v = BitVec.allOnes 64)))

/-- R47, R48, R134: the long accumulator and its instructions. -/
def Obligations.LongAccumulator : Prop := longAccumulatorValueRules ∧ longAccumulatorRules

/-- R135 to R138, R143 to R145: operand slots, and array operations that issue or fault. -/
def Obligations.OperandSlotsAndArrayIssue : Prop := operandSlotsRules ∧ arrayIssueRules ∧ arrayFaultsRules

/-- R138, R139, R145: the operation at the head of a tile's queue completes once its array cycles have passed, with its TLM record and,
while its strand has not halted since, its flags in STATUS. `m.zero` leaves zeros, `m.wr` the half-row; no other element changes. -/
def Obligations.ArrayComplete : Prop :=
  matrixProductRules ∧ compressRules ∧
  ∀ (s : State) (o : ArrayOp) (rest : List ArrayOp), CanonicalTiles s → s.badWords = [] →
    let t := s.tile s.arg.tile
    let who := s.arg.tile * 8 + o.slot
    t.array = o :: rest → t.arrayDue ≤ s.cycle →
    ∃ u, exec .arrayOperationComplete s = .next u ∧ (u.tile s.arg.tile).array = rest ∧ u.mem = s.mem ∧
      u.strand who = (let r := { s.strand who with tlm := (s.strand who).tlm.finish o.num (runArray t o).2 }
        if o.live then raise r (runArray t o).2 else r) ∧
      (∀ b, b < 2 → o.kind = .zero b → ∀ row col, row < 128 → col < 128 →
        bankAt (u.tile s.arg.tile) b row col = 0 ∧ bankAt (u.tile s.arg.tile) (1 - b) row col = bankAt t (1 - b) row col) ∧
      (∀ b idx data, b < 2 → idx < 256 → o.kind = .write b idx data → ∀ b' row col, b' < 2 → row < 128 → col < 128 →
        bankAt (u.tile s.arg.tile) b' row col =
          if b' = b ∧ row = idx / 2 ∧ col / 64 = idx % 2 then BitVec.ofNat 32 (elemAt 32 data (col % 64)) else bankAt t b' row col)

/-- R141, R143: `m.mma` on i8 and n8 operands without saturation adds the 128 exact products of a row of A and a column of B to each
element, modulo 2^32, and leaves the other bank. -/
def Obligations.IntegerMatrixProduct : Prop :=
  ∀ (s : State) (o : ArrayOp) (rest : List ArrayOp) (fa fb oa ob cb : Nat) (clr : Bool) (ts tv : Nat),
    CanonicalTiles s → s.badWords = [] →
    let t := s.tile s.arg.tile
    t.array = o :: rest → t.arrayDue ≤ s.cycle → o.kind = .multiply 0 fa fb oa ob cb clr ts tv → fa < 2 → fb < 2 → cb < 2 →
    o.sat = false →
    ∃ u, exec .arrayOperationComplete s = .next u ∧ ∀ row col, row < 128 → col < 128 →
      bankAt (u.tile s.arg.tile) cb row col = (if clr then 0 else bankAt t cb row col) + BitVec.ofInt 32
        ((List.range 128).map fun k => readFmtInt fa (slotByte t oa (row * 128 + k)).toNat *
          readFmtInt fb (slotByte t ob (k * 128 + col)).toNat).sum ∧
      bankAt (u.tile s.arg.tile) (1 - cb) row col = bankAt t (1 - cb) row col

/-- R53 to R55: the window of a step is sixteen bits of the stream, which wraps at its end; its values are sums of the bytes of a product; a weight
is a value of a window, times a power of two by its group's scale. -/
def trellisValueRules : Prop :=
  (∀ stream ts tv j, ts ∈ [1, 2, 3] → tv ∈ [1, 2] → stream < 2 ^ (256 / tv * ts) → j < 256 / tv → windowAt stream ts tv j < 2 ^ 16 ∧
    ∀ i, i < 16 → (windowAt stream ts tv j).testBit i = stream.testBit ((j * ts + i) % (256 / tv * ts))) ∧
  (∀ w, w < 2 ^ 16 →
    (let m := (w * 0x19E37 + 0x7F4A3C6D) % 2 ^ 32
     let byte (i : Nat) : Int := (m / 2 ^ (8 * i) % 256 : Nat)
     windowValue w 0 = byte 0 + byte 1 - byte 2 - byte 3) ∧
    windowValue w 1 = windowValue (w * 2 ^ 8 % 2 ^ 16 + w / 2 ^ 8) 0 ∧ |windowValue w 0| ≤ 510 ∧ |windowValue w 1| ≤ 510) ∧
  (∀ stream ts tv i, weightValue stream ts tv i = windowValue (windowAt stream ts tv (i / tv)) (i % tv)) ∧
  ∀ val e, Exact (scaledWeight val e) ∧ realOf (scaledWeight val e) = if e = 0 then 0 else (val : ℚ) * 2 ^ ((e : Int) - 135)

/-- R54, R55, R145 to R147: reading a half-row, the trellis windows, and decoding weights to a vector: the value of a window, scaled by
its group's byte in fp32, unscaled in tv. The faults of the operand come where the destination's port does not hold the instruction (before a fault
of that port, log 54). -/
def Obligations.TrellisAndBanks : Prop :=
  trellisValueRules ∧ ∀ (f : Fields) (s : State),
    let t := s.tile s.myTile
    let x := readX s.me f.a.toNat
    let n := f.imm10.toNat
    let idx := (readX s.me f.b.toNat + immOf f).toNat % 256
    (CanonicalTiles s → s.badWords = [] → Ready (.mRd f) s → PortsReady s [] (some f.d.toNat) → (t.array.any fun o => o.kind.bank == some f.a.toNat) = false →
      ∃ v, exec (.mRd f) s = .next (s.retire (writeVP s.me f.d.toNat v) f) ∧
        ∀ l, l < 64 → elemAt 32 v l = (bankAt t f.a.toNat (idx / 2) (64 * (idx % 2) + l)).toNat) ∧
    (Ready (.wSet f) s → exec (.wSet f) s = .next (s.retire (writeW s.me f.d.toNat (x.setWidth 16)) f)) ∧
    (1 ≤ n → n ≤ 3 → Ready (.wStep f) s → exec (.wStep f) s = .next (s.retire (writeW s.me f.d.toNat
      ((readW s.me f.d.toNat >>> n) + (x.setWidth 16 <<< (16 - n)))) f)) ∧
    (Ready (.wVal f) s → n < 2 → WritesX (.wVal f) f s (BitVec.ofInt 64 (windowValue (readW s.me f.a.toNat).toNat n))) ∧
    (Ready (.wVal f) s → n = 2 → WritesX (.wVal f) f s ((readW s.me f.a.toNat).setWidth 64)) ∧
    (let ts := n % 4
     let tv := n / 4 + 1
     let bv := (readX s.me f.b.toNat).toNat
     let b := if f.fmt = 15 then 16 else 32
     let base := bv % 64 * blockBytes ts tv
     let stream := bytesToNat (slotBytes t f.a.toNat base (streamBytes ts tv))
     let weight (j : Nat) := weightValue stream ts tv ((bv / 256 % 256 + j) % 256)
     let scale (j : Nat) := ((slotBytes t f.a.toNat (base + streamBytes ts tv) 8).getD ((bv / 256 % 256 + j) % 256 / 32) 0).toNat
     let read (o : Nat) : Prop := ∃ j, j < 64 ∧ elemActive 32 (laneMask s.me f) j = true ∧ o = base + streamBytes ts tv + (bv / 256 % 256 + j) % 256 / 32
     let spoilt (o : Nat) : Prop := read o ∧ slotByte t f.a.toNat o = 255
     f.fmt = 15 ∨ f.fmt = 10 → CanonicalTiles s → s.badWords = [] → Ready (.vTdec f) s → s.decodeHeld f.a.toNat = false → f.a.toNat < 8 →
     (checkPorts s.me [] (some f.d.toNat) = .hold → exec (.vTdec f) s = .next s) ∧
     (checkPorts s.me [] (some f.d.toNat) ≠ .hold → (slotAt t f.a.toNat).owner ≠ some s.mySlot → exec (.vTdec f) s = .next (s.takeTrap 15 0 (BitVec.ofNat 64 f.a.toNat))) ∧
     (∀ o, checkPorts s.me [] (some f.d.toNat) ≠ .hold → (slotAt t f.a.toNat).owner = some s.mySlot → f.fmt = 10 → spoilt o → (∀ k, spoilt k → o ≤ k) →
       exec (.vTdec f) s = .next (s.takeTrap 14 0 (BitVec.ofNat 64 (f.a.toNat * 2 ^ 14 + o)))) ∧
     (PortsReady s [] (some f.d.toNat) → (slotAt t f.a.toNat).owner = some s.mySlot → (f.fmt = 10 → ∀ o, ¬ spoilt o) →
     ∃ v, exec (.vTdec f) s = .next (s.retire (writeVP s.me f.d.toNat v) f) ∧
       Merged b v (readDst s.me f.d.toNat) (elemActive b (laneMask s.me f)) f.zm fun j =>
         if f.fmt = 15 then wrapInt 16 (weight j) else (deliver (ffmt 10 false) 0 false 0 (scaledWeight (weight j) (scale j))).1))

/-- R152, R157 to R159: accesses of the issuing tile's own store. -/
def Obligations.OwnStoreAccess : Prop := ownScalarRules ∧ ownVectorRules

/-- R22, R152, R153, R155, R309, R310: where an address goes, and the checks of a memory access that fail. The order of the bounds and the ring's
rights is the model's choice (log 54), and so is the walker that a walk goes to among the shortest queues (log 54). -/
def Obligations.AddressesAndFaults : Prop := regionRules ∧ localFaultRules ∧ handleFaultRules ∧ walkRules

/-- R160, R163, R242, R308, R309: accesses that leave the tile; the model's choices among these are those of logs 13 and 58. -/
def Obligations.RemoteAccess : Prop := remoteTileRules ∧ remoteHandleRules

/-- R164, R165: the L1. -/
def Obligations.CacheBehaviour : Prop := l1AccessRules ∧ l1MaintenanceRules

/-- R153, R155, R166 to R170, R309, R340: atomics; the address of a message to another device is the model's choice (log 13). -/
def Obligations.Atomics : Prop := ownAtomicRules ∧ remoteAtomicRules

/-- R161 to R163, R202: acquire, release and fences. -/
def Obligations.AcquireReleaseFence : Prop := acquireRules ∧ releaseRules ∧ fenceRules

/-- R181 to R183: timeline counters. -/
def Obligations.Timelines : Prop := timelineRules

/-- R89, R171 to R175, R181, R183, R311: copies, from issue to completion; the permission of a 4-bit destination and the flags of a failed copy
are the model's (log 26). -/
def Obligations.Copies : Prop := copyShapeRules ∧ copyIssueRules ∧ copyChoiceRules ∧ copyElementRules ∧ copyCompleteRules

/-- R152 to R154, R176 to R179, R353, R358: stream ports; the model's choices among these are those of logs 23, 27, 31 and 40. -/
def Obligations.StreamPorts : Prop := openRules ∧ portRules ∧ portEngineRules ∧ spoiltElementRules ∧ frozenEngineRules

/-- R148 to R150: trellis encodes. -/
def Obligations.TrellisEncodes : Prop := encodeIssueRules ∧ encodeEngineRules ∧ encodeBlockRules

/-- R186 to R190, R199, R218, R226: the start and the end of strands. -/
def Obligations.StrandLife : Prop := forkRules ∧ startMessageRules ∧ startArrivalRules ∧ haltRules

/-- R200, R201: halyard barriers. -/
def Obligations.Halyards : Prop := halyardRules ∧ halyardPhaseRules

/-- R203, R204, R226 to R231, R234: timed spans. -/
def Obligations.Spans : Prop := spanRules ∧ spanEventRules

/-- R37, R95, R186, R207, R209, R210, R215, R216, R322: control registers and system calls. -/
def Obligations.ControlRegistersAndSystemCalls : Prop := controlReadRules ∧ controlWriteRules ∧ systemCallRules

/-- R22, R160, R163, R167, R241, R242, R253, R255, R256, R308, R309, R358, R361, R363: what homes do with requests; an access of two pages is one
event by log 58. -/
def Obligations.HomeService : Prop := serviceOrderRules ∧ serviceRules ∧ cutServiceRules ∧ refusalRules ∧ raceRingRules ∧ diversionRules

/-- R21, R39, R163, R167, R186, R197, R309, R310, R358: what comes back to a strand. -/
def Obligations.ResultsAndAcknowledgments : Prop := resultRules ∧ acknowledgmentRules ∧ walkEndRules

/-- R191 to R198: the task instructions. -/
def Obligations.TaskInstructions : Prop := taskStateRules ∧ taskMessageRules ∧ popRules ∧ batchRules

/-- R192, R195, R196, R283 to R285, R293: task messages at their homes; what the spec leaves open of them is as logs 35 and 48 say. -/
def Obligations.TaskMessages : Prop := pushArrivalRules ∧ updateArrivalRules ∧ taskEndRules

/-- R282, R286 to R292: dispatch, stealing, level moves, the residual and termination. -/
def Obligations.Hoists : Prop := dispatchRules ∧ stealingRules ∧ levelMoveRules ∧ terminationRules

/-- R72, R212 to R214, R216, R219, R220, R224, R280, R314, R316, R319 to R321, R334, R335: launches from the queue to their end; status OWNER of a VF in
reset is the model's choice (logs 34 and 53). -/
def Obligations.Launches : Prop := eventRules ∧ headRules ∧ launchStatusRules ∧ creditRules ∧ queueServiceRules ∧ launchRules

/-- R150, R216, R233, R304, R323 to R327, R337: pre-emption, restore and the reset of a VF, which the model lets set LQHEAD
to LQTAIL (log 34). -/
def Obligations.PreemptionAndReset : Prop := preemptionRules ∧ saveAreaRules ∧ redeliveryRules ∧ vfResetRules ∧ servingRules

/-- R254, R306, R309, R311, R312, R331, R333 to R335, R337, R338, R340, R349, R353, R363: the host ports and requests of other devices. -/
def Obligations.HostPorts : Prop := commandRules ∧ windowRules ∧ outsideRules

/-- R26, R27, R235, R254, R311, R317, R321, R332, R338, R339, R341, R345, R353: the clock, the links and the pool. -/
def Obligations.ClockAndLinks : Prop := clockRules ∧ sendingRules ∧ flitRules ∧ poolRules

/-- R28, R303, R315, R317, R340, R345 to R350, R353, R354, R358 to R361: boot, commits, partitions and freezing. -/
def Obligations.BootAndTrust : Prop := bootRules ∧ commitRules ∧ partitionRules ∧ freezeRules

/-- R317, R318, R350 to R352, R355, R357 to R361: attestation, readback, scrubbing and retirement. -/
def Obligations.ManagementPlane : Prop := managementRules ∧ scrubRules ∧ repairRules ∧ poolShrinkRules

/-- The frame of the instructions that act on registers alone. -/
def Obligations.RegisterFrame : Prop := registerFrameRules

/-- R16, R25, R26: the state after reset, in which the invariant of every step holds. -/
def Obligations.ResetState : Prop := resetRules ∧ Inv State.reset

/-- Every step keeps the invariant. -/
def Obligations.StepKeepsInvariant : Prop := ∀ s t : State, Inv s → step s = .next t → Inv t
end

