-- ==== Sys2Proof/Laws/Map.lean ====
section
/-! SUPPORT. Laws of the sparse maps and of byte memory: read after write, and the canonical form kept by every operation. -/

namespace Sys2Proof.Machine

variable {α : Type} [DecidableEq α] {dflt : α}

/-- Another key keeps its value. -/
theorem mapGet_mapPut_ne (m : Map α) {i j : Nat} (x : α) (h : j ≠ i) :
    mapGet dflt (mapPut dflt m i x) j = mapGet dflt m j := by
  induction m with
  | nil =>
    by_cases hx : x = dflt
    · simp [mapPut, hx]
    · simp [mapPut, hx, mapGet, h]
  | cons p r ih =>
    obtain ⟨k, v⟩ := p
    simp only [mapPut]
    split_ifs with h1 h2 h3 h4
    · rfl
    · simp [mapGet, h]
    · simp [mapGet, h3 ▸ h]
    · simp [mapGet, h3 ▸ h, h]
    · simp [mapGet, ih]

/-- A key above every listed one reads the default value. -/
theorem mapGet_of_wfFrom {m : Map α} {l i : Nat} (h : mapWfFrom dflt (some l) m = true) (hi : i ≤ l) :
    mapGet dflt m i = dflt := by
  induction m generalizing l with
  | nil => rfl
  | cons p r ih =>
    obtain ⟨k, v⟩ := p
    simp only [mapWfFrom, Bool.and_eq_true, decide_eq_true_eq] at h
    have hk : i ≠ k := by omega
    simp [mapGet, hk, ih h.2 (by omega)]

/-- Any value but the default is read back, in a map of any form. -/
theorem mapGet_mapPut_self_of_ne (m : Map α) (i : Nat) {x : α} (hx : x ≠ dflt) :
    mapGet dflt (mapPut dflt m i x) i = x := by
  induction m with
  | nil => simp [mapPut, hx, mapGet]
  | cons p r ih =>
    obtain ⟨k, v⟩ := p
    simp only [mapPut, hx, if_false]
    split_ifs with h1 h2
    · simp [mapGet]
    · simp [mapGet]
    · simp [mapGet, h2, ih]

theorem mapWfFrom_of_lt {m : Map α} {l k : Nat} (h : mapWfFrom dflt (some k) m = true) (hl : l ≤ k) :
    mapWfFrom dflt (some l) m = true := by
  cases m with
  | nil => rfl
  | cons p r =>
    obtain ⟨k', v⟩ := p
    simp only [mapWfFrom, Bool.and_eq_true, decide_eq_true_eq] at h ⊢
    exact ⟨⟨by omega, h.1.2⟩, h.2⟩

theorem mapWfFrom_none {m : Map α} {lo : Option Nat} (h : mapWfFrom dflt lo m = true) : mapWf dflt m = true := by
  cases m with
  | nil => rfl
  | cons p r =>
    obtain ⟨k', v⟩ := p
    simp only [mapWf, mapWfFrom, Bool.and_eq_true, decide_eq_true_eq] at h ⊢
    exact ⟨⟨trivial, h.1.2⟩, h.2⟩

/-- In canonical form the value written is read back. -/
theorem mapGet_mapPut_self {m : Map α} {lo : Option Nat} (h : mapWfFrom dflt lo m = true) (i : Nat) (x : α) :
    mapGet dflt (mapPut dflt m i x) i = x := by
  by_cases hx : x = dflt
  · subst hx
    induction m generalizing lo with
    | nil => simp [mapPut, mapGet]
    | cons p r ih =>
      obtain ⟨k, v⟩ := p
      have h' := h
      simp only [mapWfFrom, Bool.and_eq_true, decide_eq_true_eq] at h
      simp only [mapPut, if_true]
      split_ifs with h1 h2
      · have hk : i ≠ k := by omega
        simp [mapGet, hk, mapGet_of_wfFrom h.2 (show i ≤ k by omega)]
      · exact mapGet_of_wfFrom h.2 (by omega)
      · simp [mapGet, h2, ih h.2]
  · exact mapGet_mapPut_self_of_ne m i hx

/-- What a map in canonical form reads after a write. -/
theorem mapGet_mapPut {m : Map α} (h : mapWf dflt m = true) (i j : Nat) (x : α) :
    mapGet dflt (mapPut dflt m i x) j = if j = i then x else mapGet dflt m j := by
  split_ifs with hj
  · subst hj; exact mapGet_mapPut_self h j x
  · exact mapGet_mapPut_ne m x hj

theorem mapWfFrom_mapPut {m : Map α} {lo : Option Nat} (h : mapWfFrom dflt lo m = true) {i : Nat} (x : α)
    (hi : ∀ l, lo = some l → l < i) : mapWfFrom dflt lo (mapPut dflt m i x) = true := by
  induction m generalizing lo with
  | nil =>
    by_cases hx : x = dflt
    · simp [mapPut, hx, mapWfFrom]
    · cases lo with
      | none => simp [mapPut, hx, mapWfFrom]
      | some l => simp [mapPut, hx, mapWfFrom, hi l rfl]
  | cons p r ih =>
    obtain ⟨k, v⟩ := p
    have h' := h
    simp only [mapWfFrom, Bool.and_eq_true, decide_eq_true_eq] at h
    simp only [mapPut]
    split_ifs with h1 h2 h3 h4
    · exact h'
    · simp only [mapWfFrom, Bool.and_eq_true, decide_eq_true_eq]
      exact ⟨⟨by cases lo with | none => rfl | some l => simp [hi l rfl], h2⟩, ⟨h1, h.1.2⟩, h.2⟩
    · cases lo with
      | none => exact mapWfFrom_none h.2
      | some l => exact mapWfFrom_of_lt h.2 (by have := hi l rfl; omega)
    · simp only [mapWfFrom, Bool.and_eq_true, decide_eq_true_eq]
      exact ⟨⟨by cases lo with | none => rfl | some l => simp [hi l rfl], h4⟩, h3 ▸ h.2⟩
    · simp only [mapWfFrom, Bool.and_eq_true, decide_eq_true_eq]
      exact ⟨h.1, ih h.2 (by intro l hl; cases hl; omega)⟩

/-- A write keeps the canonical form. -/
theorem mapWf_mapPut {m : Map α} (h : mapWf dflt m = true) (i : Nat) (x : α) : mapWf dflt (mapPut dflt m i x) = true :=
  mapWfFrom_mapPut h x (by simp)

theorem mapWfFrom_filter {m : Map α} {lo : Option Nat} (h : mapWfFrom dflt lo m = true) (p : Nat × α → Bool) :
    mapWfFrom dflt lo (m.filter p) = true := by
  induction m generalizing lo with
  | nil => rfl
  | cons q r ih =>
    obtain ⟨k, v⟩ := q
    have h' := h
    simp only [mapWfFrom, Bool.and_eq_true, decide_eq_true_eq] at h
    rw [List.filter_cons]
    split_ifs
    · simp only [mapWfFrom, Bool.and_eq_true, decide_eq_true_eq]
      exact ⟨h.1, ih h.2⟩
    · cases lo with
      | none => exact mapWfFrom_none (ih h.2)
      | some l =>
        have hl : l < k := by simpa using h.1.1
        exact mapWfFrom_of_lt (ih h.2) (by omega)

/-- Dropping entries keeps the canonical form. -/
theorem mapWf_filter {m : Map α} (h : mapWf dflt m = true) (p : Nat × α → Bool) : mapWf dflt (m.filter p) = true :=
  mapWfFrom_filter h p

theorem mapWfFrom_map {m : Map α} {lo : Option Nat} (h : mapWfFrom dflt lo m = true) {g : Nat × α → α}
    (hg : ∀ p ∈ m, g p ≠ dflt) : mapWfFrom dflt lo (m.map fun p => (p.1, g p)) = true := by
  induction m generalizing lo with
  | nil => rfl
  | cons q r ih =>
    obtain ⟨k, v⟩ := q
    simp only [mapWfFrom, Bool.and_eq_true, decide_eq_true_eq, List.map_cons] at h ⊢
    exact ⟨⟨h.1.1, hg _ (by simp)⟩, ih h.2 (fun p hp => hg p (by simp [hp]))⟩

/-- Values replaced by others that are not the default keep the canonical form. -/
theorem mapWf_map {m : Map α} (h : mapWf dflt m = true) {g : Nat × α → α} (hg : ∀ p ∈ m, g p ≠ dflt) :
    mapWf dflt (m.map fun p => (p.1, g p)) = true := mapWfFrom_map h hg

/-- No listed value of a canonical map is the default. -/
theorem ne_dflt_of_mem {m : Map α} {lo : Option Nat} (h : mapWfFrom dflt lo m = true) {p : Nat × α} (hp : p ∈ m) :
    p.2 ≠ dflt := by
  induction m generalizing lo with
  | nil => simp at hp
  | cons q r ih =>
    obtain ⟨k, v⟩ := q
    simp only [mapWfFrom, Bool.and_eq_true, decide_eq_true_eq] at h
    rcases List.mem_cons.1 hp with rfl | hr
    · exact h.1.2
    · exact ih h.2 hr

/-! Byte memory. -/

@[simp] theorem Memory.wf_nil : Memory.wf [] = true := rfl

theorem Memory.wf_writeByte {m : Memory} (h : m.wf = true) (a : Nat) (b : Byte) : Memory.wf (writeByte m a b) = true :=
  mapWf_mapPut h a b

theorem Memory.wf_writeBytes {m : Memory} (h : m.wf = true) (a : Nat) (bs : List Byte) :
    Memory.wf (writeBytes m a bs) = true := by
  induction bs generalizing m a with
  | nil => exact h
  | cons b r ih => exact ih (Memory.wf_writeByte h a b) (a + 1)

theorem Memory.wf_filter {m : Memory} (h : m.wf = true) (p : Host.Cell → Bool) : Memory.wf (m.filter p) = true :=
  mapWf_filter h p

theorem readByte_writeByte_self {m : Memory} (h : m.wf = true) (a : Nat) (b : Byte) : readByte (writeByte m a b) a = b :=
  mapGet_mapPut_self h a b

theorem readByte_writeByte_ne (m : Memory) {a c : Nat} (b : Byte) (h : c ≠ a) : readByte (writeByte m a b) c = readByte m c :=
  mapGet_mapPut_ne m b h

/-- A byte outside the bytes written reads as before. -/
theorem readByte_writeBytes_outside (m : Memory) {a c : Nat} (bs : List Byte) (h : c < a ∨ a + bs.length ≤ c) :
    readByte (writeBytes m a bs) c = readByte m c := by
  induction bs generalizing m a with
  | nil => rfl
  | cons b r ih =>
    have hl : (b :: r).length = r.length + 1 := rfl
    rw [writeBytes, ih _ (by omega), readByte_writeByte_ne _ _ (by omega)]

/-- The bytes written are read back. -/
theorem readByte_writeBytes_inside {m : Memory} (h : m.wf = true) (a : Nat) (bs : List Byte) {i : Nat} (hi : i < bs.length) :
    readByte (writeBytes m a bs) (a + i) = bs[i] := by
  induction bs generalizing m a i with
  | nil => simp at hi
  | cons b r ih =>
    rw [writeBytes]
    cases i with
    | zero =>
      rw [readByte_writeBytes_outside _ _ (by omega), Nat.add_zero, readByte_writeByte_self h]
      rfl
    | succ n =>
      have := ih (Memory.wf_writeByte h a b) (a + 1) (i := n) (by simpa using hi)
      rw [show a + (n + 1) = a + 1 + n by omega, this]
      rfl

@[simp] theorem length_readBytes (m : Memory) (a n : Nat) : (readBytes m a n).length = n := by
  induction n generalizing a with
  | zero => rfl
  | succ n ih => simp [readBytes, ih]

theorem readBytes_writeBytes_self {m : Memory} (h : m.wf = true) (a : Nat) (bs : List Byte) :
    readBytes (writeBytes m a bs) a bs.length = bs := by
  have key : ∀ (n i : Nat), n + i = bs.length → readBytes (writeBytes m a bs) (a + i) n = bs.drop i := by
    intro n
    induction n with
    | zero => intro i hi; rw [List.drop_eq_nil_of_le (by omega)]; rfl
    | succ n ih =>
      intro i hi
      have hlt : i < bs.length := by omega
      rw [List.drop_eq_getElem_cons hlt, readBytes, readByte_writeBytes_inside h a bs hlt,
        show a + i + 1 = a + (i + 1) by omega, ih (i + 1) (by omega)]
  simpa using key bs.length 0 (by omega)

end Sys2Proof.Machine
end

