-- ==== Sys2Proof/Laws/State.lean ====
section
/-! SUPPORT. Every field of the state under every update of it, and the strands and tiles that an update leaves or sets. -/

namespace Sys2Proof.Machine

variable (s : State)

/-! `setStrand` -/

@[simp] theorem State.setStrand_cycle (i : Nat) (a : Strand) : (s.setStrand i a).cycle = s.cycle := rfl
@[simp] theorem State.setStrand_dt36 (i : Nat) (a : Strand) : (s.setStrand i a).dt36 = s.dt36 := rfl
@[simp] theorem State.setStrand_mhz (i : Nat) (a : Strand) : (s.setStrand i a).mhz = s.mhz := rfl
@[simp] theorem State.setStrand_throttles (i : Nat) (a : Strand) : (s.setStrand i a).throttles = s.throttles := rfl
@[simp] theorem State.setStrand_tiles (i : Nat) (a : Strand) : (s.setStrand i a).tiles = s.tiles := rfl
@[simp] theorem State.setStrand_clusters (i : Nat) (a : Strand) : (s.setStrand i a).clusters = s.clusters := rfl
@[simp] theorem State.setStrand_launches (i : Nat) (a : Strand) : (s.setStrand i a).launches = s.launches := rfl
@[simp] theorem State.setStrand_vfs (i : Nat) (a : Strand) : (s.setStrand i a).vfs = s.vfs := rfl
@[simp] theorem State.setStrand_served (i : Nat) (a : Strand) : (s.setStrand i a).served = s.served := rfl
@[simp] theorem State.setStrand_mem (i : Nat) (a : Strand) : (s.setStrand i a).mem = s.mem := rfl
@[simp] theorem State.setStrand_badWords (i : Nat) (a : Strand) : (s.setStrand i a).badWords = s.badWords := rfl
@[simp] theorem State.setStrand_banks (i : Nat) (a : Strand) : (s.setStrand i a).banks = s.banks := rfl
@[simp] theorem State.setStrand_retired (i : Nat) (a : Strand) : (s.setStrand i a).retired = s.retired := rfl
@[simp] theorem State.setStrand_pooled (i : Nat) (a : Strand) : (s.setStrand i a).pooled = s.pooled := rfl
@[simp] theorem State.setStrand_portB (i : Nat) (a : Strand) : (s.setStrand i a).portB = s.portB := rfl
@[simp] theorem State.setStrand_poolDown (i : Nat) (a : Strand) : (s.setStrand i a).poolDown = s.poolDown := rfl
@[simp] theorem State.setStrand_pooledBanks (i : Nat) (a : Strand) : (s.setStrand i a).pooledBanks = s.pooledBanks := rfl
@[simp] theorem State.setStrand_lostPool (i : Nat) (a : Strand) : (s.setStrand i a).lostPool = s.lostPool := rfl
@[simp] theorem State.setStrand_hostMem (i : Nat) (a : Strand) : (s.setStrand i a).hostMem = s.hostMem := rfl
@[simp] theorem State.setStrand_hostReads (i : Nat) (a : Strand) : (s.setStrand i a).hostReads = s.hostReads := rfl
@[simp] theorem State.setStrand_remote (i : Nat) (a : Strand) : (s.setStrand i a).remote = s.remote := rfl
@[simp] theorem State.setStrand_net (i : Nat) (a : Strand) : (s.setStrand i a).net = s.net := rfl
@[simp] theorem State.setStrand_acks (i : Nat) (a : Strand) : (s.setStrand i a).acks = s.acks := rfl
@[simp] theorem State.setStrand_links (i : Nat) (a : Strand) : (s.setStrand i a).links = s.links := rfl
@[simp] theorem State.setStrand_linkId (i : Nat) (a : Strand) : (s.setStrand i a).linkId = s.linkId := rfl
@[simp] theorem State.setStrand_trust (i : Nat) (a : Strand) : (s.setStrand i a).trust = s.trust := rfl
@[simp] theorem State.setStrand_arg (i : Nat) (a : Strand) : (s.setStrand i a).arg = s.arg := rfl
@[simp] theorem State.setStrand_agenda (i : Nat) (a : Strand) : (s.setStrand i a).agenda = s.agenda := rfl
@[simp] theorem State.setStrand_cur (i : Nat) (a : Strand) : (s.setStrand i a).cur = s.cur := rfl
@[simp] theorem State.setStrand_cursor (i : Nat) (a : Strand) : (s.setStrand i a).cursor = s.cursor := rfl
@[simp] theorem State.setStrand_fresh (i : Nat) (a : Strand) : (s.setStrand i a).fresh = s.fresh := rfl

@[simp] theorem State.setStrand_tile (i j : Nat) (a : Strand) : (s.setStrand i a).tile j = s.tile j := rfl
@[simp] theorem State.setStrand_cluster (i j : Nat) (a : Strand) : (s.setStrand i a).cluster j = s.cluster j := rfl
@[simp] theorem State.setStrand_launch (i j : Nat) (a : Strand) : (s.setStrand i a).launch j = s.launch j := rfl
@[simp] theorem State.setStrand_vf (i j : Nat) (a : Strand) : (s.setStrand i a).vf j = s.vf j := rfl
@[simp] theorem State.setStrand_link (i j : Nat) (a : Strand) : (s.setStrand i a).link j = s.link j := rfl

theorem State.setStrand_strand_ne {i j : Nat} (a : Strand) (h : j ≠ i) : (s.setStrand i a).strand j = s.strand j :=
  mapGet_mapPut_ne _ _ h

theorem State.setStrand_strand_self {i : Nat} {a : Strand} (h : a ≠ {}) : (s.setStrand i a).strand i = a :=
  mapGet_mapPut_self_of_ne _ _ h

theorem State.setStrand_strand_of_wf (h : mapWf {} s.strands = true) (i j : Nat) (a : Strand) :
    (s.setStrand i a).strand j = if j = i then a else s.strand j :=
  mapGet_mapPut h i j a

/-! `setTile` -/

@[simp] theorem State.setTile_cycle (i : Nat) (a : Tile) : (s.setTile i a).cycle = s.cycle := rfl
@[simp] theorem State.setTile_dt36 (i : Nat) (a : Tile) : (s.setTile i a).dt36 = s.dt36 := rfl
@[simp] theorem State.setTile_mhz (i : Nat) (a : Tile) : (s.setTile i a).mhz = s.mhz := rfl
@[simp] theorem State.setTile_throttles (i : Nat) (a : Tile) : (s.setTile i a).throttles = s.throttles := rfl
@[simp] theorem State.setTile_strands (i : Nat) (a : Tile) : (s.setTile i a).strands = s.strands := rfl
@[simp] theorem State.setTile_clusters (i : Nat) (a : Tile) : (s.setTile i a).clusters = s.clusters := rfl
@[simp] theorem State.setTile_launches (i : Nat) (a : Tile) : (s.setTile i a).launches = s.launches := rfl
@[simp] theorem State.setTile_vfs (i : Nat) (a : Tile) : (s.setTile i a).vfs = s.vfs := rfl
@[simp] theorem State.setTile_served (i : Nat) (a : Tile) : (s.setTile i a).served = s.served := rfl
@[simp] theorem State.setTile_mem (i : Nat) (a : Tile) : (s.setTile i a).mem = s.mem := rfl
@[simp] theorem State.setTile_badWords (i : Nat) (a : Tile) : (s.setTile i a).badWords = s.badWords := rfl
@[simp] theorem State.setTile_banks (i : Nat) (a : Tile) : (s.setTile i a).banks = s.banks := rfl
@[simp] theorem State.setTile_retired (i : Nat) (a : Tile) : (s.setTile i a).retired = s.retired := rfl
@[simp] theorem State.setTile_pooled (i : Nat) (a : Tile) : (s.setTile i a).pooled = s.pooled := rfl
@[simp] theorem State.setTile_portB (i : Nat) (a : Tile) : (s.setTile i a).portB = s.portB := rfl
@[simp] theorem State.setTile_poolDown (i : Nat) (a : Tile) : (s.setTile i a).poolDown = s.poolDown := rfl
@[simp] theorem State.setTile_pooledBanks (i : Nat) (a : Tile) : (s.setTile i a).pooledBanks = s.pooledBanks := rfl
@[simp] theorem State.setTile_lostPool (i : Nat) (a : Tile) : (s.setTile i a).lostPool = s.lostPool := rfl
@[simp] theorem State.setTile_hostMem (i : Nat) (a : Tile) : (s.setTile i a).hostMem = s.hostMem := rfl
@[simp] theorem State.setTile_hostReads (i : Nat) (a : Tile) : (s.setTile i a).hostReads = s.hostReads := rfl
@[simp] theorem State.setTile_remote (i : Nat) (a : Tile) : (s.setTile i a).remote = s.remote := rfl
@[simp] theorem State.setTile_net (i : Nat) (a : Tile) : (s.setTile i a).net = s.net := rfl
@[simp] theorem State.setTile_acks (i : Nat) (a : Tile) : (s.setTile i a).acks = s.acks := rfl
@[simp] theorem State.setTile_links (i : Nat) (a : Tile) : (s.setTile i a).links = s.links := rfl
@[simp] theorem State.setTile_linkId (i : Nat) (a : Tile) : (s.setTile i a).linkId = s.linkId := rfl
@[simp] theorem State.setTile_trust (i : Nat) (a : Tile) : (s.setTile i a).trust = s.trust := rfl
@[simp] theorem State.setTile_arg (i : Nat) (a : Tile) : (s.setTile i a).arg = s.arg := rfl
@[simp] theorem State.setTile_agenda (i : Nat) (a : Tile) : (s.setTile i a).agenda = s.agenda := rfl
@[simp] theorem State.setTile_cur (i : Nat) (a : Tile) : (s.setTile i a).cur = s.cur := rfl
@[simp] theorem State.setTile_cursor (i : Nat) (a : Tile) : (s.setTile i a).cursor = s.cursor := rfl
@[simp] theorem State.setTile_fresh (i : Nat) (a : Tile) : (s.setTile i a).fresh = s.fresh := rfl

@[simp] theorem State.setTile_strand (i j : Nat) (a : Tile) : (s.setTile i a).strand j = s.strand j := rfl
@[simp] theorem State.setTile_cluster (i j : Nat) (a : Tile) : (s.setTile i a).cluster j = s.cluster j := rfl
@[simp] theorem State.setTile_launch (i j : Nat) (a : Tile) : (s.setTile i a).launch j = s.launch j := rfl
@[simp] theorem State.setTile_vf (i j : Nat) (a : Tile) : (s.setTile i a).vf j = s.vf j := rfl
@[simp] theorem State.setTile_link (i j : Nat) (a : Tile) : (s.setTile i a).link j = s.link j := rfl

theorem State.setTile_tile_ne {i j : Nat} (a : Tile) (h : j ≠ i) : (s.setTile i a).tile j = s.tile j :=
  mapGet_mapPut_ne _ _ h

theorem State.setTile_tile_self {i : Nat} {a : Tile} (h : a ≠ {}) : (s.setTile i a).tile i = a :=
  mapGet_mapPut_self_of_ne _ _ h

theorem State.setTile_tile_of_wf (h : mapWf {} s.tiles = true) (i j : Nat) (a : Tile) :
    (s.setTile i a).tile j = if j = i then a else s.tile j :=
  mapGet_mapPut h i j a

/-! `setCluster` -/

@[simp] theorem State.setCluster_cycle (i : Nat) (a : Cluster) : (s.setCluster i a).cycle = s.cycle := rfl
@[simp] theorem State.setCluster_dt36 (i : Nat) (a : Cluster) : (s.setCluster i a).dt36 = s.dt36 := rfl
@[simp] theorem State.setCluster_mhz (i : Nat) (a : Cluster) : (s.setCluster i a).mhz = s.mhz := rfl
@[simp] theorem State.setCluster_throttles (i : Nat) (a : Cluster) : (s.setCluster i a).throttles = s.throttles := rfl
@[simp] theorem State.setCluster_strands (i : Nat) (a : Cluster) : (s.setCluster i a).strands = s.strands := rfl
@[simp] theorem State.setCluster_tiles (i : Nat) (a : Cluster) : (s.setCluster i a).tiles = s.tiles := rfl
@[simp] theorem State.setCluster_launches (i : Nat) (a : Cluster) : (s.setCluster i a).launches = s.launches := rfl
@[simp] theorem State.setCluster_vfs (i : Nat) (a : Cluster) : (s.setCluster i a).vfs = s.vfs := rfl
@[simp] theorem State.setCluster_served (i : Nat) (a : Cluster) : (s.setCluster i a).served = s.served := rfl
@[simp] theorem State.setCluster_mem (i : Nat) (a : Cluster) : (s.setCluster i a).mem = s.mem := rfl
@[simp] theorem State.setCluster_badWords (i : Nat) (a : Cluster) : (s.setCluster i a).badWords = s.badWords := rfl
@[simp] theorem State.setCluster_banks (i : Nat) (a : Cluster) : (s.setCluster i a).banks = s.banks := rfl
@[simp] theorem State.setCluster_retired (i : Nat) (a : Cluster) : (s.setCluster i a).retired = s.retired := rfl
@[simp] theorem State.setCluster_pooled (i : Nat) (a : Cluster) : (s.setCluster i a).pooled = s.pooled := rfl
@[simp] theorem State.setCluster_portB (i : Nat) (a : Cluster) : (s.setCluster i a).portB = s.portB := rfl
@[simp] theorem State.setCluster_poolDown (i : Nat) (a : Cluster) : (s.setCluster i a).poolDown = s.poolDown := rfl
@[simp] theorem State.setCluster_pooledBanks (i : Nat) (a : Cluster) : (s.setCluster i a).pooledBanks = s.pooledBanks := rfl
@[simp] theorem State.setCluster_lostPool (i : Nat) (a : Cluster) : (s.setCluster i a).lostPool = s.lostPool := rfl
@[simp] theorem State.setCluster_hostMem (i : Nat) (a : Cluster) : (s.setCluster i a).hostMem = s.hostMem := rfl
@[simp] theorem State.setCluster_hostReads (i : Nat) (a : Cluster) : (s.setCluster i a).hostReads = s.hostReads := rfl
@[simp] theorem State.setCluster_remote (i : Nat) (a : Cluster) : (s.setCluster i a).remote = s.remote := rfl
@[simp] theorem State.setCluster_net (i : Nat) (a : Cluster) : (s.setCluster i a).net = s.net := rfl
@[simp] theorem State.setCluster_acks (i : Nat) (a : Cluster) : (s.setCluster i a).acks = s.acks := rfl
@[simp] theorem State.setCluster_links (i : Nat) (a : Cluster) : (s.setCluster i a).links = s.links := rfl
@[simp] theorem State.setCluster_linkId (i : Nat) (a : Cluster) : (s.setCluster i a).linkId = s.linkId := rfl
@[simp] theorem State.setCluster_trust (i : Nat) (a : Cluster) : (s.setCluster i a).trust = s.trust := rfl
@[simp] theorem State.setCluster_arg (i : Nat) (a : Cluster) : (s.setCluster i a).arg = s.arg := rfl
@[simp] theorem State.setCluster_agenda (i : Nat) (a : Cluster) : (s.setCluster i a).agenda = s.agenda := rfl
@[simp] theorem State.setCluster_cur (i : Nat) (a : Cluster) : (s.setCluster i a).cur = s.cur := rfl
@[simp] theorem State.setCluster_cursor (i : Nat) (a : Cluster) : (s.setCluster i a).cursor = s.cursor := rfl
@[simp] theorem State.setCluster_fresh (i : Nat) (a : Cluster) : (s.setCluster i a).fresh = s.fresh := rfl

@[simp] theorem State.setCluster_strand (i j : Nat) (a : Cluster) : (s.setCluster i a).strand j = s.strand j := rfl
@[simp] theorem State.setCluster_tile (i j : Nat) (a : Cluster) : (s.setCluster i a).tile j = s.tile j := rfl
@[simp] theorem State.setCluster_launch (i j : Nat) (a : Cluster) : (s.setCluster i a).launch j = s.launch j := rfl
@[simp] theorem State.setCluster_vf (i j : Nat) (a : Cluster) : (s.setCluster i a).vf j = s.vf j := rfl
@[simp] theorem State.setCluster_link (i j : Nat) (a : Cluster) : (s.setCluster i a).link j = s.link j := rfl

theorem State.setCluster_cluster_ne {i j : Nat} (a : Cluster) (h : j ≠ i) : (s.setCluster i a).cluster j = s.cluster j :=
  mapGet_mapPut_ne _ _ h

theorem State.setCluster_cluster_self {i : Nat} {a : Cluster} (h : a ≠ {}) : (s.setCluster i a).cluster i = a :=
  mapGet_mapPut_self_of_ne _ _ h

theorem State.setCluster_cluster_of_wf (h : mapWf {} s.clusters = true) (i j : Nat) (a : Cluster) :
    (s.setCluster i a).cluster j = if j = i then a else s.cluster j :=
  mapGet_mapPut h i j a

/-! `setLaunch` -/

@[simp] theorem State.setLaunch_cycle (i : Nat) (a : Launch) : (s.setLaunch i a).cycle = s.cycle := rfl
@[simp] theorem State.setLaunch_dt36 (i : Nat) (a : Launch) : (s.setLaunch i a).dt36 = s.dt36 := rfl
@[simp] theorem State.setLaunch_mhz (i : Nat) (a : Launch) : (s.setLaunch i a).mhz = s.mhz := rfl
@[simp] theorem State.setLaunch_throttles (i : Nat) (a : Launch) : (s.setLaunch i a).throttles = s.throttles := rfl
@[simp] theorem State.setLaunch_strands (i : Nat) (a : Launch) : (s.setLaunch i a).strands = s.strands := rfl
@[simp] theorem State.setLaunch_tiles (i : Nat) (a : Launch) : (s.setLaunch i a).tiles = s.tiles := rfl
@[simp] theorem State.setLaunch_clusters (i : Nat) (a : Launch) : (s.setLaunch i a).clusters = s.clusters := rfl
@[simp] theorem State.setLaunch_vfs (i : Nat) (a : Launch) : (s.setLaunch i a).vfs = s.vfs := rfl
@[simp] theorem State.setLaunch_served (i : Nat) (a : Launch) : (s.setLaunch i a).served = s.served := rfl
@[simp] theorem State.setLaunch_mem (i : Nat) (a : Launch) : (s.setLaunch i a).mem = s.mem := rfl
@[simp] theorem State.setLaunch_badWords (i : Nat) (a : Launch) : (s.setLaunch i a).badWords = s.badWords := rfl
@[simp] theorem State.setLaunch_banks (i : Nat) (a : Launch) : (s.setLaunch i a).banks = s.banks := rfl
@[simp] theorem State.setLaunch_retired (i : Nat) (a : Launch) : (s.setLaunch i a).retired = s.retired := rfl
@[simp] theorem State.setLaunch_pooled (i : Nat) (a : Launch) : (s.setLaunch i a).pooled = s.pooled := rfl
@[simp] theorem State.setLaunch_portB (i : Nat) (a : Launch) : (s.setLaunch i a).portB = s.portB := rfl
@[simp] theorem State.setLaunch_poolDown (i : Nat) (a : Launch) : (s.setLaunch i a).poolDown = s.poolDown := rfl
@[simp] theorem State.setLaunch_pooledBanks (i : Nat) (a : Launch) : (s.setLaunch i a).pooledBanks = s.pooledBanks := rfl
@[simp] theorem State.setLaunch_lostPool (i : Nat) (a : Launch) : (s.setLaunch i a).lostPool = s.lostPool := rfl
@[simp] theorem State.setLaunch_hostMem (i : Nat) (a : Launch) : (s.setLaunch i a).hostMem = s.hostMem := rfl
@[simp] theorem State.setLaunch_hostReads (i : Nat) (a : Launch) : (s.setLaunch i a).hostReads = s.hostReads := rfl
@[simp] theorem State.setLaunch_remote (i : Nat) (a : Launch) : (s.setLaunch i a).remote = s.remote := rfl
@[simp] theorem State.setLaunch_net (i : Nat) (a : Launch) : (s.setLaunch i a).net = s.net := rfl
@[simp] theorem State.setLaunch_acks (i : Nat) (a : Launch) : (s.setLaunch i a).acks = s.acks := rfl
@[simp] theorem State.setLaunch_links (i : Nat) (a : Launch) : (s.setLaunch i a).links = s.links := rfl
@[simp] theorem State.setLaunch_linkId (i : Nat) (a : Launch) : (s.setLaunch i a).linkId = s.linkId := rfl
@[simp] theorem State.setLaunch_trust (i : Nat) (a : Launch) : (s.setLaunch i a).trust = s.trust := rfl
@[simp] theorem State.setLaunch_arg (i : Nat) (a : Launch) : (s.setLaunch i a).arg = s.arg := rfl
@[simp] theorem State.setLaunch_agenda (i : Nat) (a : Launch) : (s.setLaunch i a).agenda = s.agenda := rfl
@[simp] theorem State.setLaunch_cur (i : Nat) (a : Launch) : (s.setLaunch i a).cur = s.cur := rfl
@[simp] theorem State.setLaunch_cursor (i : Nat) (a : Launch) : (s.setLaunch i a).cursor = s.cursor := rfl
@[simp] theorem State.setLaunch_fresh (i : Nat) (a : Launch) : (s.setLaunch i a).fresh = s.fresh := rfl

@[simp] theorem State.setLaunch_strand (i j : Nat) (a : Launch) : (s.setLaunch i a).strand j = s.strand j := rfl
@[simp] theorem State.setLaunch_tile (i j : Nat) (a : Launch) : (s.setLaunch i a).tile j = s.tile j := rfl
@[simp] theorem State.setLaunch_cluster (i j : Nat) (a : Launch) : (s.setLaunch i a).cluster j = s.cluster j := rfl
@[simp] theorem State.setLaunch_vf (i j : Nat) (a : Launch) : (s.setLaunch i a).vf j = s.vf j := rfl
@[simp] theorem State.setLaunch_link (i j : Nat) (a : Launch) : (s.setLaunch i a).link j = s.link j := rfl

theorem State.setLaunch_launch_ne {i j : Nat} (a : Launch) (h : j ≠ i) : (s.setLaunch i a).launch j = s.launch j :=
  mapGet_mapPut_ne _ _ h

theorem State.setLaunch_launch_self {i : Nat} {a : Launch} (h : a ≠ {}) : (s.setLaunch i a).launch i = a :=
  mapGet_mapPut_self_of_ne _ _ h

theorem State.setLaunch_launch_of_wf (h : mapWf {} s.launches = true) (i j : Nat) (a : Launch) :
    (s.setLaunch i a).launch j = if j = i then a else s.launch j :=
  mapGet_mapPut h i j a

/-! `setVf` -/

@[simp] theorem State.setVf_cycle (i : Nat) (a : Vf) : (s.setVf i a).cycle = s.cycle := rfl
@[simp] theorem State.setVf_dt36 (i : Nat) (a : Vf) : (s.setVf i a).dt36 = s.dt36 := rfl
@[simp] theorem State.setVf_mhz (i : Nat) (a : Vf) : (s.setVf i a).mhz = s.mhz := rfl
@[simp] theorem State.setVf_throttles (i : Nat) (a : Vf) : (s.setVf i a).throttles = s.throttles := rfl
@[simp] theorem State.setVf_strands (i : Nat) (a : Vf) : (s.setVf i a).strands = s.strands := rfl
@[simp] theorem State.setVf_tiles (i : Nat) (a : Vf) : (s.setVf i a).tiles = s.tiles := rfl
@[simp] theorem State.setVf_clusters (i : Nat) (a : Vf) : (s.setVf i a).clusters = s.clusters := rfl
@[simp] theorem State.setVf_launches (i : Nat) (a : Vf) : (s.setVf i a).launches = s.launches := rfl
@[simp] theorem State.setVf_served (i : Nat) (a : Vf) : (s.setVf i a).served = s.served := rfl
@[simp] theorem State.setVf_mem (i : Nat) (a : Vf) : (s.setVf i a).mem = s.mem := rfl
@[simp] theorem State.setVf_badWords (i : Nat) (a : Vf) : (s.setVf i a).badWords = s.badWords := rfl
@[simp] theorem State.setVf_banks (i : Nat) (a : Vf) : (s.setVf i a).banks = s.banks := rfl
@[simp] theorem State.setVf_retired (i : Nat) (a : Vf) : (s.setVf i a).retired = s.retired := rfl
@[simp] theorem State.setVf_pooled (i : Nat) (a : Vf) : (s.setVf i a).pooled = s.pooled := rfl
@[simp] theorem State.setVf_portB (i : Nat) (a : Vf) : (s.setVf i a).portB = s.portB := rfl
@[simp] theorem State.setVf_poolDown (i : Nat) (a : Vf) : (s.setVf i a).poolDown = s.poolDown := rfl
@[simp] theorem State.setVf_pooledBanks (i : Nat) (a : Vf) : (s.setVf i a).pooledBanks = s.pooledBanks := rfl
@[simp] theorem State.setVf_lostPool (i : Nat) (a : Vf) : (s.setVf i a).lostPool = s.lostPool := rfl
@[simp] theorem State.setVf_hostMem (i : Nat) (a : Vf) : (s.setVf i a).hostMem = s.hostMem := rfl
@[simp] theorem State.setVf_hostReads (i : Nat) (a : Vf) : (s.setVf i a).hostReads = s.hostReads := rfl
@[simp] theorem State.setVf_remote (i : Nat) (a : Vf) : (s.setVf i a).remote = s.remote := rfl
@[simp] theorem State.setVf_net (i : Nat) (a : Vf) : (s.setVf i a).net = s.net := rfl
@[simp] theorem State.setVf_acks (i : Nat) (a : Vf) : (s.setVf i a).acks = s.acks := rfl
@[simp] theorem State.setVf_links (i : Nat) (a : Vf) : (s.setVf i a).links = s.links := rfl
@[simp] theorem State.setVf_linkId (i : Nat) (a : Vf) : (s.setVf i a).linkId = s.linkId := rfl
@[simp] theorem State.setVf_trust (i : Nat) (a : Vf) : (s.setVf i a).trust = s.trust := rfl
@[simp] theorem State.setVf_arg (i : Nat) (a : Vf) : (s.setVf i a).arg = s.arg := rfl
@[simp] theorem State.setVf_agenda (i : Nat) (a : Vf) : (s.setVf i a).agenda = s.agenda := rfl
@[simp] theorem State.setVf_cur (i : Nat) (a : Vf) : (s.setVf i a).cur = s.cur := rfl
@[simp] theorem State.setVf_cursor (i : Nat) (a : Vf) : (s.setVf i a).cursor = s.cursor := rfl
@[simp] theorem State.setVf_fresh (i : Nat) (a : Vf) : (s.setVf i a).fresh = s.fresh := rfl

@[simp] theorem State.setVf_strand (i j : Nat) (a : Vf) : (s.setVf i a).strand j = s.strand j := rfl
@[simp] theorem State.setVf_tile (i j : Nat) (a : Vf) : (s.setVf i a).tile j = s.tile j := rfl
@[simp] theorem State.setVf_cluster (i j : Nat) (a : Vf) : (s.setVf i a).cluster j = s.cluster j := rfl
@[simp] theorem State.setVf_launch (i j : Nat) (a : Vf) : (s.setVf i a).launch j = s.launch j := rfl
@[simp] theorem State.setVf_link (i j : Nat) (a : Vf) : (s.setVf i a).link j = s.link j := rfl

theorem State.setVf_vf_ne {i j : Nat} (a : Vf) (h : j ≠ i) : (s.setVf i a).vf j = s.vf j :=
  mapGet_mapPut_ne _ _ h

theorem State.setVf_vf_self {i : Nat} {a : Vf} (h : a ≠ {}) : (s.setVf i a).vf i = a :=
  mapGet_mapPut_self_of_ne _ _ h

theorem State.setVf_vf_of_wf (h : mapWf {} s.vfs = true) (i j : Nat) (a : Vf) :
    (s.setVf i a).vf j = if j = i then a else s.vf j :=
  mapGet_mapPut h i j a

/-! `setLink` -/

@[simp] theorem State.setLink_cycle (i : Nat) (a : LinkPort) : (s.setLink i a).cycle = s.cycle := rfl
@[simp] theorem State.setLink_dt36 (i : Nat) (a : LinkPort) : (s.setLink i a).dt36 = s.dt36 := rfl
@[simp] theorem State.setLink_mhz (i : Nat) (a : LinkPort) : (s.setLink i a).mhz = s.mhz := rfl
@[simp] theorem State.setLink_throttles (i : Nat) (a : LinkPort) : (s.setLink i a).throttles = s.throttles := rfl
@[simp] theorem State.setLink_strands (i : Nat) (a : LinkPort) : (s.setLink i a).strands = s.strands := rfl
@[simp] theorem State.setLink_tiles (i : Nat) (a : LinkPort) : (s.setLink i a).tiles = s.tiles := rfl
@[simp] theorem State.setLink_clusters (i : Nat) (a : LinkPort) : (s.setLink i a).clusters = s.clusters := rfl
@[simp] theorem State.setLink_launches (i : Nat) (a : LinkPort) : (s.setLink i a).launches = s.launches := rfl
@[simp] theorem State.setLink_vfs (i : Nat) (a : LinkPort) : (s.setLink i a).vfs = s.vfs := rfl
@[simp] theorem State.setLink_served (i : Nat) (a : LinkPort) : (s.setLink i a).served = s.served := rfl
@[simp] theorem State.setLink_mem (i : Nat) (a : LinkPort) : (s.setLink i a).mem = s.mem := rfl
@[simp] theorem State.setLink_badWords (i : Nat) (a : LinkPort) : (s.setLink i a).badWords = s.badWords := rfl
@[simp] theorem State.setLink_banks (i : Nat) (a : LinkPort) : (s.setLink i a).banks = s.banks := rfl
@[simp] theorem State.setLink_retired (i : Nat) (a : LinkPort) : (s.setLink i a).retired = s.retired := rfl
@[simp] theorem State.setLink_pooled (i : Nat) (a : LinkPort) : (s.setLink i a).pooled = s.pooled := rfl
@[simp] theorem State.setLink_portB (i : Nat) (a : LinkPort) : (s.setLink i a).portB = s.portB := rfl
@[simp] theorem State.setLink_poolDown (i : Nat) (a : LinkPort) : (s.setLink i a).poolDown = s.poolDown := rfl
@[simp] theorem State.setLink_pooledBanks (i : Nat) (a : LinkPort) : (s.setLink i a).pooledBanks = s.pooledBanks := rfl
@[simp] theorem State.setLink_lostPool (i : Nat) (a : LinkPort) : (s.setLink i a).lostPool = s.lostPool := rfl
@[simp] theorem State.setLink_hostMem (i : Nat) (a : LinkPort) : (s.setLink i a).hostMem = s.hostMem := rfl
@[simp] theorem State.setLink_hostReads (i : Nat) (a : LinkPort) : (s.setLink i a).hostReads = s.hostReads := rfl
@[simp] theorem State.setLink_remote (i : Nat) (a : LinkPort) : (s.setLink i a).remote = s.remote := rfl
@[simp] theorem State.setLink_net (i : Nat) (a : LinkPort) : (s.setLink i a).net = s.net := rfl
@[simp] theorem State.setLink_acks (i : Nat) (a : LinkPort) : (s.setLink i a).acks = s.acks := rfl
@[simp] theorem State.setLink_linkId (i : Nat) (a : LinkPort) : (s.setLink i a).linkId = s.linkId := rfl
@[simp] theorem State.setLink_trust (i : Nat) (a : LinkPort) : (s.setLink i a).trust = s.trust := rfl
@[simp] theorem State.setLink_arg (i : Nat) (a : LinkPort) : (s.setLink i a).arg = s.arg := rfl
@[simp] theorem State.setLink_agenda (i : Nat) (a : LinkPort) : (s.setLink i a).agenda = s.agenda := rfl
@[simp] theorem State.setLink_cur (i : Nat) (a : LinkPort) : (s.setLink i a).cur = s.cur := rfl
@[simp] theorem State.setLink_cursor (i : Nat) (a : LinkPort) : (s.setLink i a).cursor = s.cursor := rfl
@[simp] theorem State.setLink_fresh (i : Nat) (a : LinkPort) : (s.setLink i a).fresh = s.fresh := rfl

@[simp] theorem State.setLink_strand (i j : Nat) (a : LinkPort) : (s.setLink i a).strand j = s.strand j := rfl
@[simp] theorem State.setLink_tile (i j : Nat) (a : LinkPort) : (s.setLink i a).tile j = s.tile j := rfl
@[simp] theorem State.setLink_cluster (i j : Nat) (a : LinkPort) : (s.setLink i a).cluster j = s.cluster j := rfl
@[simp] theorem State.setLink_launch (i j : Nat) (a : LinkPort) : (s.setLink i a).launch j = s.launch j := rfl
@[simp] theorem State.setLink_vf (i j : Nat) (a : LinkPort) : (s.setLink i a).vf j = s.vf j := rfl

theorem State.setLink_link_ne {i j : Nat} (a : LinkPort) (h : j ≠ i) : (s.setLink i a).link j = s.link j :=
  mapGet_mapPut_ne _ _ h

theorem State.setLink_link_self {i : Nat} {a : LinkPort} (h : a ≠ {}) : (s.setLink i a).link i = a :=
  mapGet_mapPut_self_of_ne _ _ h

theorem State.setLink_link_of_wf (h : mapWf {} s.links = true) (i j : Nat) (a : LinkPort) :
    (s.setLink i a).link j = if j = i then a else s.link j :=
  mapGet_mapPut h i j a

/-! `setMe` -/

@[simp] theorem State.setMe_cycle (r : Strand) : (s.setMe r).cycle = s.cycle := rfl
@[simp] theorem State.setMe_dt36 (r : Strand) : (s.setMe r).dt36 = s.dt36 := rfl
@[simp] theorem State.setMe_mhz (r : Strand) : (s.setMe r).mhz = s.mhz := rfl
@[simp] theorem State.setMe_throttles (r : Strand) : (s.setMe r).throttles = s.throttles := rfl
@[simp] theorem State.setMe_tiles (r : Strand) : (s.setMe r).tiles = s.tiles := rfl
@[simp] theorem State.setMe_clusters (r : Strand) : (s.setMe r).clusters = s.clusters := rfl
@[simp] theorem State.setMe_launches (r : Strand) : (s.setMe r).launches = s.launches := rfl
@[simp] theorem State.setMe_vfs (r : Strand) : (s.setMe r).vfs = s.vfs := rfl
@[simp] theorem State.setMe_served (r : Strand) : (s.setMe r).served = s.served := rfl
@[simp] theorem State.setMe_mem (r : Strand) : (s.setMe r).mem = s.mem := rfl
@[simp] theorem State.setMe_badWords (r : Strand) : (s.setMe r).badWords = s.badWords := rfl
@[simp] theorem State.setMe_banks (r : Strand) : (s.setMe r).banks = s.banks := rfl
@[simp] theorem State.setMe_retired (r : Strand) : (s.setMe r).retired = s.retired := rfl
@[simp] theorem State.setMe_pooled (r : Strand) : (s.setMe r).pooled = s.pooled := rfl
@[simp] theorem State.setMe_portB (r : Strand) : (s.setMe r).portB = s.portB := rfl
@[simp] theorem State.setMe_poolDown (r : Strand) : (s.setMe r).poolDown = s.poolDown := rfl
@[simp] theorem State.setMe_pooledBanks (r : Strand) : (s.setMe r).pooledBanks = s.pooledBanks := rfl
@[simp] theorem State.setMe_lostPool (r : Strand) : (s.setMe r).lostPool = s.lostPool := rfl
@[simp] theorem State.setMe_hostMem (r : Strand) : (s.setMe r).hostMem = s.hostMem := rfl
@[simp] theorem State.setMe_hostReads (r : Strand) : (s.setMe r).hostReads = s.hostReads := rfl
@[simp] theorem State.setMe_remote (r : Strand) : (s.setMe r).remote = s.remote := rfl
@[simp] theorem State.setMe_net (r : Strand) : (s.setMe r).net = s.net := rfl
@[simp] theorem State.setMe_acks (r : Strand) : (s.setMe r).acks = s.acks := rfl
@[simp] theorem State.setMe_links (r : Strand) : (s.setMe r).links = s.links := rfl
@[simp] theorem State.setMe_linkId (r : Strand) : (s.setMe r).linkId = s.linkId := rfl
@[simp] theorem State.setMe_trust (r : Strand) : (s.setMe r).trust = s.trust := rfl
@[simp] theorem State.setMe_arg (r : Strand) : (s.setMe r).arg = s.arg := rfl
@[simp] theorem State.setMe_agenda (r : Strand) : (s.setMe r).agenda = s.agenda := rfl
@[simp] theorem State.setMe_cur (r : Strand) : (s.setMe r).cur = s.cur := rfl
@[simp] theorem State.setMe_cursor (r : Strand) : (s.setMe r).cursor = s.cursor := rfl
@[simp] theorem State.setMe_fresh (r : Strand) : (s.setMe r).fresh = s.fresh := rfl
@[simp] theorem State.setMe_tile (r : Strand) (j : Nat) : (s.setMe r).tile j = s.tile j := rfl
@[simp] theorem State.setMe_cluster (r : Strand) (j : Nat) : (s.setMe r).cluster j = s.cluster j := rfl
@[simp] theorem State.setMe_launch (r : Strand) (j : Nat) : (s.setMe r).launch j = s.launch j := rfl
@[simp] theorem State.setMe_vf (r : Strand) (j : Nat) : (s.setMe r).vf j = s.vf j := rfl
@[simp] theorem State.setMe_link (r : Strand) (j : Nat) : (s.setMe r).link j = s.link j := rfl
@[simp] theorem State.setMe_myTile (r : Strand) : (s.setMe r).myTile = s.myTile := rfl
@[simp] theorem State.setMe_mySlot (r : Strand) : (s.setMe r).mySlot = s.mySlot := rfl
@[simp] theorem State.setMe_dt (r : Strand) : (s.setMe r).dt = s.dt := rfl

/-- Another strand keeps its state. -/
theorem State.setMe_strand_ne {j : Nat} (r : Strand) (h : j ≠ s.cur) : (s.setMe r).strand j = s.strand j :=
  mapGet_mapPut_ne _ _ h

theorem State.setMe_me_of_wf (h : mapWf {} s.strands = true) (r : Strand) : (s.setMe r).me = r :=
  mapGet_mapPut_self h _ _

/-- A strand that has issued is listed. -/
theorem State.setMe_me {r : Strand} (h : r.issuedAt ≠ 0) : (s.setMe r).me = r :=
  mapGet_mapPut_self_of_ne _ _ fun e => h (by rw [e])

/-! `retire` -/

@[simp] theorem State.retire_cycle (r : Strand) (f : Fields) : (s.retire r f).cycle = s.cycle := rfl
@[simp] theorem State.retire_dt36 (r : Strand) (f : Fields) : (s.retire r f).dt36 = s.dt36 := rfl
@[simp] theorem State.retire_mhz (r : Strand) (f : Fields) : (s.retire r f).mhz = s.mhz := rfl
@[simp] theorem State.retire_throttles (r : Strand) (f : Fields) : (s.retire r f).throttles = s.throttles := rfl
@[simp] theorem State.retire_tiles (r : Strand) (f : Fields) : (s.retire r f).tiles = s.tiles := rfl
@[simp] theorem State.retire_clusters (r : Strand) (f : Fields) : (s.retire r f).clusters = s.clusters := rfl
@[simp] theorem State.retire_launches (r : Strand) (f : Fields) : (s.retire r f).launches = s.launches := rfl
@[simp] theorem State.retire_vfs (r : Strand) (f : Fields) : (s.retire r f).vfs = s.vfs := rfl
@[simp] theorem State.retire_served (r : Strand) (f : Fields) : (s.retire r f).served = s.served := rfl
@[simp] theorem State.retire_mem (r : Strand) (f : Fields) : (s.retire r f).mem = s.mem := rfl
@[simp] theorem State.retire_badWords (r : Strand) (f : Fields) : (s.retire r f).badWords = s.badWords := rfl
@[simp] theorem State.retire_banks (r : Strand) (f : Fields) : (s.retire r f).banks = s.banks := rfl
@[simp] theorem State.retire_retired (r : Strand) (f : Fields) : (s.retire r f).retired = s.retired := rfl
@[simp] theorem State.retire_pooled (r : Strand) (f : Fields) : (s.retire r f).pooled = s.pooled := rfl
@[simp] theorem State.retire_portB (r : Strand) (f : Fields) : (s.retire r f).portB = s.portB := rfl
@[simp] theorem State.retire_poolDown (r : Strand) (f : Fields) : (s.retire r f).poolDown = s.poolDown := rfl
@[simp] theorem State.retire_pooledBanks (r : Strand) (f : Fields) : (s.retire r f).pooledBanks = s.pooledBanks := rfl
@[simp] theorem State.retire_lostPool (r : Strand) (f : Fields) : (s.retire r f).lostPool = s.lostPool := rfl
@[simp] theorem State.retire_hostMem (r : Strand) (f : Fields) : (s.retire r f).hostMem = s.hostMem := rfl
@[simp] theorem State.retire_hostReads (r : Strand) (f : Fields) : (s.retire r f).hostReads = s.hostReads := rfl
@[simp] theorem State.retire_remote (r : Strand) (f : Fields) : (s.retire r f).remote = s.remote := rfl
@[simp] theorem State.retire_net (r : Strand) (f : Fields) : (s.retire r f).net = s.net := rfl
@[simp] theorem State.retire_acks (r : Strand) (f : Fields) : (s.retire r f).acks = s.acks := rfl
@[simp] theorem State.retire_links (r : Strand) (f : Fields) : (s.retire r f).links = s.links := rfl
@[simp] theorem State.retire_linkId (r : Strand) (f : Fields) : (s.retire r f).linkId = s.linkId := rfl
@[simp] theorem State.retire_trust (r : Strand) (f : Fields) : (s.retire r f).trust = s.trust := rfl
@[simp] theorem State.retire_arg (r : Strand) (f : Fields) : (s.retire r f).arg = s.arg := rfl
@[simp] theorem State.retire_agenda (r : Strand) (f : Fields) : (s.retire r f).agenda = s.agenda := rfl
@[simp] theorem State.retire_cur (r : Strand) (f : Fields) : (s.retire r f).cur = s.cur := rfl
@[simp] theorem State.retire_cursor (r : Strand) (f : Fields) : (s.retire r f).cursor = s.cursor := rfl
@[simp] theorem State.retire_fresh (r : Strand) (f : Fields) : (s.retire r f).fresh = s.fresh := rfl
@[simp] theorem State.retire_tile (r : Strand) (f : Fields) (j : Nat) : (s.retire r f).tile j = s.tile j := rfl
@[simp] theorem State.retire_cluster (r : Strand) (f : Fields) (j : Nat) : (s.retire r f).cluster j = s.cluster j := rfl
@[simp] theorem State.retire_launch (r : Strand) (f : Fields) (j : Nat) : (s.retire r f).launch j = s.launch j := rfl
@[simp] theorem State.retire_vf (r : Strand) (f : Fields) (j : Nat) : (s.retire r f).vf j = s.vf j := rfl
@[simp] theorem State.retire_link (r : Strand) (f : Fields) (j : Nat) : (s.retire r f).link j = s.link j := rfl

theorem State.retire_strand_ne (r : Strand) (f : Fields) {j : Nat} (h : j ≠ s.cur) : (s.retire r f).strand j = s.strand j :=
  mapGet_mapPut_ne _ _ h

/-! `retireTo` -/

@[simp] theorem State.retireTo_cycle (r : Strand) (pc : BitVec 32) : (s.retireTo r pc).cycle = s.cycle := rfl
@[simp] theorem State.retireTo_dt36 (r : Strand) (pc : BitVec 32) : (s.retireTo r pc).dt36 = s.dt36 := rfl
@[simp] theorem State.retireTo_mhz (r : Strand) (pc : BitVec 32) : (s.retireTo r pc).mhz = s.mhz := rfl
@[simp] theorem State.retireTo_throttles (r : Strand) (pc : BitVec 32) : (s.retireTo r pc).throttles = s.throttles := rfl
@[simp] theorem State.retireTo_tiles (r : Strand) (pc : BitVec 32) : (s.retireTo r pc).tiles = s.tiles := rfl
@[simp] theorem State.retireTo_clusters (r : Strand) (pc : BitVec 32) : (s.retireTo r pc).clusters = s.clusters := rfl
@[simp] theorem State.retireTo_launches (r : Strand) (pc : BitVec 32) : (s.retireTo r pc).launches = s.launches := rfl
@[simp] theorem State.retireTo_vfs (r : Strand) (pc : BitVec 32) : (s.retireTo r pc).vfs = s.vfs := rfl
@[simp] theorem State.retireTo_served (r : Strand) (pc : BitVec 32) : (s.retireTo r pc).served = s.served := rfl
@[simp] theorem State.retireTo_mem (r : Strand) (pc : BitVec 32) : (s.retireTo r pc).mem = s.mem := rfl
@[simp] theorem State.retireTo_badWords (r : Strand) (pc : BitVec 32) : (s.retireTo r pc).badWords = s.badWords := rfl
@[simp] theorem State.retireTo_banks (r : Strand) (pc : BitVec 32) : (s.retireTo r pc).banks = s.banks := rfl
@[simp] theorem State.retireTo_retired (r : Strand) (pc : BitVec 32) : (s.retireTo r pc).retired = s.retired := rfl
@[simp] theorem State.retireTo_pooled (r : Strand) (pc : BitVec 32) : (s.retireTo r pc).pooled = s.pooled := rfl
@[simp] theorem State.retireTo_portB (r : Strand) (pc : BitVec 32) : (s.retireTo r pc).portB = s.portB := rfl
@[simp] theorem State.retireTo_poolDown (r : Strand) (pc : BitVec 32) : (s.retireTo r pc).poolDown = s.poolDown := rfl
@[simp] theorem State.retireTo_pooledBanks (r : Strand) (pc : BitVec 32) : (s.retireTo r pc).pooledBanks = s.pooledBanks := rfl
@[simp] theorem State.retireTo_lostPool (r : Strand) (pc : BitVec 32) : (s.retireTo r pc).lostPool = s.lostPool := rfl
@[simp] theorem State.retireTo_hostMem (r : Strand) (pc : BitVec 32) : (s.retireTo r pc).hostMem = s.hostMem := rfl
@[simp] theorem State.retireTo_hostReads (r : Strand) (pc : BitVec 32) : (s.retireTo r pc).hostReads = s.hostReads := rfl
@[simp] theorem State.retireTo_remote (r : Strand) (pc : BitVec 32) : (s.retireTo r pc).remote = s.remote := rfl
@[simp] theorem State.retireTo_net (r : Strand) (pc : BitVec 32) : (s.retireTo r pc).net = s.net := rfl
@[simp] theorem State.retireTo_acks (r : Strand) (pc : BitVec 32) : (s.retireTo r pc).acks = s.acks := rfl
@[simp] theorem State.retireTo_links (r : Strand) (pc : BitVec 32) : (s.retireTo r pc).links = s.links := rfl
@[simp] theorem State.retireTo_linkId (r : Strand) (pc : BitVec 32) : (s.retireTo r pc).linkId = s.linkId := rfl
@[simp] theorem State.retireTo_trust (r : Strand) (pc : BitVec 32) : (s.retireTo r pc).trust = s.trust := rfl
@[simp] theorem State.retireTo_arg (r : Strand) (pc : BitVec 32) : (s.retireTo r pc).arg = s.arg := rfl
@[simp] theorem State.retireTo_agenda (r : Strand) (pc : BitVec 32) : (s.retireTo r pc).agenda = s.agenda := rfl
@[simp] theorem State.retireTo_cur (r : Strand) (pc : BitVec 32) : (s.retireTo r pc).cur = s.cur := rfl
@[simp] theorem State.retireTo_cursor (r : Strand) (pc : BitVec 32) : (s.retireTo r pc).cursor = s.cursor := rfl
@[simp] theorem State.retireTo_fresh (r : Strand) (pc : BitVec 32) : (s.retireTo r pc).fresh = s.fresh := rfl
@[simp] theorem State.retireTo_tile (r : Strand) (pc : BitVec 32) (j : Nat) : (s.retireTo r pc).tile j = s.tile j := rfl
@[simp] theorem State.retireTo_cluster (r : Strand) (pc : BitVec 32) (j : Nat) : (s.retireTo r pc).cluster j = s.cluster j := rfl
@[simp] theorem State.retireTo_launch (r : Strand) (pc : BitVec 32) (j : Nat) : (s.retireTo r pc).launch j = s.launch j := rfl
@[simp] theorem State.retireTo_vf (r : Strand) (pc : BitVec 32) (j : Nat) : (s.retireTo r pc).vf j = s.vf j := rfl
@[simp] theorem State.retireTo_link (r : Strand) (pc : BitVec 32) (j : Nat) : (s.retireTo r pc).link j = s.link j := rfl

theorem State.retireTo_strand_ne (r : Strand) (pc : BitVec 32) {j : Nat} (h : j ≠ s.cur) : (s.retireTo r pc).strand j = s.strand j :=
  mapGet_mapPut_ne _ _ h

/-- The strand at hand after an instruction that issues. -/
@[simp] theorem State.retire_me (r : Strand) (f : Fields) :
    (s.retire r f).me = { r with pc := nextPc r f, issuedAt := s.cycle + 1 } := s.setMe_me (Nat.succ_ne_zero _)

@[simp] theorem State.retireTo_me (r : Strand) (pc : BitVec 32) :
    (s.retireTo r pc).me = { r with pc := pc, issuedAt := s.cycle + 1 } := s.setMe_me (Nat.succ_ne_zero _)

/-! Messages and device memory. -/

@[simp] theorem State.sendMsg_cycle (m : Msg) : (s.sendMsg m).cycle = s.cycle := rfl
@[simp] theorem State.sendMsg_dt36 (m : Msg) : (s.sendMsg m).dt36 = s.dt36 := rfl
@[simp] theorem State.sendMsg_mhz (m : Msg) : (s.sendMsg m).mhz = s.mhz := rfl
@[simp] theorem State.sendMsg_throttles (m : Msg) : (s.sendMsg m).throttles = s.throttles := rfl
@[simp] theorem State.sendMsg_strands (m : Msg) : (s.sendMsg m).strands = s.strands := rfl
@[simp] theorem State.sendMsg_tiles (m : Msg) : (s.sendMsg m).tiles = s.tiles := rfl
@[simp] theorem State.sendMsg_clusters (m : Msg) : (s.sendMsg m).clusters = s.clusters := rfl
@[simp] theorem State.sendMsg_launches (m : Msg) : (s.sendMsg m).launches = s.launches := rfl
@[simp] theorem State.sendMsg_vfs (m : Msg) : (s.sendMsg m).vfs = s.vfs := rfl
@[simp] theorem State.sendMsg_served (m : Msg) : (s.sendMsg m).served = s.served := rfl
@[simp] theorem State.sendMsg_mem (m : Msg) : (s.sendMsg m).mem = s.mem := rfl
@[simp] theorem State.sendMsg_badWords (m : Msg) : (s.sendMsg m).badWords = s.badWords := rfl
@[simp] theorem State.sendMsg_banks (m : Msg) : (s.sendMsg m).banks = s.banks := rfl
@[simp] theorem State.sendMsg_retired (m : Msg) : (s.sendMsg m).retired = s.retired := rfl
@[simp] theorem State.sendMsg_pooled (m : Msg) : (s.sendMsg m).pooled = s.pooled := rfl
@[simp] theorem State.sendMsg_portB (m : Msg) : (s.sendMsg m).portB = s.portB := rfl
@[simp] theorem State.sendMsg_poolDown (m : Msg) : (s.sendMsg m).poolDown = s.poolDown := rfl
@[simp] theorem State.sendMsg_pooledBanks (m : Msg) : (s.sendMsg m).pooledBanks = s.pooledBanks := rfl
@[simp] theorem State.sendMsg_lostPool (m : Msg) : (s.sendMsg m).lostPool = s.lostPool := rfl
@[simp] theorem State.sendMsg_hostMem (m : Msg) : (s.sendMsg m).hostMem = s.hostMem := rfl
@[simp] theorem State.sendMsg_hostReads (m : Msg) : (s.sendMsg m).hostReads = s.hostReads := rfl
@[simp] theorem State.sendMsg_remote (m : Msg) : (s.sendMsg m).remote = s.remote := rfl
@[simp] theorem State.sendMsg_acks (m : Msg) : (s.sendMsg m).acks = s.acks := rfl
@[simp] theorem State.sendMsg_links (m : Msg) : (s.sendMsg m).links = s.links := rfl
@[simp] theorem State.sendMsg_linkId (m : Msg) : (s.sendMsg m).linkId = s.linkId := rfl
@[simp] theorem State.sendMsg_trust (m : Msg) : (s.sendMsg m).trust = s.trust := rfl
@[simp] theorem State.sendMsg_arg (m : Msg) : (s.sendMsg m).arg = s.arg := rfl
@[simp] theorem State.sendMsg_agenda (m : Msg) : (s.sendMsg m).agenda = s.agenda := rfl
@[simp] theorem State.sendMsg_cur (m : Msg) : (s.sendMsg m).cur = s.cur := rfl
@[simp] theorem State.sendMsg_cursor (m : Msg) : (s.sendMsg m).cursor = s.cursor := rfl

@[simp] theorem State.writeDevice_cycle (a : Nat) (bs : List Byte) : (s.writeDevice a bs).cycle = s.cycle := rfl
@[simp] theorem State.writeDevice_dt36 (a : Nat) (bs : List Byte) : (s.writeDevice a bs).dt36 = s.dt36 := rfl
@[simp] theorem State.writeDevice_mhz (a : Nat) (bs : List Byte) : (s.writeDevice a bs).mhz = s.mhz := rfl
@[simp] theorem State.writeDevice_throttles (a : Nat) (bs : List Byte) : (s.writeDevice a bs).throttles = s.throttles := rfl
@[simp] theorem State.writeDevice_strands (a : Nat) (bs : List Byte) : (s.writeDevice a bs).strands = s.strands := rfl
@[simp] theorem State.writeDevice_tiles (a : Nat) (bs : List Byte) : (s.writeDevice a bs).tiles = s.tiles := rfl
@[simp] theorem State.writeDevice_clusters (a : Nat) (bs : List Byte) : (s.writeDevice a bs).clusters = s.clusters := rfl
@[simp] theorem State.writeDevice_launches (a : Nat) (bs : List Byte) : (s.writeDevice a bs).launches = s.launches := rfl
@[simp] theorem State.writeDevice_vfs (a : Nat) (bs : List Byte) : (s.writeDevice a bs).vfs = s.vfs := rfl
@[simp] theorem State.writeDevice_served (a : Nat) (bs : List Byte) : (s.writeDevice a bs).served = s.served := rfl
@[simp] theorem State.writeDevice_retired (a : Nat) (bs : List Byte) : (s.writeDevice a bs).retired = s.retired := rfl
@[simp] theorem State.writeDevice_pooled (a : Nat) (bs : List Byte) : (s.writeDevice a bs).pooled = s.pooled := rfl
@[simp] theorem State.writeDevice_portB (a : Nat) (bs : List Byte) : (s.writeDevice a bs).portB = s.portB := rfl
@[simp] theorem State.writeDevice_poolDown (a : Nat) (bs : List Byte) : (s.writeDevice a bs).poolDown = s.poolDown := rfl
@[simp] theorem State.writeDevice_pooledBanks (a : Nat) (bs : List Byte) : (s.writeDevice a bs).pooledBanks = s.pooledBanks := rfl
@[simp] theorem State.writeDevice_lostPool (a : Nat) (bs : List Byte) : (s.writeDevice a bs).lostPool = s.lostPool := rfl
@[simp] theorem State.writeDevice_hostMem (a : Nat) (bs : List Byte) : (s.writeDevice a bs).hostMem = s.hostMem := rfl
@[simp] theorem State.writeDevice_hostReads (a : Nat) (bs : List Byte) : (s.writeDevice a bs).hostReads = s.hostReads := rfl
@[simp] theorem State.writeDevice_remote (a : Nat) (bs : List Byte) : (s.writeDevice a bs).remote = s.remote := rfl
@[simp] theorem State.writeDevice_net (a : Nat) (bs : List Byte) : (s.writeDevice a bs).net = s.net := rfl
@[simp] theorem State.writeDevice_acks (a : Nat) (bs : List Byte) : (s.writeDevice a bs).acks = s.acks := rfl
@[simp] theorem State.writeDevice_links (a : Nat) (bs : List Byte) : (s.writeDevice a bs).links = s.links := rfl
@[simp] theorem State.writeDevice_linkId (a : Nat) (bs : List Byte) : (s.writeDevice a bs).linkId = s.linkId := rfl
@[simp] theorem State.writeDevice_trust (a : Nat) (bs : List Byte) : (s.writeDevice a bs).trust = s.trust := rfl
@[simp] theorem State.writeDevice_arg (a : Nat) (bs : List Byte) : (s.writeDevice a bs).arg = s.arg := rfl
@[simp] theorem State.writeDevice_agenda (a : Nat) (bs : List Byte) : (s.writeDevice a bs).agenda = s.agenda := rfl
@[simp] theorem State.writeDevice_cur (a : Nat) (bs : List Byte) : (s.writeDevice a bs).cur = s.cur := rfl
@[simp] theorem State.writeDevice_cursor (a : Nat) (bs : List Byte) : (s.writeDevice a bs).cursor = s.cursor := rfl
@[simp] theorem State.writeDevice_fresh (a : Nat) (bs : List Byte) : (s.writeDevice a bs).fresh = s.fresh := rfl
@[simp] theorem State.putDevice_cycle (a : Nat) (bs : List Byte) : (s.putDevice a bs).cycle = s.cycle := rfl
@[simp] theorem State.putDevice_dt36 (a : Nat) (bs : List Byte) : (s.putDevice a bs).dt36 = s.dt36 := rfl
@[simp] theorem State.putDevice_mhz (a : Nat) (bs : List Byte) : (s.putDevice a bs).mhz = s.mhz := rfl
@[simp] theorem State.putDevice_throttles (a : Nat) (bs : List Byte) : (s.putDevice a bs).throttles = s.throttles := rfl
@[simp] theorem State.putDevice_strands (a : Nat) (bs : List Byte) : (s.putDevice a bs).strands = s.strands := rfl
@[simp] theorem State.putDevice_tiles (a : Nat) (bs : List Byte) : (s.putDevice a bs).tiles = s.tiles := rfl
@[simp] theorem State.putDevice_clusters (a : Nat) (bs : List Byte) : (s.putDevice a bs).clusters = s.clusters := rfl
@[simp] theorem State.putDevice_launches (a : Nat) (bs : List Byte) : (s.putDevice a bs).launches = s.launches := rfl
@[simp] theorem State.putDevice_vfs (a : Nat) (bs : List Byte) : (s.putDevice a bs).vfs = s.vfs := rfl
@[simp] theorem State.putDevice_served (a : Nat) (bs : List Byte) : (s.putDevice a bs).served = s.served := rfl
@[simp] theorem State.putDevice_retired (a : Nat) (bs : List Byte) : (s.putDevice a bs).retired = s.retired := rfl
@[simp] theorem State.putDevice_pooled (a : Nat) (bs : List Byte) : (s.putDevice a bs).pooled = s.pooled := rfl
@[simp] theorem State.putDevice_portB (a : Nat) (bs : List Byte) : (s.putDevice a bs).portB = s.portB := rfl
@[simp] theorem State.putDevice_poolDown (a : Nat) (bs : List Byte) : (s.putDevice a bs).poolDown = s.poolDown := rfl
@[simp] theorem State.putDevice_pooledBanks (a : Nat) (bs : List Byte) : (s.putDevice a bs).pooledBanks = s.pooledBanks := rfl
@[simp] theorem State.putDevice_lostPool (a : Nat) (bs : List Byte) : (s.putDevice a bs).lostPool = s.lostPool := rfl
@[simp] theorem State.putDevice_hostMem (a : Nat) (bs : List Byte) : (s.putDevice a bs).hostMem = s.hostMem := rfl
@[simp] theorem State.putDevice_hostReads (a : Nat) (bs : List Byte) : (s.putDevice a bs).hostReads = s.hostReads := rfl
@[simp] theorem State.putDevice_remote (a : Nat) (bs : List Byte) : (s.putDevice a bs).remote = s.remote := rfl
@[simp] theorem State.putDevice_net (a : Nat) (bs : List Byte) : (s.putDevice a bs).net = s.net := rfl
@[simp] theorem State.putDevice_acks (a : Nat) (bs : List Byte) : (s.putDevice a bs).acks = s.acks := rfl
@[simp] theorem State.putDevice_links (a : Nat) (bs : List Byte) : (s.putDevice a bs).links = s.links := rfl
@[simp] theorem State.putDevice_linkId (a : Nat) (bs : List Byte) : (s.putDevice a bs).linkId = s.linkId := rfl
@[simp] theorem State.putDevice_trust (a : Nat) (bs : List Byte) : (s.putDevice a bs).trust = s.trust := rfl
@[simp] theorem State.putDevice_arg (a : Nat) (bs : List Byte) : (s.putDevice a bs).arg = s.arg := rfl
@[simp] theorem State.putDevice_agenda (a : Nat) (bs : List Byte) : (s.putDevice a bs).agenda = s.agenda := rfl
@[simp] theorem State.putDevice_cur (a : Nat) (bs : List Byte) : (s.putDevice a bs).cur = s.cur := rfl
@[simp] theorem State.putDevice_cursor (a : Nat) (bs : List Byte) : (s.putDevice a bs).cursor = s.cursor := rfl
@[simp] theorem State.putDevice_fresh (a : Nat) (bs : List Byte) : (s.putDevice a bs).fresh = s.fresh := rfl
theorem State.writeDevice_serving {a : Nat} (bs : List Byte) (h : s.lostChannel a = false) : s.writeDevice a bs = s.putDevice a bs := by
  simp [State.writeDevice, State.putDevice, h]

@[simp] theorem State.dropMessage_cycle (id : Nat) : (s.dropMessage id).cycle = s.cycle := rfl
@[simp] theorem State.dropMessage_dt36 (id : Nat) : (s.dropMessage id).dt36 = s.dt36 := rfl
@[simp] theorem State.dropMessage_mhz (id : Nat) : (s.dropMessage id).mhz = s.mhz := rfl
@[simp] theorem State.dropMessage_throttles (id : Nat) : (s.dropMessage id).throttles = s.throttles := rfl
@[simp] theorem State.dropMessage_strands (id : Nat) : (s.dropMessage id).strands = s.strands := rfl
@[simp] theorem State.dropMessage_tiles (id : Nat) : (s.dropMessage id).tiles = s.tiles := rfl
@[simp] theorem State.dropMessage_clusters (id : Nat) : (s.dropMessage id).clusters = s.clusters := rfl
@[simp] theorem State.dropMessage_launches (id : Nat) : (s.dropMessage id).launches = s.launches := rfl
@[simp] theorem State.dropMessage_vfs (id : Nat) : (s.dropMessage id).vfs = s.vfs := rfl
@[simp] theorem State.dropMessage_served (id : Nat) : (s.dropMessage id).served = s.served := rfl
@[simp] theorem State.dropMessage_mem (id : Nat) : (s.dropMessage id).mem = s.mem := rfl
@[simp] theorem State.dropMessage_badWords (id : Nat) : (s.dropMessage id).badWords = s.badWords := rfl
@[simp] theorem State.dropMessage_banks (id : Nat) : (s.dropMessage id).banks = s.banks := rfl
@[simp] theorem State.dropMessage_retired (id : Nat) : (s.dropMessage id).retired = s.retired := rfl
@[simp] theorem State.dropMessage_pooled (id : Nat) : (s.dropMessage id).pooled = s.pooled := rfl
@[simp] theorem State.dropMessage_portB (id : Nat) : (s.dropMessage id).portB = s.portB := rfl
@[simp] theorem State.dropMessage_poolDown (id : Nat) : (s.dropMessage id).poolDown = s.poolDown := rfl
@[simp] theorem State.dropMessage_pooledBanks (id : Nat) : (s.dropMessage id).pooledBanks = s.pooledBanks := rfl
@[simp] theorem State.dropMessage_lostPool (id : Nat) : (s.dropMessage id).lostPool = s.lostPool := rfl
@[simp] theorem State.dropMessage_hostMem (id : Nat) : (s.dropMessage id).hostMem = s.hostMem := rfl
@[simp] theorem State.dropMessage_hostReads (id : Nat) : (s.dropMessage id).hostReads = s.hostReads := rfl
@[simp] theorem State.dropMessage_remote (id : Nat) : (s.dropMessage id).remote = s.remote := rfl
@[simp] theorem State.dropMessage_acks (id : Nat) : (s.dropMessage id).acks = s.acks := rfl
@[simp] theorem State.dropMessage_links (id : Nat) : (s.dropMessage id).links = s.links := rfl
@[simp] theorem State.dropMessage_linkId (id : Nat) : (s.dropMessage id).linkId = s.linkId := rfl
@[simp] theorem State.dropMessage_trust (id : Nat) : (s.dropMessage id).trust = s.trust := rfl
@[simp] theorem State.dropMessage_arg (id : Nat) : (s.dropMessage id).arg = s.arg := rfl
@[simp] theorem State.dropMessage_agenda (id : Nat) : (s.dropMessage id).agenda = s.agenda := rfl
@[simp] theorem State.dropMessage_cur (id : Nat) : (s.dropMessage id).cur = s.cur := rfl
@[simp] theorem State.dropMessage_cursor (id : Nat) : (s.dropMessage id).cursor = s.cursor := rfl
@[simp] theorem State.dropMessage_fresh (id : Nat) : (s.dropMessage id).fresh = s.fresh := rfl

/-! Registers of a strand. -/

variable (r : Strand)

theorem readX_writeX_ne {n m : Nat} (v : Word) (h : m ≠ n) : readX (writeX r n v) m = readX r m := by
  by_cases hn : n = 0
  · simp [writeX, hn]
  · simp [writeX, hn, readX, mapGet_mapPut_ne _ _ h]

@[simp] theorem readX_zero : readX r 0 = 0 := rfl

theorem readX_writeX (h : mapWf 0 r.x = true) (n m : Nat) (v : Word) :
    readX (writeX r n v) m = if m = n ∧ n ≠ 0 then v else readX r m := by
  by_cases hm : m = n
  · subst hm
    by_cases hn : m = 0
    · simp [hn]
    · simpa [writeX, readX, hn] using mapGet_mapPut_self h m v
  · simp [hm, readX_writeX_ne r v hm]

theorem readK_writeK_ne {n m : Nat} (v : Word) (h : m ≠ n) : readK (writeK r n v) m = readK r m := by
  by_cases hn : n = 0
  · simp [writeK, hn]
  · simp [writeK, hn, readK, mapGet_mapPut_ne _ _ h]

theorem readK_writeK (h : mapWf 0 r.k = true) (n m : Nat) (v : Word) :
    readK (writeK r n v) m = if m = n ∧ n ≠ 0 then v else readK r m := by
  by_cases hm : m = n
  · subst hm
    by_cases hn : m = 0
    · simp [hn, writeK]
    · simpa [writeK, readK, hn] using mapGet_mapPut_self h m v
  · simp [hm, readK_writeK_ne r v hm]

theorem readV_writeV (h : mapWf 0 r.v = true) (n m : Nat) (v : VReg) :
    readV (writeV r n v) m = if m = n then v else readV r m := mapGet_mapPut h n m v

theorem readW_writeW (h : mapWf 0 r.w = true) (n m : Nat) (v : BitVec 16) :
    readW (writeW r n v) m = if m = n then v else readW r m := mapGet_mapPut h n m v

/-- A write to a register changes `x` alone. -/
theorem writeX_eq (n : Nat) (v : Word) : writeX r n v = { r with x := (writeX r n v).x } := by
  by_cases hn : n = 0 <;> simp [writeX, hn]

theorem writeX_wf (h : mapWf 0 r.x = true) (n : Nat) (v : Word) : mapWf 0 (writeX r n v).x = true := by
  by_cases hn : n = 0
  · simpa [writeX, hn] using h
  · simpa [writeX, hn] using mapWf_mapPut h n v

theorem writeK_eq (n : Nat) (v : Word) : writeK r n v = { r with k := (writeK r n v).k } := by
  by_cases hn : n = 0 <;> simp [writeK, hn]

theorem writeK_wf (h : mapWf 0 r.k = true) (n : Nat) (v : Word) : mapWf 0 (writeK r n v).k = true := by
  by_cases hn : n = 0
  · simpa [writeK, hn] using h
  · simpa [writeK, hn] using mapWf_mapPut h n v

/-! `writeX` -/

@[simp] theorem writeX_run (n : Nat) (v : Word) : (writeX r n v).run = r.run := by
  by_cases h : n = 0 <;> simp [writeX, h]
@[simp] theorem writeX_pc (n : Nat) (v : Word) : (writeX r n v).pc = r.pc := by
  by_cases h : n = 0 <;> simp [writeX, h]
@[simp] theorem writeX_v (n : Nat) (v : Word) : (writeX r n v).v = r.v := by
  by_cases h : n = 0 <;> simp [writeX, h]
@[simp] theorem writeX_k (n : Nat) (v : Word) : (writeX r n v).k = r.k := by
  by_cases h : n = 0 <;> simp [writeX, h]
@[simp] theorem writeX_w (n : Nat) (v : Word) : (writeX r n v).w = r.w := by
  by_cases h : n = 0 <;> simp [writeX, h]
@[simp] theorem writeX_la (n : Nat) (v : Word) : (writeX r n v).la = r.la := by
  by_cases h : n = 0 <;> simp [writeX, h]
@[simp] theorem writeX_laCarry (n : Nat) (v : Word) : (writeX r n v).laCarry = r.laCarry := by
  by_cases h : n = 0 <;> simp [writeX, h]
@[simp] theorem writeX_status (n : Nat) (v : Word) : (writeX r n v).status = r.status := by
  by_cases h : n = 0 <;> simp [writeX, h]
@[simp] theorem writeX_seed (n : Nat) (v : Word) : (writeX r n v).seed = r.seed := by
  by_cases h : n = 0 <;> simp [writeX, h]
@[simp] theorem writeX_srcnt (n : Nat) (v : Word) : (writeX r n v).srcnt = r.srcnt := by
  by_cases h : n = 0 <;> simp [writeX, h]
@[simp] theorem writeX_ovh (n : Nat) (v : Word) : (writeX r n v).ovh = r.ovh := by
  by_cases h : n = 0 <;> simp [writeX, h]
@[simp] theorem writeX_tvb (n : Nat) (v : Word) : (writeX r n v).tvb = r.tvb := by
  by_cases h : n = 0 <;> simp [writeX, h]
@[simp] theorem writeX_epc (n : Nat) (v : Word) : (writeX r n v).epc = r.epc := by
  by_cases h : n = 0 <;> simp [writeX, h]
@[simp] theorem writeX_cause (n : Nat) (v : Word) : (writeX r n v).cause = r.cause := by
  by_cases h : n = 0 <;> simp [writeX, h]
@[simp] theorem writeX_badaddr (n : Nat) (v : Word) : (writeX r n v).badaddr = r.badaddr := by
  by_cases h : n = 0 <;> simp [writeX, h]
@[simp] theorem writeX_tbr (n : Nat) (v : Word) : (writeX r n v).tbr = r.tbr := by
  by_cases h : n = 0 <;> simp [writeX, h]
@[simp] theorem writeX_depth (n : Nat) (v : Word) : (writeX r n v).depth = r.depth := by
  by_cases h : n = 0 <;> simp [writeX, h]
@[simp] theorem writeX_hp (n : Nat) (v : Word) : (writeX r n v).hp = r.hp := by
  by_cases h : n = 0 <;> simp [writeX, h]
@[simp] theorem writeX_esc (n : Nat) (v : Word) : (writeX r n v).esc = r.esc := by
  by_cases h : n = 0 <;> simp [writeX, h]
@[simp] theorem writeX_thr (n : Nat) (v : Word) : (writeX r n v).thr = r.thr := by
  by_cases h : n = 0 <;> simp [writeX, h]
@[simp] theorem writeX_spans (n : Nat) (v : Word) : (writeX r n v).spans = r.spans := by
  by_cases h : n = 0 <;> simp [writeX, h]
@[simp] theorem writeX_tlc (n : Nat) (v : Word) : (writeX r n v).tlc = r.tlc := by
  by_cases h : n = 0 <;> simp [writeX, h]
@[simp] theorem writeX_tlm (n : Nat) (v : Word) : (writeX r n v).tlm = r.tlm := by
  by_cases h : n = 0 <;> simp [writeX, h]
@[simp] theorem writeX_tle (n : Nat) (v : Word) : (writeX r n v).tle = r.tle := by
  by_cases h : n = 0 <;> simp [writeX, h]
@[simp] theorem writeX_tlg (n : Nat) (v : Word) : (writeX r n v).tlg = r.tlg := by
  by_cases h : n = 0 <;> simp [writeX, h]
@[simp] theorem writeX_ports (n : Nat) (v : Word) : (writeX r n v).ports = r.ports := by
  by_cases h : n = 0 <;> simp [writeX, h]
@[simp] theorem writeX_drains (n : Nat) (v : Word) : (writeX r n v).drains = r.drains := by
  by_cases h : n = 0 <;> simp [writeX, h]
@[simp] theorem writeX_drainBad (n : Nat) (v : Word) : (writeX r n v).drainBad = r.drainBad := by
  by_cases h : n = 0 <;> simp [writeX, h]
@[simp] theorem writeX_longs (n : Nat) (v : Word) : (writeX r n v).longs = r.longs := by
  by_cases h : n = 0 <;> simp [writeX, h]
@[simp] theorem writeX_posted (n : Nat) (v : Word) : (writeX r n v).posted = r.posted := by
  by_cases h : n = 0 <;> simp [writeX, h]
@[simp] theorem writeX_fence (n : Nat) (v : Word) : (writeX r n v).fence = r.fence := by
  by_cases h : n = 0 <;> simp [writeX, h]
@[simp] theorem writeX_hyIssue (n : Nat) (v : Word) : (writeX r n v).hyIssue = r.hyIssue := by
  by_cases h : n = 0 <;> simp [writeX, h]
@[simp] theorem writeX_waitAt (n : Nat) (v : Word) : (writeX r n v).waitAt = r.waitAt := by
  by_cases h : n = 0 <;> simp [writeX, h]
@[simp] theorem writeX_task (n : Nat) (v : Word) : (writeX r n v).task = r.task := by
  by_cases h : n = 0 <;> simp [writeX, h]
@[simp] theorem writeX_copies (n : Nat) (v : Word) : (writeX r n v).copies = r.copies := by
  by_cases h : n = 0 <;> simp [writeX, h]
@[simp] theorem writeX_walk (n : Nat) (v : Word) : (writeX r n v).walk = r.walk := by
  by_cases h : n = 0 <;> simp [writeX, h]
@[simp] theorem writeX_broken (n : Nat) (v : Word) : (writeX r n v).broken = r.broken := by
  by_cases h : n = 0 <;> simp [writeX, h]
@[simp] theorem writeX_issuedAt (n : Nat) (v : Word) : (writeX r n v).issuedAt = r.issuedAt := by
  by_cases h : n = 0 <;> simp [writeX, h]
@[simp] theorem writeX_startedAt (n : Nat) (v : Word) : (writeX r n v).startedAt = r.startedAt := by
  by_cases h : n = 0 <;> simp [writeX, h]
@[simp] theorem writeX_hyKey (n : Nat) (v : Word) : (writeX r n v).hyKey = r.hyKey := by
  by_cases h : n = 0 <;> simp [writeX, h]
@[simp] theorem writeX_hyPassed (n : Nat) (v : Word) : (writeX r n v).hyPassed = r.hyPassed := by
  by_cases h : n = 0 <;> simp [writeX, h]
@[simp] theorem writeX_fenceAt (n : Nat) (v : Word) : (writeX r n v).fenceAt = r.fenceAt := by
  by_cases h : n = 0 <;> simp [writeX, h]

/-! `writeK` -/

@[simp] theorem writeK_run (n : Nat) (v : Word) : (writeK r n v).run = r.run := by
  by_cases h : n = 0 <;> simp [writeK, h]
@[simp] theorem writeK_pc (n : Nat) (v : Word) : (writeK r n v).pc = r.pc := by
  by_cases h : n = 0 <;> simp [writeK, h]
@[simp] theorem writeK_x (n : Nat) (v : Word) : (writeK r n v).x = r.x := by
  by_cases h : n = 0 <;> simp [writeK, h]
@[simp] theorem writeK_v (n : Nat) (v : Word) : (writeK r n v).v = r.v := by
  by_cases h : n = 0 <;> simp [writeK, h]
@[simp] theorem writeK_w (n : Nat) (v : Word) : (writeK r n v).w = r.w := by
  by_cases h : n = 0 <;> simp [writeK, h]
@[simp] theorem writeK_la (n : Nat) (v : Word) : (writeK r n v).la = r.la := by
  by_cases h : n = 0 <;> simp [writeK, h]
@[simp] theorem writeK_laCarry (n : Nat) (v : Word) : (writeK r n v).laCarry = r.laCarry := by
  by_cases h : n = 0 <;> simp [writeK, h]
@[simp] theorem writeK_status (n : Nat) (v : Word) : (writeK r n v).status = r.status := by
  by_cases h : n = 0 <;> simp [writeK, h]
@[simp] theorem writeK_seed (n : Nat) (v : Word) : (writeK r n v).seed = r.seed := by
  by_cases h : n = 0 <;> simp [writeK, h]
@[simp] theorem writeK_srcnt (n : Nat) (v : Word) : (writeK r n v).srcnt = r.srcnt := by
  by_cases h : n = 0 <;> simp [writeK, h]
@[simp] theorem writeK_ovh (n : Nat) (v : Word) : (writeK r n v).ovh = r.ovh := by
  by_cases h : n = 0 <;> simp [writeK, h]
@[simp] theorem writeK_tvb (n : Nat) (v : Word) : (writeK r n v).tvb = r.tvb := by
  by_cases h : n = 0 <;> simp [writeK, h]
@[simp] theorem writeK_epc (n : Nat) (v : Word) : (writeK r n v).epc = r.epc := by
  by_cases h : n = 0 <;> simp [writeK, h]
@[simp] theorem writeK_cause (n : Nat) (v : Word) : (writeK r n v).cause = r.cause := by
  by_cases h : n = 0 <;> simp [writeK, h]
@[simp] theorem writeK_badaddr (n : Nat) (v : Word) : (writeK r n v).badaddr = r.badaddr := by
  by_cases h : n = 0 <;> simp [writeK, h]
@[simp] theorem writeK_tbr (n : Nat) (v : Word) : (writeK r n v).tbr = r.tbr := by
  by_cases h : n = 0 <;> simp [writeK, h]
@[simp] theorem writeK_depth (n : Nat) (v : Word) : (writeK r n v).depth = r.depth := by
  by_cases h : n = 0 <;> simp [writeK, h]
@[simp] theorem writeK_hp (n : Nat) (v : Word) : (writeK r n v).hp = r.hp := by
  by_cases h : n = 0 <;> simp [writeK, h]
@[simp] theorem writeK_esc (n : Nat) (v : Word) : (writeK r n v).esc = r.esc := by
  by_cases h : n = 0 <;> simp [writeK, h]
@[simp] theorem writeK_thr (n : Nat) (v : Word) : (writeK r n v).thr = r.thr := by
  by_cases h : n = 0 <;> simp [writeK, h]
@[simp] theorem writeK_spans (n : Nat) (v : Word) : (writeK r n v).spans = r.spans := by
  by_cases h : n = 0 <;> simp [writeK, h]
@[simp] theorem writeK_tlc (n : Nat) (v : Word) : (writeK r n v).tlc = r.tlc := by
  by_cases h : n = 0 <;> simp [writeK, h]
@[simp] theorem writeK_tlm (n : Nat) (v : Word) : (writeK r n v).tlm = r.tlm := by
  by_cases h : n = 0 <;> simp [writeK, h]
@[simp] theorem writeK_tle (n : Nat) (v : Word) : (writeK r n v).tle = r.tle := by
  by_cases h : n = 0 <;> simp [writeK, h]
@[simp] theorem writeK_tlg (n : Nat) (v : Word) : (writeK r n v).tlg = r.tlg := by
  by_cases h : n = 0 <;> simp [writeK, h]
@[simp] theorem writeK_ports (n : Nat) (v : Word) : (writeK r n v).ports = r.ports := by
  by_cases h : n = 0 <;> simp [writeK, h]
@[simp] theorem writeK_drains (n : Nat) (v : Word) : (writeK r n v).drains = r.drains := by
  by_cases h : n = 0 <;> simp [writeK, h]
@[simp] theorem writeK_drainBad (n : Nat) (v : Word) : (writeK r n v).drainBad = r.drainBad := by
  by_cases h : n = 0 <;> simp [writeK, h]
@[simp] theorem writeK_longs (n : Nat) (v : Word) : (writeK r n v).longs = r.longs := by
  by_cases h : n = 0 <;> simp [writeK, h]
@[simp] theorem writeK_posted (n : Nat) (v : Word) : (writeK r n v).posted = r.posted := by
  by_cases h : n = 0 <;> simp [writeK, h]
@[simp] theorem writeK_fence (n : Nat) (v : Word) : (writeK r n v).fence = r.fence := by
  by_cases h : n = 0 <;> simp [writeK, h]
@[simp] theorem writeK_hyIssue (n : Nat) (v : Word) : (writeK r n v).hyIssue = r.hyIssue := by
  by_cases h : n = 0 <;> simp [writeK, h]
@[simp] theorem writeK_waitAt (n : Nat) (v : Word) : (writeK r n v).waitAt = r.waitAt := by
  by_cases h : n = 0 <;> simp [writeK, h]
@[simp] theorem writeK_task (n : Nat) (v : Word) : (writeK r n v).task = r.task := by
  by_cases h : n = 0 <;> simp [writeK, h]
@[simp] theorem writeK_copies (n : Nat) (v : Word) : (writeK r n v).copies = r.copies := by
  by_cases h : n = 0 <;> simp [writeK, h]
@[simp] theorem writeK_walk (n : Nat) (v : Word) : (writeK r n v).walk = r.walk := by
  by_cases h : n = 0 <;> simp [writeK, h]
@[simp] theorem writeK_broken (n : Nat) (v : Word) : (writeK r n v).broken = r.broken := by
  by_cases h : n = 0 <;> simp [writeK, h]
@[simp] theorem writeK_issuedAt (n : Nat) (v : Word) : (writeK r n v).issuedAt = r.issuedAt := by
  by_cases h : n = 0 <;> simp [writeK, h]
@[simp] theorem writeK_startedAt (n : Nat) (v : Word) : (writeK r n v).startedAt = r.startedAt := by
  by_cases h : n = 0 <;> simp [writeK, h]
@[simp] theorem writeK_hyKey (n : Nat) (v : Word) : (writeK r n v).hyKey = r.hyKey := by
  by_cases h : n = 0 <;> simp [writeK, h]
@[simp] theorem writeK_hyPassed (n : Nat) (v : Word) : (writeK r n v).hyPassed = r.hyPassed := by
  by_cases h : n = 0 <;> simp [writeK, h]
@[simp] theorem writeK_fenceAt (n : Nat) (v : Word) : (writeK r n v).fenceAt = r.fenceAt := by
  by_cases h : n = 0 <;> simp [writeK, h]

end Sys2Proof.Machine
end

