-- ==== Sys2Proof/Laws/Agents.lean ====
section
/-! SUPPORT. What the shared operations of homes, save areas, links and commands can do, each said once. -/

namespace Sys2Proof.Machine

variable (s : State)

/-! Save areas and spill queues (R323, R324). -/

@[simp] theorem State.replaceDevice_strands (base n : Nat) (cells : Memory) : (s.replaceDevice base n cells).strands = s.strands := rfl
@[simp] theorem State.replaceDevice_tiles (base n : Nat) (cells : Memory) : (s.replaceDevice base n cells).tiles = s.tiles := rfl
@[simp] theorem State.replaceDevice_net (base n : Nat) (cells : Memory) : (s.replaceDevice base n cells).net = s.net := rfl
@[simp] theorem State.replaceDevice_vfs (base n : Nat) (cells : Memory) : (s.replaceDevice base n cells).vfs = s.vfs := rfl
@[simp] theorem State.replaceDevice_clusters (base n : Nat) (cells : Memory) : (s.replaceDevice base n cells).clusters = s.clusters := rfl
@[simp] theorem State.writeSaveArea_strands (tile : Nat) : (s.writeSaveArea tile).strands = s.strands := s.replaceDevice_strands _ _ _
@[simp] theorem State.writeSaveArea_tiles (tile : Nat) : (s.writeSaveArea tile).tiles = s.tiles := s.replaceDevice_tiles _ _ _
@[simp] theorem State.writeSaveArea_net (tile : Nat) : (s.writeSaveArea tile).net = s.net := s.replaceDevice_net _ _ _
@[simp] theorem State.writeSaveArea_vfs (tile : Nat) : (s.writeSaveArea tile).vfs = s.vfs := s.replaceDevice_vfs _ _ _
@[simp] theorem State.writeSaveArea_clusters (tile : Nat) : (s.writeSaveArea tile).clusters = s.clusters := s.replaceDevice_clusters _ _ _

/-- A full spill queue leaves the message where it is. -/
theorem State.divert_full {tile : Nat} (m : Spilled) (gone : State → State) (h : s.spillFull tile = true) : s.divert tile m gone = s := by
  simp [State.divert, h]

/-- With room the message joins the tile's queue. -/
theorem State.divert_room {tile : Nat} (m : Spilled) (gone : State → State) (h : s.spillFull tile = false) :
    s.divert tile m gone = ((gone s).setTile tile { (gone s).tile tile with spill := ((gone s).tile tile).spill ++ [m] }).writeDevice
      (s.saveBase tile + saveSpill + 320 * (s.tile tile).spill.length) (s.spillImage tile m) := by
  simp [State.divert, h]

/-! The order of a home's service (R160, R222). -/

@[simp] theorem State.markPassed_strands (h : Home) (src : Nat) (late : List Nat) : (s.markPassed h src late).strands = s.strands := rfl
@[simp] theorem State.markPassed_tiles (h : Home) (src : Nat) (late : List Nat) : (s.markPassed h src late).tiles = s.tiles := rfl
@[simp] theorem State.markPassed_mem (h : Home) (src : Nat) (late : List Nat) : (s.markPassed h src late).mem = s.mem := rfl
@[simp] theorem State.markPassed_launches (h : Home) (src : Nat) (late : List Nat) : (s.markPassed h src late).launches = s.launches := rfl
@[simp] theorem State.markPassed_length (h : Home) (src : Nat) (late : List Nat) : (s.markPassed h src late).net.length = s.net.length := by simp [State.markPassed]

/-- A request that enters no port now, and that its home may not serve yet, stays where it is. -/
theorem execHomeRequestService_held {m : Msg} (hm : s.message s.arg.message = some m) (hp : s.entersPort m = none) (h : s.mayServe m = false) :
    execHomeRequestService s = .next s := by
  simp [execHomeRequestService, hm, hp, h]

/-- R338, R339: a message to another device enters its port before its device receives it. -/
theorem execHomeRequestService_enters {m : Msg} (hm : s.message s.arg.message = some m) (hp : (s.entersPort m).isSome = true) :
    execHomeRequestService s = .next (s.sendOut m) := by
  simp [execHomeRequestService, hm, hp]

/-- A message of this device enters no port. -/
theorem State.entersPort_of_local {m : Msg} (h : m.home.isFabric = false) : s.entersPort m = none := by
  unfold State.entersPort
  split
  · simp [Home.isFabric, *] at h
  · rfl

/-- R315: an access at a channel changes the channel's cache bank, and nothing else. -/
theorem State.bankAccess_cases (vf : Nat) (h : Home) (addr : Nat) (wr : Bool) :
    s.bankAccess vf h addr wr = s ∨ ∃ c ls, h = .channel c ∧ s.bankAccess vf h addr wr = { s with banks := mapPut [] s.banks c ls } := by
  cases h with
  | channel c =>
    simp only [State.bankAccess]
    split
    · exact .inr ⟨c, _, rfl, rfl⟩
    · split
      · exact .inr ⟨c, _, rfl, rfl⟩
      · exact .inl rfl
  | _ => exact .inl rfl

/-! Hoists (R279, R329, R358). -/

/-- A hoist's write goes to the page's memory after the dirty-page log, or nowhere; or it freezes the VF. -/
theorem State.hoistWrite_cases (tag va : Nat) (bytes : List Byte) :
    (s.walk tag va = .fault ∧ s.hoistWrite tag va bytes = s) ∨
    (∃ e, s.walk tag va = .leaf e ∧
      s.hoistWrite tag va bytes = (s.logWrite tag va (if e.log then some e.leaf else none)).writeDevice (e.pa + va % 2 ^ e.bits) bytes) ∨
    ∃ kind a, (s.walk tag va = .violation ∨ s.walk tag va = .lost kind a) ∧ s.hoistWrite tag va bytes = s.freezeOwner (tag / 8) kind a := by
  cases h : s.walk tag va with
  | leaf e => exact .inr (.inl ⟨e, rfl, by simp [State.hoistWrite, h]⟩)
  | fault => exact .inl ⟨rfl, by simp [State.hoistWrite, h]⟩
  | violation => exact .inr (.inr ⟨1, va, .inl rfl, by simp [State.hoistWrite, h]⟩)
  | lost kind a => exact .inr (.inr ⟨kind, a, .inr rfl, by simp [State.hoistWrite, h]⟩)

/-- A task message that its hoist may not serve yet stays where it is. -/
theorem State.onTask_none (k : Msg → Nat → State) (h : s.taskMessage = none) : s.onTask k = .next s := by
  simp [State.onTask, h]

/-- A task message at a sound hoist is served. -/
theorem State.onTask_served {m : Msg} {cl : Nat} (k : Msg → Nat → State) (h : s.taskMessage = some (m, cl)) (hb : (s.cluster cl).bad = false) :
    s.onTask k = .next (k m cl) := by
  simp [State.onTask, h, hb]

/-! Links (R338, R339). -/

/-- A message to another device joins one port's list; any other message no port's. -/
theorem State.sendOut_cases (m : Msg) : s.sendOut m = s ∨ ∃ p, s.sendOut m = s.setLink p ((s.link p).send m.id) := by
  unfold State.sendOut
  split
  · split
    · exact .inr ⟨_, rfl⟩
    · exact .inl rfl
  · exact .inl rfl

@[simp] theorem LinkPort.send_sendSeq (p : LinkPort) (id : Nat) : (p.send id).sendSeq = p.sendSeq + 1 := rfl
@[simp] theorem LinkPort.send_out (p : LinkPort) (id : Nat) : (p.send id).out = p.out ++ [(p.sendSeq, id)] := rfl

/-! Commands (R337). -/

/-- A write of CMDA is dropped, lost, rejected, or starts its command. -/
theorem State.command_cases (ok : Bool) (k : State → State) :
    let v := s.vf s.arg.vf
    s.command ok k = s ∨ (v.command.isSome ∧ s.command ok k = s.setVf s.arg.vf { v with cmdLost := true }) ∨
    (v.command = none ∧ (ok && s.ownsTile s.arg.vf (cmdTile s.arg.value)) = false ∧ ∃ a, s.command ok k = s.setVf s.arg.vf { v with cmda := a, cmdErr := true }) ∨
    (v.command = none ∧ (ok && s.ownsTile s.arg.vf (cmdTile s.arg.value)) = true ∧ ∃ a c, s.command ok k =
      k (s.setVf s.arg.vf { v with cmda := a, cmdErr := false, cmdLost := false, command := some c })) := by
  simp only [State.command]
  split
  · exact .inl rfl
  · split
    · exact .inr (.inl ⟨‹_›, rfl⟩)
    · rename_i h
      have hn : (s.vf s.arg.vf).command = none := by simpa [Option.isSome_iff_ne_none] using h
      split
      · exact .inr (.inr (.inl ⟨hn, by cases ok <;> simp_all, _, rfl⟩))
      · exact .inr (.inr (.inr ⟨hn, by simp_all, _, _, rfl⟩))

/-- A step whose OP was not written changes nothing. -/
theorem State.commandOf_other {op : Nat} (ok : Bool) (k : State → State) (h : cmdOp s.arg.value ≠ op) : s.commandOf op ok k = .next s := by
  simp [State.commandOf, h]

/-! Requests of the management cores (R350, R353, R358). -/

/-- Only a running core of a booted device asks. -/
theorem State.mayRequest_iff : s.mayRequest = true ↔
    5 ≤ s.trust.stage ∧ s.trust.dead = false ∧ s.trust.frozenCores.getLsbD (s.arg.id % 4) = false := by
  simp [State.mayRequest, and_assoc]

section Shared
variable {s : State}

/-! Accesses in parts, writebacks and walks (R308, R310, R358). -/

/-- R308: bytes that end before their line does are one part. -/
theorem State.pieces_within {tile tag z : Nat} {t : Target} (h : z ≤ roomAt true t.va) : s.pieces tile tag z t = [(0, z, t)] := by
  simp [State.pieces, h]

/-- R242, R308: an access that ends before its page does has one place. -/
theorem State.cutOf_within {tile tag z : Nat} {t : Target} (h : z ≤ roomAt false t.va) : s.cutOf tile tag z t = none := by
  cases t <;> simp_all [State.cutOf, Target.va]

/-- A message without a cut has one home, and its bytes are one part. -/
theorem Msg.homes_of_whole {m : Msg} (h : m.cut = none) : m.homes = [m.home] := by simp [Msg.homes, h]
theorem Msg.parts_of_whole {m : Msg} (h : m.cut = none) (n : Nat) : m.parts n = [(m.spot, 0, n)] := by simp [Msg.parts, cutParts, h]

/-- R308: the parts of an access have its bytes, each once. -/
theorem State.pieces_sizes (tile tag z : Nat) (t : Target) : ((s.pieces tile tag z t).map fun p => p.2.1).sum = z := by
  simp only [State.pieces]
  split
  · simp
  · simp; omega

/-- R358: where no dirty byte among the lines is uncorrectable they are written back and the instruction goes on. -/
theorem State.cleaning_of_sound {p : L1Line → Bool} (k : State → State) (h : ∀ l ∈ (s.tile s.myTile).l1, p l = true → l.dirty &&& l.bad = 0) :
    s.cleaning p k = k (s.l1Clean s.myTile s.cur p) := by
  unfold State.cleaning
  rw [if_neg]
  intro hb
  obtain ⟨l, hl, hl'⟩ := List.any_eq_true.1 hb
  simp only [Bool.and_eq_true, bne_iff_ne] at hl'
  exact hl'.2 (h l hl hl'.1)

/-- R22, R310: a walk starts at the address missed, has not failed, and stands in no queue only where the cluster's cache has the page. -/
theorem State.newWalk_eq (tile tag va : Nat) :
    (s.newWalk tile tag va).tag = tag ∧ (s.newWalk tile tag va).va = va ∧ (s.newWalk tile tag va).failed = false := by
  unfold State.newWalk
  split
  · exact ⟨rfl, rfl, rfl⟩
  · split <;> exact ⟨rfl, rfl, rfl⟩

/-- R310: only the walks of a die that stand in a queue are its walks under way. -/
theorem State.walksOf_walker {die : Nat} {w : Walk} (h : w ∈ s.walksOf die) : w.pending = true ∧ w.walker.isSome = true := by
  simp only [State.walksOf, List.mem_flatMap, List.mem_filter, Bool.and_eq_true] at h
  obtain ⟨p, -, -, hw⟩ := h
  exact hw

/-- R310: the walks that a strand's engines wait for change nothing of the strand's own. -/
@[simp] theorem Strand.onEngineWalks_walk (r : Strand) (g : Walk → Option Walk) : (r.onEngineWalks g).walk = r.walk := rfl
@[simp] theorem Strand.onEngineWalks_x (r : Strand) (g : Walk → Option Walk) : (r.onEngineWalks g).x = r.x := rfl
@[simp] theorem Strand.onEngineWalks_run (r : Strand) (g : Walk → Option Walk) : (r.onEngineWalks g).run = r.run := rfl

/-- R358, R361: where the tables are sound an access goes on. -/
@[simp] theorem State.unlessLost_none (k : State) : s.unlessLost none k = k := rfl
@[simp] theorem State.unlessLost_some (kind a : Nat) (k : State) : s.unlessLost (some (kind, a)) k = s.freeze s.cur kind a := rfl

end Shared

end Sys2Proof.Machine
end

