-- ==== Sys2Proof/Laws/Dispatch.lean ====
section
/-! SUPPORT. What `exec` does with each constructor: it calls its meaning. -/

namespace Sys2Proof.Machine

variable (f : Fields) (s : State)

@[simp] theorem exec_nop : exec (.nop f) s = execNop f s := rfl
@[simp] theorem exec_add : exec (.add f) s = execAdd f s := rfl
@[simp] theorem exec_sub : exec (.sub f) s = execSub f s := rfl
@[simp] theorem exec_mul : exec (.mul f) s = execMul f s := rfl
@[simp] theorem exec_mulh : exec (.mulh f) s = execMulh f s := rfl
@[simp] theorem exec_div : exec (.div f) s = execDiv f s := rfl
@[simp] theorem exec_rem : exec (.rem f) s = execRem f s := rfl
@[simp] theorem exec_min : exec (.min f) s = execMin f s := rfl
@[simp] theorem exec_max : exec (.max f) s = execMax f s := rfl
@[simp] theorem exec_and : exec (.and f) s = execAnd f s := rfl
@[simp] theorem exec_or : exec (.or f) s = execOr f s := rfl
@[simp] theorem exec_xor : exec (.xor f) s = execXor f s := rfl
@[simp] theorem exec_andn : exec (.andn f) s = execAndn f s := rfl
@[simp] theorem exec_shl : exec (.shl f) s = execShl f s := rfl
@[simp] theorem exec_shr : exec (.shr f) s = execShr f s := rfl
@[simp] theorem exec_rot : exec (.rot f) s = execRot f s := rfl
@[simp] theorem exec_clz : exec (.clz f) s = execClz f s := rfl
@[simp] theorem exec_ctz : exec (.ctz f) s = execCtz f s := rfl
@[simp] theorem exec_popc : exec (.popc f) s = execPopc f s := rfl
@[simp] theorem exec_bext : exec (.bext f) s = execBext f s := rfl
@[simp] theorem exec_bins : exec (.bins f) s = execBins f s := rfl
@[simp] theorem exec_sext : exec (.sext f) s = execSext f s := rfl
@[simp] theorem exec_li : exec (.li f) s = execLi f s := rfl
@[simp] theorem exec_lea : exec (.lea f) s = execLea f s := rfl
@[simp] theorem exec_mov : exec (.mov f) s = execMov f s := rfl
@[simp] theorem exec_sel : exec (.sel f) s = execSel f s := rfl
@[simp] theorem exec_setEq : exec (.setEq f) s = execSetEq f s := rfl
@[simp] theorem exec_setNe : exec (.setNe f) s = execSetNe f s := rfl
@[simp] theorem exec_setLt : exec (.setLt f) s = execSetLt f s := rfl
@[simp] theorem exec_setGe : exec (.setGe f) s = execSetGe f s := rfl
@[simp] theorem exec_setLo : exec (.setLo f) s = execSetLo f s := rfl
@[simp] theorem exec_setHs : exec (.setHs f) s = execSetHs f s := rfl
@[simp] theorem exec_setLe : exec (.setLe f) s = execSetLe f s := rfl
@[simp] theorem exec_setGt : exec (.setGt f) s = execSetGt f s := rfl
@[simp] theorem exec_setLs : exec (.setLs f) s = execSetLs f s := rfl
@[simp] theorem exec_setHi : exec (.setHi f) s = execSetHi f s := rfl
@[simp] theorem exec_kmov : exec (.kmov f) s = execKmov f s := rfl
@[simp] theorem exec_kget : exec (.kget f) s = execKget f s := rfl
@[simp] theorem exec_kopAnd : exec (.kopAnd f) s = execKopAnd f s := rfl
@[simp] theorem exec_kopOr : exec (.kopOr f) s = execKopOr f s := rfl
@[simp] theorem exec_kopXor : exec (.kopXor f) s = execKopXor f s := rfl
@[simp] theorem exec_kopAndn : exec (.kopAndn f) s = execKopAndn f s := rfl
@[simp] theorem exec_kopNot : exec (.kopNot f) s = execKopNot f s := rfl
@[simp] theorem exec_kpop : exec (.kpop f) s = execKpop f s := rfl
@[simp] theorem exec_kfill : exec (.kfill f) s = execKfill f s := rfl
@[simp] theorem exec_br : exec (.br f) s = execBr f s := rfl
@[simp] theorem exec_bEq : exec (.bEq f) s = execBEq f s := rfl
@[simp] theorem exec_bNe : exec (.bNe f) s = execBNe f s := rfl
@[simp] theorem exec_bLt : exec (.bLt f) s = execBLt f s := rfl
@[simp] theorem exec_bGe : exec (.bGe f) s = execBGe f s := rfl
@[simp] theorem exec_bLo : exec (.bLo f) s = execBLo f s := rfl
@[simp] theorem exec_bHs : exec (.bHs f) s = execBHs f s := rfl
@[simp] theorem exec_bLe : exec (.bLe f) s = execBLe f s := rfl
@[simp] theorem exec_bGt : exec (.bGt f) s = execBGt f s := rfl
@[simp] theorem exec_bLs : exec (.bLs f) s = execBLs f s := rfl
@[simp] theorem exec_bHi : exec (.bHi f) s = execBHi f s := rfl
@[simp] theorem exec_jr : exec (.jr f) s = execJr f s := rfl
@[simp] theorem exec_call : exec (.call f) s = execCall f s := rfl
@[simp] theorem exec_callr : exec (.callr f) s = execCallr f s := rfl
@[simp] theorem exec_ret : exec (.ret f) s = execRet f s := rfl
@[simp] theorem exec_loop : exec (.loop f) s = execLoop f s := rfl
@[simp] theorem exec_dtRd : exec (.dtRd f) s = execDtRd f s := rfl
@[simp] theorem exec_dtUntil : exec (.dtUntil f) s = execDtUntil f s := rfl
@[simp] theorem exec_fAdd : exec (.fAdd f) s = execFAdd f s := rfl
@[simp] theorem exec_fSub : exec (.fSub f) s = execFSub f s := rfl
@[simp] theorem exec_fMul : exec (.fMul f) s = execFMul f s := rfl
@[simp] theorem exec_fFma : exec (.fFma f) s = execFFma f s := rfl
@[simp] theorem exec_fDiv : exec (.fDiv f) s = execFDiv f s := rfl
@[simp] theorem exec_fSqrt : exec (.fSqrt f) s = execFSqrt f s := rfl
@[simp] theorem exec_fCvt : exec (.fCvt f) s = execFCvt f s := rfl
@[simp] theorem exec_fCmpEq : exec (.fCmpEq f) s = execFCmpEq f s := rfl
@[simp] theorem exec_fCmpNe : exec (.fCmpNe f) s = execFCmpNe f s := rfl
@[simp] theorem exec_fCmpLt : exec (.fCmpLt f) s = execFCmpLt f s := rfl
@[simp] theorem exec_fCmpGe : exec (.fCmpGe f) s = execFCmpGe f s := rfl
@[simp] theorem exec_fCmpLe : exec (.fCmpLe f) s = execFCmpLe f s := rfl
@[simp] theorem exec_fCmpGt : exec (.fCmpGt f) s = execFCmpGt f s := rfl
@[simp] theorem exec_fCmpUn : exec (.fCmpUn f) s = execFCmpUn f s := rfl
@[simp] theorem exec_fCmpOrd : exec (.fCmpOrd f) s = execFCmpOrd f s := rfl
@[simp] theorem exec_fMin : exec (.fMin f) s = execFMin f s := rfl
@[simp] theorem exec_fMax : exec (.fMax f) s = execFMax f s := rfl
@[simp] theorem exec_fAbs : exec (.fAbs f) s = execFAbs f s := rfl
@[simp] theorem exec_fNeg : exec (.fNeg f) s = execFNeg f s := rfl
@[simp] theorem exec_fCvti : exec (.fCvti f) s = execFCvti f s := rfl
@[simp] theorem exec_vAdd : exec (.vAdd f) s = execVAdd f s := rfl
@[simp] theorem exec_vSub : exec (.vSub f) s = execVSub f s := rfl
@[simp] theorem exec_vMul : exec (.vMul f) s = execVMul f s := rfl
@[simp] theorem exec_vFma : exec (.vFma f) s = execVFma f s := rfl
@[simp] theorem exec_vFms : exec (.vFms f) s = execVFms f s := rfl
@[simp] theorem exec_vFnma : exec (.vFnma f) s = execVFnma f s := rfl
@[simp] theorem exec_vMin : exec (.vMin f) s = execVMin f s := rfl
@[simp] theorem exec_vMax : exec (.vMax f) s = execVMax f s := rfl
@[simp] theorem exec_vAbs : exec (.vAbs f) s = execVAbs f s := rfl
@[simp] theorem exec_vNeg : exec (.vNeg f) s = execVNeg f s := rfl
@[simp] theorem exec_vDiv : exec (.vDiv f) s = execVDiv f s := rfl
@[simp] theorem exec_vSqrt : exec (.vSqrt f) s = execVSqrt f s := rfl
@[simp] theorem exec_vRcp : exec (.vRcp f) s = execVRcp f s := rfl
@[simp] theorem exec_vRsq : exec (.vRsq f) s = execVRsq f s := rfl
@[simp] theorem exec_vExp2 : exec (.vExp2 f) s = execVExp2 f s := rfl
@[simp] theorem exec_vLog2 : exec (.vLog2 f) s = execVLog2 f s := rfl
@[simp] theorem exec_vSin : exec (.vSin f) s = execVSin f s := rfl
@[simp] theorem exec_vCos : exec (.vCos f) s = execVCos f s := rfl
@[simp] theorem exec_vTanh : exec (.vTanh f) s = execVTanh f s := rfl
@[simp] theorem exec_vSig : exec (.vSig f) s = execVSig f s := rfl
@[simp] theorem exec_vCvt : exec (.vCvt f) s = execVCvt f s := rfl
@[simp] theorem exec_vCvti : exec (.vCvti f) s = execVCvti f s := rfl
@[simp] theorem exec_vCmpEq : exec (.vCmpEq f) s = execVCmpEq f s := rfl
@[simp] theorem exec_vCmpNe : exec (.vCmpNe f) s = execVCmpNe f s := rfl
@[simp] theorem exec_vCmpLt : exec (.vCmpLt f) s = execVCmpLt f s := rfl
@[simp] theorem exec_vCmpGe : exec (.vCmpGe f) s = execVCmpGe f s := rfl
@[simp] theorem exec_vCmpLo : exec (.vCmpLo f) s = execVCmpLo f s := rfl
@[simp] theorem exec_vCmpHs : exec (.vCmpHs f) s = execVCmpHs f s := rfl
@[simp] theorem exec_vCmpLe : exec (.vCmpLe f) s = execVCmpLe f s := rfl
@[simp] theorem exec_vCmpGt : exec (.vCmpGt f) s = execVCmpGt f s := rfl
@[simp] theorem exec_vCmpLs : exec (.vCmpLs f) s = execVCmpLs f s := rfl
@[simp] theorem exec_vCmpHi : exec (.vCmpHi f) s = execVCmpHi f s := rfl
@[simp] theorem exec_vCmpUn : exec (.vCmpUn f) s = execVCmpUn f s := rfl
@[simp] theorem exec_vCmpOrd : exec (.vCmpOrd f) s = execVCmpOrd f s := rfl
@[simp] theorem exec_vSel : exec (.vSel f) s = execVSel f s := rfl
@[simp] theorem exec_vAnd : exec (.vAnd f) s = execVAnd f s := rfl
@[simp] theorem exec_vOr : exec (.vOr f) s = execVOr f s := rfl
@[simp] theorem exec_vXor : exec (.vXor f) s = execVXor f s := rfl
@[simp] theorem exec_vAndn : exec (.vAndn f) s = execVAndn f s := rfl
@[simp] theorem exec_vShl : exec (.vShl f) s = execVShl f s := rfl
@[simp] theorem exec_vShr : exec (.vShr f) s = execVShr f s := rfl
@[simp] theorem exec_vRot : exec (.vRot f) s = execVRot f s := rfl
@[simp] theorem exec_vClz : exec (.vClz f) s = execVClz f s := rfl
@[simp] theorem exec_vDot4 : exec (.vDot4 f) s = execVDot4 f s := rfl
@[simp] theorem exec_vDot8 : exec (.vDot8 f) s = execVDot8 f s := rfl
@[simp] theorem exec_vRedAdd : exec (.vRedAdd f) s = execVRedAdd f s := rfl
@[simp] theorem exec_vRedMin : exec (.vRedMin f) s = execVRedMin f s := rfl
@[simp] theorem exec_vRedMax : exec (.vRedMax f) s = execVRedMax f s := rfl
@[simp] theorem exec_vRedAnd : exec (.vRedAnd f) s = execVRedAnd f s := rfl
@[simp] theorem exec_vRedOr : exec (.vRedOr f) s = execVRedOr f s := rfl
@[simp] theorem exec_vRedXor : exec (.vRedXor f) s = execVRedXor f s := rfl
@[simp] theorem exec_vScanAdd : exec (.vScanAdd f) s = execVScanAdd f s := rfl
@[simp] theorem exec_vScanMin : exec (.vScanMin f) s = execVScanMin f s := rfl
@[simp] theorem exec_vScanMax : exec (.vScanMax f) s = execVScanMax f s := rfl
@[simp] theorem exec_vScanXadd : exec (.vScanXadd f) s = execVScanXadd f s := rfl
@[simp] theorem exec_vScanXmin : exec (.vScanXmin f) s = execVScanXmin f s := rfl
@[simp] theorem exec_vScanXmax : exec (.vScanXmax f) s = execVScanXmax f s := rfl
@[simp] theorem exec_vPerm : exec (.vPerm f) s = execVPerm f s := rfl
@[simp] theorem exec_vBcast : exec (.vBcast f) s = execVBcast f s := rfl
@[simp] theorem exec_vSplat : exec (.vSplat f) s = execVSplat f s := rfl
@[simp] theorem exec_vExt : exec (.vExt f) s = execVExt f s := rfl
@[simp] theorem exec_vIns : exec (.vIns f) s = execVIns f s := rfl
@[simp] theorem exec_vIota : exec (.vIota f) s = execVIota f s := rfl
@[simp] theorem exec_vMov : exec (.vMov f) s = execVMov f s := rfl
@[simp] theorem exec_vCpr : exec (.vCpr f) s = execVCpr f s := rfl
@[simp] theorem exec_vExpd : exec (.vExpd f) s = execVExpd f s := rfl
@[simp] theorem exec_vHist : exec (.vHist f) s = execVHist f s := rfl
@[simp] theorem exec_vHistGet : exec (.vHistGet f) s = execVHistGet f s := rfl
@[simp] theorem exec_vAccept : exec (.vAccept f) s = execVAccept f s := rfl
@[simp] theorem exec_vDraw : exec (.vDraw f) s = execVDraw f s := rfl
@[simp] theorem exec_laAdd : exec (.laAdd f) s = execLaAdd f s := rfl
@[simp] theorem exec_laNorm : exec (.laNorm f) s = execLaNorm f s := rfl
@[simp] theorem exec_laRd : exec (.laRd f) s = execLaRd f s := rfl
@[simp] theorem exec_laClr : exec (.laClr f) s = execLaClr f s := rfl
@[simp] theorem exec_laGetw : exec (.laGetw f) s = execLaGetw f s := rfl
@[simp] theorem exec_laSetw : exec (.laSetw f) s = execLaSetw f s := rfl
@[simp] theorem exec_vHint (n : BitVec 4) : exec (.vHint n f) s = execVHint n f s := rfl
@[simp] theorem exec_oClaim : exec (.oClaim f) s = execOClaim f s := rfl
@[simp] theorem exec_oRel : exec (.oRel f) s = execORel f s := rfl
@[simp] theorem exec_oTst : exec (.oTst f) s = execOTst f s := rfl
@[simp] theorem exec_mMma : exec (.mMma f) s = execMMma f s := rfl
@[simp] theorem exec_mMms : exec (.mMms f) s = execMMms f s := rfl
@[simp] theorem exec_mMmt : exec (.mMmt f) s = execMMmt f s := rfl
@[simp] theorem exec_mCmp : exec (.mCmp f) s = execMCmp f s := rfl
@[simp] theorem exec_mZero : exec (.mZero f) s = execMZero f s := rfl
@[simp] theorem exec_mRd : exec (.mRd f) s = execMRd f s := rfl
@[simp] theorem exec_mWr : exec (.mWr f) s = execMWr f s := rfl
@[simp] theorem exec_wSet : exec (.wSet f) s = execWSet f s := rfl
@[simp] theorem exec_wStep : exec (.wStep f) s = execWStep f s := rfl
@[simp] theorem exec_wVal : exec (.wVal f) s = execWVal f s := rfl
@[simp] theorem exec_vTdec : exec (.vTdec f) s = execVTdec f s := rfl
@[simp] theorem exec_tEnc : exec (.tEnc f) s = execTEnc f s := rfl
@[simp] theorem exec_ld : exec (.ld f) s = execLd f s := rfl
@[simp] theorem exec_st : exec (.st f) s = execSt f s := rfl
@[simp] theorem exec_vLd : exec (.vLd f) s = execVLd f s := rfl
@[simp] theorem exec_vSt : exec (.vSt f) s = execVSt f s := rfl
@[simp] theorem exec_vGat : exec (.vGat f) s = execVGat f s := rfl
@[simp] theorem exec_vSct : exec (.vSct f) s = execVSct f s := rfl
@[simp] theorem exec_ldAcq : exec (.ldAcq f) s = execLdAcq f s := rfl
@[simp] theorem exec_stRel : exec (.stRel f) s = execStRel f s := rfl
@[simp] theorem exec_stRelCmp : exec (.stRelCmp f) s = execStRelCmp f s := rfl
@[simp] theorem exec_atAdd : exec (.atAdd f) s = execAtAdd f s := rfl
@[simp] theorem exec_atAnd : exec (.atAnd f) s = execAtAnd f s := rfl
@[simp] theorem exec_atOr : exec (.atOr f) s = execAtOr f s := rfl
@[simp] theorem exec_atXor : exec (.atXor f) s = execAtXor f s := rfl
@[simp] theorem exec_atMin : exec (.atMin f) s = execAtMin f s := rfl
@[simp] theorem exec_atMax : exec (.atMax f) s = execAtMax f s := rfl
@[simp] theorem exec_atSwp : exec (.atSwp f) s = execAtSwp f s := rfl
@[simp] theorem exec_atCas : exec (.atCas f) s = execAtCas f s := rfl
@[simp] theorem exec_atFadd : exec (.atFadd f) s = execAtFadd f s := rfl
@[simp] theorem exec_atCas2 : exec (.atCas2 f) s = execAtCas2 f s := rfl
@[simp] theorem exec_cp : exec (.cp f) s = execCp f s := rfl
@[simp] theorem exec_qOpen : exec (.qOpen f) s = execQOpen f s := rfl
@[simp] theorem exec_qClose : exec (.qClose f) s = execQClose f s := rfl
@[simp] theorem exec_qFlush : exec (.qFlush f) s = execQFlush f s := rfl
@[simp] theorem exec_l1Wb : exec (.l1Wb f) s = execL1Wb f s := rfl
@[simp] theorem exec_l1Inv : exec (.l1Inv f) s = execL1Inv f s := rfl
@[simp] theorem exec_l1Wbi : exec (.l1Wbi f) s = execL1Wbi f s := rfl
@[simp] theorem exec_l1Wba : exec (.l1Wba f) s = execL1Wba f s := rfl
@[simp] theorem exec_l1Inva : exec (.l1Inva f) s = execL1Inva f s := rfl
@[simp] theorem exec_l1Wbia : exec (.l1Wbia f) s = execL1Wbia f s := rfl
@[simp] theorem exec_tlRd (t : Counter) : exec (.tlRd t f) s = execTlRd t f s := rfl
@[simp] theorem exec_tlWait (t : Counter) : exec (.tlWait t f) s = execTlWait t f s := rfl
@[simp] theorem exec_tlTest (t : Counter) : exec (.tlTest t f) s = execTlTest t f s := rfl
@[simp] theorem exec_fork : exec (.fork f) s = execFork f s := rfl
@[simp] theorem exec_spawn : exec (.spawn f) s = execSpawn f s := rfl
@[simp] theorem exec_halt : exec (.halt f) s = execHalt f s := rfl
@[simp] theorem exec_tkWait : exec (.tkWait f) s = execTkWait f s := rfl
@[simp] theorem exec_tkPush : exec (.tkPush f) s = execTkPush f s := rfl
@[simp] theorem exec_tkDone : exec (.tkDone f) s = execTkDone f s := rfl
@[simp] theorem exec_tkBatch : exec (.tkBatch f) s = execTkBatch f s := rfl
@[simp] theorem exec_gainAdd : exec (.gainAdd f) s = execGainAdd f s := rfl
@[simp] theorem exec_gainMax : exec (.gainMax f) s = execGainMax f s := rfl
@[simp] theorem exec_gainSet : exec (.gainSet f) s = execGainSet f s := rfl
@[simp] theorem exec_depDec : exec (.depDec f) s = execDepDec f s := rfl
@[simp] theorem exec_hyArrive : exec (.hyArrive f) s = execHyArrive f s := rfl
@[simp] theorem exec_hyWait : exec (.hyWait f) s = execHyWait f s := rfl
@[simp] theorem exec_hyTry : exec (.hyTry f) s = execHyTry f s := rfl
@[simp] theorem exec_fenceTile : exec (.fenceTile f) s = execFenceTile f s := rfl
@[simp] theorem exec_fenceClu : exec (.fenceClu f) s = execFenceClu f s := rfl
@[simp] theorem exec_fenceDie : exec (.fenceDie f) s = execFenceDie f s := rfl
@[simp] theorem exec_fenceDev : exec (.fenceDev f) s = execFenceDev f s := rfl
@[simp] theorem exec_fenceSys : exec (.fenceSys f) s = execFenceSys f s := rfl
@[simp] theorem exec_spanOpen : exec (.spanOpen f) s = execSpanOpen f s := rfl
@[simp] theorem exec_spanClose : exec (.spanClose f) s = execSpanClose f s := rfl
@[simp] theorem exec_lnGo : exec (.lnGo f) s = execLnGo f s := rfl
@[simp] theorem exec_trap : exec (.trap f) s = execTrap f s := rfl
@[simp] theorem exec_eret : exec (.eret f) s = execEret f s := rfl
@[simp] theorem exec_sysCallEcho : exec (.sysCallEcho f) s = execSysCallEcho f s := rfl
@[simp] theorem exec_sysCallTablegen : exec (.sysCallTablegen f) s = execSysCallTablegen f s := rfl
@[simp] theorem exec_sysCallPost : exec (.sysCallPost f) s = execSysCallPost f s := rfl
@[simp] theorem exec_sysCallDefer : exec (.sysCallDefer f) s = execSysCallDefer f s := rfl
@[simp] theorem exec_sysCallOwned : exec (.sysCallOwned f) s = execSysCallOwned f s := rfl
@[simp] theorem exec_sysCallUnassigned : exec (.sysCallUnassigned f) s = execSysCallUnassigned f s := rfl
@[simp] theorem exec_ctlRd : exec (.ctlRd f) s = execCtlRd f s := rfl
@[simp] theorem exec_ctlWr : exec (.ctlWr f) s = execCtlWr f s := rfl
@[simp] theorem exec_arrayOperationComplete : exec .arrayOperationComplete s = execArrayOperationComplete s := rfl
@[simp] theorem exec_viterbiBlockStart : exec .viterbiBlockStart s = execViterbiBlockStart s := rfl
@[simp] theorem exec_viterbiBlockComplete : exec .viterbiBlockComplete s = execViterbiBlockComplete s := rfl
@[simp] theorem exec_copyElement : exec .copyElement s = execCopyElement s := rfl
@[simp] theorem exec_copyComplete : exec .copyComplete s = execCopyComplete s := rfl
@[simp] theorem exec_portRefillElement : exec .portRefillElement s = execPortRefillElement s := rfl
@[simp] theorem exec_portDrainElement : exec .portDrainElement s = execPortDrainElement s := rfl
@[simp] theorem exec_homeRequestService : exec .homeRequestService s = execHomeRequestService s := rfl
@[simp] theorem exec_storeAcknowledgment : exec .storeAcknowledgment s = execStoreAcknowledgment s := rfl
@[simp] theorem exec_atomicAcknowledgment : exec .atomicAcknowledgment s = execAtomicAcknowledgment s := rfl
@[simp] theorem exec_longResultWrite : exec .longResultWrite s = execLongResultWrite s := rfl
@[simp] theorem exec_walkComplete : exec .walkComplete s = execWalkComplete s := rfl
@[simp] theorem exec_spawnArrival : exec .spawnArrival s = execSpawnArrival s := rfl
@[simp] theorem exec_answerReturn : exec .answerReturn s = execAnswerReturn s := rfl
@[simp] theorem exec_taskPushArrival : exec .taskPushArrival s = execTaskPushArrival s := rfl
@[simp] theorem exec_taskEndArrival : exec .taskEndArrival s = execTaskEndArrival s := rfl
@[simp] theorem exec_gainUpdateArrival : exec .gainUpdateArrival s = execGainUpdateArrival s := rfl
@[simp] theorem exec_depDecArrival : exec .depDecArrival s = execDepDecArrival s := rfl
@[simp] theorem exec_hyWaitTimeout : exec .hyWaitTimeout s = execHyWaitTimeout s := rfl
@[simp] theorem exec_halyardPhaseComplete : exec .halyardPhaseComplete s = execHalyardPhaseComplete s := rfl
@[simp] theorem exec_spanOverrun : exec .spanOverrun s = execSpanOverrun s := rfl
@[simp] theorem exec_spanEscalation : exec .spanEscalation s = execSpanEscalation s := rfl
@[simp] theorem exec_spanHandlerPark : exec .spanHandlerPark s = execSpanHandlerPark s := rfl
@[simp] theorem exec_spanBroken : exec .spanBroken s = execSpanBroken s := rfl
@[simp] theorem exec_lnGoArrival : exec .lnGoArrival s = execLnGoArrival s := rfl
@[simp] theorem exec_taskDispatch : exec .taskDispatch s = execTaskDispatch s := rfl
@[simp] theorem exec_heapLevelMove : exec .heapLevelMove s = execHeapLevelMove s := rfl
@[simp] theorem exec_keyPublication : exec .keyPublication s = execKeyPublication s := rfl
@[simp] theorem exec_stealRequest : exec .stealRequest s = execStealRequest s := rfl
@[simp] theorem exec_stealRequestArrival : exec .stealRequestArrival s = execStealRequestArrival s := rfl
@[simp] theorem exec_stolenRecordArrival : exec .stolenRecordArrival s = execStolenRecordArrival s := rfl
@[simp] theorem exec_stealAcknowledgment : exec .stealAcknowledgment s = execStealAcknowledgment s := rfl
@[simp] theorem exec_stealRefusal : exec .stealRefusal s = execStealRefusal s := rfl
@[simp] theorem exec_rsdSnapshot : exec .rsdSnapshot s = execRsdSnapshot s := rfl
@[simp] theorem exec_rsdCombine : exec .rsdCombine s = execRsdCombine s := rfl
@[simp] theorem exec_terminationDrain : exec .terminationDrain s = execTerminationDrain s := rfl
@[simp] theorem exec_fieldStall : exec .fieldStall s = execFieldStall s := rfl
@[simp] theorem exec_launchQueueService : exec .launchQueueService s = execLaunchQueueService s := rfl
@[simp] theorem exec_launchStart : exec .launchStart s = execLaunchStart s := rfl
@[simp] theorem exec_launchEnd : exec .launchEnd s = execLaunchEnd s := rfl
@[simp] theorem exec_preempt : exec .preempt s = execPreempt s := rfl
@[simp] theorem exec_preemptionDeferralExpiry : exec .preemptionDeferralExpiry s = execPreemptionDeferralExpiry s := rfl
@[simp] theorem exec_tileSave : exec .tileSave s = execTileSave s := rfl
@[simp] theorem exec_restore : exec .restore s = execRestore s := rfl
@[simp] theorem exec_handleInvalidation : exec .handleInvalidation s = execHandleInvalidation s := rfl
@[simp] theorem exec_translationInvalidation : exec .translationInvalidation s = execTranslationInvalidation s := rfl
@[simp] theorem exec_resume : exec .resume s = execResume s := rfl
@[simp] theorem exec_refuse : exec .refuse s = execRefuse s := rfl
@[simp] theorem exec_commandComplete : exec .commandComplete s = execCommandComplete s := rfl
@[simp] theorem exec_lqtailWrite : exec .lqtailWrite s = execLqtailWrite s := rfl
@[simp] theorem exec_bar0RegisterWrite : exec .bar0RegisterWrite s = execBar0RegisterWrite s := rfl
@[simp] theorem exec_bar2Access : exec .bar2Access s = execBar2Access s := rfl
@[simp] theorem exec_vfReset : exec .vfReset s = execVfReset s := rfl
@[simp] theorem exec_vfResetDrainExpiry : exec .vfResetDrainExpiry s = execVfResetDrainExpiry s := rfl
@[simp] theorem exec_vfResetComplete : exec .vfResetComplete s = execVfResetComplete s := rfl
@[simp] theorem exec_softThrottleRequest : exec .softThrottleRequest s = execSoftThrottleRequest s := rfl
@[simp] theorem exec_throttleStep : exec .throttleStep s = execThrottleStep s := rfl
@[simp] theorem exec_hardThrottle : exec .hardThrottle s = execHardThrottle s := rfl
@[simp] theorem exec_criticalTemperature : exec .criticalTemperature s = execCriticalTemperature s := rfl
@[simp] theorem exec_poolOccupancyPublication : exec .poolOccupancyPublication s = execPoolOccupancyPublication s := rfl
@[simp] theorem exec_flitReceive : exec .flitReceive s = execFlitReceive s := rfl
@[simp] theorem exec_fabricPortDown : exec .fabricPortDown s = execFabricPortDown s := rfl
@[simp] theorem exec_fabricPortRetrain : exec .fabricPortRetrain s = execFabricPortRetrain s := rfl
@[simp] theorem exec_fabricRequestArrival : exec .fabricRequestArrival s = execFabricRequestArrival s := rfl
@[simp] theorem exec_poolLinkDown : exec .poolLinkDown s = execPoolLinkDown s := rfl
@[simp] theorem exec_powerOnReset : exec .powerOnReset s = execPowerOnReset s := rfl
@[simp] theorem exec_managementFirmwareRetry : exec .managementFirmwareRetry s = execManagementFirmwareRetry s := rfl
@[simp] theorem exec_romRecoveryLoad : exec .romRecoveryLoad s = execRomRecoveryLoad s := rfl
@[simp] theorem exec_fuseCommit : exec .fuseCommit s = execFuseCommit s := rfl
@[simp] theorem exec_partitionRequest : exec .partitionRequest s = execPartitionRequest s := rfl
@[simp] theorem exec_unfreezeRequest : exec .unfreezeRequest s = execUnfreezeRequest s := rfl
@[simp] theorem exec_managementWindowViolation : exec .managementWindowViolation s = execManagementWindowViolation s := rfl
@[simp] theorem exec_getVersion : exec .getVersion s = execGetVersion s := rfl
@[simp] theorem exec_getCapabilities : exec .getCapabilities s = execGetCapabilities s := rfl
@[simp] theorem exec_negotiateAlgorithms : exec .negotiateAlgorithms s = execNegotiateAlgorithms s := rfl
@[simp] theorem exec_getDigests : exec .getDigests s = execGetDigests s := rfl
@[simp] theorem exec_getCertificate : exec .getCertificate s = execGetCertificate s := rfl
@[simp] theorem exec_challenge : exec .challenge s = execChallenge s := rfl
@[simp] theorem exec_getMeasurements : exec .getMeasurements s = execGetMeasurements s := rfl
@[simp] theorem exec_spdmUnsupportedRequest : exec .spdmUnsupportedRequest s = execSpdmUnsupportedRequest s := rfl
@[simp] theorem exec_readback : exec .readback s = execReadback s := rfl
@[simp] theorem exec_patrolScrub : exec .patrolScrub s = execPatrolScrub s := rfl
@[simp] theorem exec_errorThreshold : exec .errorThreshold s = execErrorThreshold s := rfl
@[simp] theorem exec_illegalInstruction : exec .illegalInstruction s = execIllegalInstruction s := rfl
@[simp] theorem exec_overlayFetch : exec .overlayFetch s = execOverlayFetch s := rfl
@[simp] theorem exec_taskMessageAcknowledgment : exec .taskMessageAcknowledgment s = execTaskMessageAcknowledgment s := rfl
@[simp] theorem exec_stealNoneAnswer : exec .stealNoneAnswer s = execStealNoneAnswer s := rfl
@[simp] theorem exec_commandUndefinedOp : exec .commandUndefinedOp s = execCommandUndefinedOp s := rfl

end Sys2Proof.Machine
end

