-- ==== Sys2Proof/Laws/Ops.lean ====
section
/-! SUPPORT. What the shared operations of the machine can do: issuing, long-class starts, traps, parking, freezing, messages and events. -/

namespace Sys2Proof.Machine

variable {i : Instr} {f : Fields} {s : State}

/-! Issuing (R20, R21). -/

theorem issue_of_ready (k : Strand → State) (h : regsPending i s.me = false) : issue i s k = .next (k s.me) := by
  simp [issue, h]

theorem issue_of_pending (k : Strand → State) (h : regsPending i s.me = true) : issue i s k = .next s := by
  simp [issue, h]

/-- An instruction that issues either is held with nothing changed or has its effect. -/
theorem issue_cases {k : Strand → State} {t : State} (h : issue i s k = .next t) :
    (regsPending i s.me = true ∧ t = s) ∨ (regsPending i s.me = false ∧ t = k s.me) := by
  cases hp : regsPending i s.me
  · rw [issue_of_ready k hp] at h; injection h with h; exact .inr ⟨rfl, h.symm⟩
  · rw [issue_of_pending k hp] at h; injection h with h; exact .inl ⟨rfl, h.symm⟩

theorem shortOp_of_ready (g : Strand → Strand) (h : regsPending i s.me = false) :
    shortOp i f s g = .next (s.retire (g s.me) f) := issue_of_ready _ h

theorem shortOp_cases {g : Strand → Strand} {t : State} (h : shortOp i f s g = .next t) :
    (regsPending i s.me = true ∧ t = s) ∨ (regsPending i s.me = false ∧ t = s.retire (g s.me) f) := issue_cases h

theorem longOp_of_ready {d : Dest} (g : Strand → Strand × VReg × Flags) (h : regsPending i s.me = false)
    (hr : longRoom s.me false = true) :
    longOp i f s d g = .next (s.startLong (g s.me).1 f { id := 0, dest := d, data := (g s.me).2.1, flags := (g s.me).2.2 }) := by
  simp [longOp, issue_of_ready _ h, hr]

theorem longOp_full {d : Dest} (g : Strand → Strand × VReg × Flags) (hr : longRoom s.me false = false) :
    longOp i f s d g = .next s := by
  cases hp : regsPending i s.me
  · simp [longOp, issue_of_ready _ hp, hr]
  · exact issue_of_pending _ hp

theorem longOp_cases {d : Dest} {g : Strand → Strand × VReg × Flags} {t : State} (h : longOp i f s d g = .next t) :
    t = s ∨ t = s.startLong (g s.me).1 f { id := 0, dest := d, data := (g s.me).2.1, flags := (g s.me).2.2 } := by
  cases hr : longRoom s.me false
  · rw [longOp_full g hr] at h; injection h with h; exact .inl h.symm
  · cases hp : regsPending i s.me
    · rw [longOp_of_ready g hp hr] at h; injection h with h; exact .inr h.symm
    · rw [longOp, issue_of_pending _ hp] at h; injection h with h; exact .inl h.symm

theorem issueMem_of_ready (k : Strand → State) (h : regsPending i s.me = false) (ha : acquireHeld s.me = false) :
    issueMem i s k = .next (k s.me) := by simp [issueMem, h, ha]

theorem issueMem_of_pending (k : Strand → State) (h : regsPending i s.me = true) : issueMem i s k = .next s := by
  simp [issueMem, h]

/-- R161: a memory instruction is held while an acquire is outstanding. -/
theorem issueMem_of_acquire (k : Strand → State) (h : acquireHeld s.me = true) : issueMem i s k = .next s := by
  simp [issueMem, h]

theorem issueMem_cases {k : Strand → State} {t : State} (h : issueMem i s k = .next t) : t = s ∨ t = k s.me := by
  unfold issueMem at h
  split at h <;> injection h with h
  · exact .inl h.symm
  · exact .inr h.symm

/-! The start of a long-class instruction. -/

@[simp] theorem State.startLong_mem (r : Strand) (o : LongOp) : (s.startLong r f o).mem = s.mem := rfl
@[simp] theorem State.startLong_tiles (r : Strand) (o : LongOp) : (s.startLong r f o).tiles = s.tiles := rfl
@[simp] theorem State.startLong_fresh (r : Strand) (o : LongOp) : (s.startLong r f o).fresh = s.fresh + 1 := rfl
@[simp] theorem State.startLong_cur (r : Strand) (o : LongOp) : (s.startLong r f o).cur = s.cur := rfl

theorem State.startLong_me (r : Strand) (o : LongOp) :
    (s.startLong r f o).me =
      { r with longs := r.longs ++ [{ o with id := s.fresh }], pc := nextPc r f, issuedAt := s.cycle + 1 } :=
  s.retire_me _ f

/-! Taking a trap (R206). -/

theorem State.trapAt_idle (epc : BitVec 32) (code info : Nat) (bad : Word) (h : causeActive s.me.cause = false) :
    s.trapAt epc code info bad = s.setMe { s.me with
      epc := epc.zeroExtend 64, cause := causeOf info code, badaddr := bad, pc := trapVector s.me code info,
      fence := none, hyIssue := none, walk := none } := by
  simp [State.trapAt, h]

theorem State.trapAt_active (epc : BitVec 32) {code : Nat} (info : Nat) (bad : Word) (h : causeActive s.me.cause = true)
    (h1 : code ≠ 11) (h2 : code ≠ 12) : s.trapAt epc code info bad = s.park s.cur code := by
  simp [State.trapAt, h, h1, h2]

/-- A trap enters a handler or parks the strand. -/
theorem State.takeTrap_cases (code info : Nat) (bad : Word) :
    s.takeTrap code info bad = s.park s.cur code ∨
    s.takeTrap code info bad = s.setMe { s.me with
      epc := s.me.pc.zeroExtend 64, cause := causeOf info code, badaddr := bad, pc := trapVector s.me code info,
      fence := none, hyIssue := none, walk := none } := by
  by_cases h : (causeActive s.me.cause && code != 11 && code != 12) = true
  · exact .inl (if_pos h)
  · exact .inr (if_neg h)

theorem causeOf_toNat (info code : Nat) : (causeOf info code).toNat = info % 2 ^ 32 * 2 ^ 32 + 2 ^ 8 + code % 32 := by
  unfold causeOf
  rw [BitVec.toNat_ofNat]
  exact Nat.mod_eq_of_lt (by omega)

/-- CAUSE.INFO (R207). -/
theorem causeOf_info {info code : Nat} (h : info < 2 ^ 32) : ((causeOf info code).extractLsb' 32 32).toNat = info := by
  rw [BitVec.extractLsb'_toNat, causeOf_toNat, Nat.shiftRight_eq_div_pow]
  omega

/-- CAUSE.CODE (R207). -/
theorem causeOf_code {info code : Nat} (h : code < 32) : ((causeOf info code).extractLsb' 0 5).toNat = code := by
  rw [BitVec.extractLsb'_toNat, causeOf_toNat, Nat.shiftRight_eq_div_pow]
  omega

/-- CAUSE.ACT (R207). -/
theorem causeOf_active (info code : Nat) : causeActive (causeOf info code) = true := by
  unfold causeActive
  rw [← BitVec.testBit_toNat, causeOf_toNat, Nat.testBit_eq_decide_div_mod_eq]
  simp only [decide_eq_true_eq]
  omega

/-! Events write device memory alone. -/

/-- R221, R319: posting an event changes device memory, its uncorrectable words and the VF's interrupt count, and nothing else. -/
theorem State.postEvent_eq (vf item : Nat) :
    ∃ (m : Memory) (b : Map Nat) (v : Map Vf), (s.postEvent vf item).1 = { s with mem := m, badWords := b, vfs := v } := by
  simp only [State.postEvent, State.writeDevice, State.setVf]
  split_ifs <;> exact ⟨_, _, _, rfl⟩

theorem State.parkedEvent_eq (n : Nat) :
    ∃ (m : Memory) (b : Map Nat) (v : Map Vf), s.parkedEvent n = { s with mem := m, badWords := b, vfs := v } := by
  unfold State.parkedEvent
  exact s.postEvent_eq _ _

theorem State.event_eq (vf code : Nat) (d0 d1 : Word) :
    ∃ (m : Memory) (b : Map Nat) (v : Map Vf), s.event vf code d0 d1 = { s with mem := m, badWords := b, vfs := v } := by
  unfold State.event
  exact s.postEvent_eq _ _

@[simp] theorem State.parkedEvent_strand (n j : Nat) : (s.parkedEvent n).strand j = s.strand j := by
  obtain ⟨m, b, v, h⟩ := s.parkedEvent_eq n
  rw [h]; rfl

theorem State.endTask_of_none {n : Nat} (h : (s.strand n).task = none) : s.endTask n = s := by simp [State.endTask, h]

/-- R206, R220: what parking a strand that runs no task changes: the strand, the launch, and what the event writes. -/
theorem State.park_of_idle {n : Nat} (info : Nat) (h : (s.strand n).task = none) :
    ∃ (m : Memory) (b : Map Nat) (v : Map Vf), s.park n info =
      { (s.setStrand n { s.strand n with run := .parked, cause := causeOf info 19, fence := none, hyIssue := none, walk := none }).setLaunch
          (s.launchKeyOf (n / 8)) { s.launch (s.launchKeyOf (n / 8)) with faulted := true } with mem := m, badWords := b, vfs := v } := by
  have hne : ({ s.strand n with run := .parked, cause := causeOf info 19, fence := none, hyIssue := none, walk := none } : Strand) ≠ {} := by
    intro e; have := congrArg Strand.run e; simp at this
  unfold State.park
  rw [State.endTask_of_none]
  · exact State.parkedEvent_eq _
  · rw [State.parkedEvent_strand, State.setLaunch_strand, State.setStrand_strand_self _ hne]
    exact h

/-- A strand is parked with CODE 19 (R206). -/
theorem State.park_strand_of_idle {n info : Nat} (h : (s.strand n).task = none) :
    (s.park n info).strand n =
      { s.strand n with run := .parked, cause := causeOf info 19, fence := none, hyIssue := none, walk := none } := by
  obtain ⟨m, b, v, e⟩ := State.park_of_idle info h
  rw [e]
  refine State.setStrand_strand_self _ ?_
  intro e; have := congrArg Strand.run e; simp at this

/-! Messages. -/

theorem State.send_net (src : Nat) (home : Home) (body : Body) :
    (s.send src home body).net = s.net ++ [{ id := s.fresh, src := src, home := home, addr := 0, body := body }] := rfl

end Sys2Proof.Machine
end

