-- ==== Sys2Proof/Laws/Step.lean ====
section
/-! SUPPORT. What one step of the package can be. -/

namespace Sys2Proof.Machine

variable {s : State}

/-- The state in which a strand's slot is at hand. -/
abbrev State.atSlot (s : State) (c : Nat) : State := { s with cur := c, cursor := c / 8 + 1 }

/-- After the last strand of a cycle: what closes it, and then it passes. -/
theorem strandTurn_close (hc : nextStrand s = none) :
    strandTurn s = match endDue s with
      | some (i, a) => exec i { s with arg := a }
      | none => .next (passCycle s) := by
  unfold strandTurn
  split
  · rfl
  next e => rw [hc] at e; cases e

theorem strandTurn_pass (hc : nextStrand s = none) (he : endDue s = none) : strandTurn s = .next (passCycle s) := by
  rw [strandTurn_close hc, he]

theorem strandTurn_slot {c : Nat} (hc : nextStrand s = some c) :
    strandTurn s = match slotAct (s.atSlot c) with
      | .idle => .next (s.atSlot c)
      | .event i => exec i (s.atSlot c)
      | .trap code info bad => .next ((s.atSlot c).takeTrap code info bad)
      | .freeze kind addr => .next ((s.atSlot c).freeze c kind addr)
      | .run i => exec i (s.atSlot c) := by
  unfold strandTurn
  split
  next e => rw [hc] at e; cases e
  next d e =>
    rw [hc] at e
    injection e with e
    subst e
    rfl

/-- A step whose instant has come is taken before anything else. -/
theorem step_due {i : Instr} {a : Args} (h : startDue s = some (i, a)) : step s = exec i { s with arg := a } := by
  unfold step
  rw [h]

theorem step_agenda {i : Instr} {a : Args} {rest : List (Instr × Args)} (h0 : startDue s = none) (h : s.agenda = (i, a) :: rest) :
    step s = if externalStep i then exec i { s with agenda := rest, arg := a } else strandTurn { s with agenda := rest } := by
  unfold step
  rw [h0]
  dsimp only
  rw [h]

theorem step_internal {i : Instr} {a : Args} (h0 : startDue s = none) (h : s.agenda = []) (hn : nextInternal s = some (i, a)) :
    step s = exec i { s with arg := a } := by
  unfold step
  rw [h0]
  dsimp only
  rw [h]
  dsimp only
  rw [hn]

theorem step_turn (h0 : startDue s = none) (h : s.agenda = []) (hn : nextInternal s = none) : step s = strandTurn s := by
  unfold step
  rw [h0]
  dsimp only
  rw [h]
  dsimp only
  rw [hn]

theorem step_pass (h0 : startDue s = none) (h : s.agenda = []) (hn : nextInternal s = none) (hc : nextStrand s = none)
    (he : endDue s = none) : step s = .next (passCycle s) := by
  rw [step_turn h0 h hn, strandTurn_pass hc he]

/-- The strands' turn executes an instruction or a slot's event, takes a trap, freezes a strand, lets a slot pass, closes a cycle, or lets a
cycle pass. -/
theorem strandTurn_cases {t : State} (h : strandTurn s = .next t) :
    (∃ (i : Instr) (c : Nat), exec i (s.atSlot c) = .next t) ∨
    (∃ c code info bad, t = (s.atSlot c).takeTrap code info bad) ∨
    (∃ c kind addr, t = (s.atSlot c).freeze c kind addr) ∨
    (∃ c, t = s.atSlot c) ∨ (∃ (i : Instr) (a : Args), exec i { s with arg := a } = .next t) ∨ t = passCycle s := by
  cases hc : nextStrand s with
  | none =>
    rw [strandTurn_close hc] at h
    split at h
    · exact .inr (.inr (.inr (.inr (.inl ⟨_, _, h⟩))))
    · injection h with h; exact .inr (.inr (.inr (.inr (.inr h.symm))))
  | some c =>
    rw [strandTurn_slot hc] at h
    split at h
    · injection h with h; exact .inr (.inr (.inr (.inl ⟨c, h.symm⟩)))
    · exact .inl ⟨_, c, h⟩
    · injection h with h; exact .inr (.inl ⟨c, _, _, _, h.symm⟩)
    · injection h with h; exact .inr (.inr (.inl ⟨c, _, _, h.symm⟩))
    · exact .inl ⟨_, c, h⟩

/-- Every step is a step of another agent or the strands' turn. -/
theorem step_cases {t : State} (h : step s = .next t) :
    (∃ (i : Instr) (a : Args) (rest : List (Instr × Args)), exec i { s with agenda := rest, arg := a } = .next t) ∨
    ∃ rest : List (Instr × Args), strandTurn { s with agenda := rest } = .next t := by
  cases h0 : startDue s with
  | some p => rw [step_due h0] at h; exact .inl ⟨p.1, p.2, s.agenda, h⟩
  | none =>
    cases ha : s.agenda with
    | cons p rest =>
      rw [step_agenda h0 ha] at h
      split at h
      · exact .inl ⟨_, _, _, h⟩
      · exact .inr ⟨rest, h⟩
    | nil =>
      have he : ({ s with agenda := [] } : State) = s := by rw [← ha]
      cases hn : nextInternal s with
      | some p => rw [step_internal h0 ha hn] at h; exact .inl ⟨p.1, p.2, [], by rw [← h, ← ha]⟩
      | none => rw [step_turn h0 ha hn] at h; exact .inr ⟨[], by rw [he]; exact h⟩

end Sys2Proof.Machine
end

