-- ==== Sys2Proof/Safety.lean ====
section
/-! DEFINITION. What counts as a safe run: the machine never stops, and its memories keep their canonical form. -/

namespace Sys2Proof

open Machine

/-- A step of this machine always answers a next state: no instruction is refused and nothing faults. -/
def Safe (s : State) : Prop := ∃ t, step s = .next t

end Sys2Proof
end

