-- ==== Sys2Proof/Tests/Slice0.lean ====
section
/-! SUPPORT. Tests: ill-formed terms that each check refuses; words of every instruction; for each statement states and operands that
meet its hypotheses; and single steps whose results come from the spec's worked examples or from a calculation by hand. -/

namespace Sys2Proof.Tests

open Sys2Proof.Machine Sys2Proof.Claims

set_option Elab.async false

/-! Helpers. -/

def allTrue : List Bool → Bool
  | [] => true
  | b :: r => b && allTrue r

/-- The decoder reads the instruction from the word. -/
def reads (n w : Nat) (i : Instr) : Bool := decodeTableWord n w == some i

/-- Strand 0 of tile 0 at address 0, in a launch of one tile: XB 4096, SCR 65,536. -/
def base : State := State.reset.withFetchWord 128 0

/-- Scalar registers set. -/
def withX (s : State) (l : List (Nat × Word)) : State := s.setMe (l.foldl (fun r p => writeX r p.1 p.2) s.me)

/-- Vector registers with one value in every element of a width. -/
def splat (b v : Nat) : VReg := packV b (List.replicate (2048 / b) v)
def withV (s : State) (l : List (Nat × VReg)) : State := s.setMe (l.foldl (fun r p => writeV r p.1 p.2) s.me)

/-- Bytes of a local store and of device memory set. -/
def withStore (s : State) (tile a n v : Nat) : State :=
  s.setTile tile { s.tile tile with store := writeBytes (s.tile tile).store a (natToBytes n v) }

/-- A predicate of the next state of an instruction. -/
def after? (i : Instr) (s : State) (p : State → Bool) : Bool :=
  match exec i s with
  | .next t => p t
  | _ => false

/-- The instruction completes with a value in x5. -/
def gives (i : Instr) (s : State) (v : Word) : Bool := after? i s fun t => readX t.me 5 == v && t.me.pc == 8

/-- A long-class instruction issues with a value on its way. -/
def gives' (i : Instr) (s : State) (v : Word) : Bool := after? i s fun t => readX t.me 5 == v

def starts (i : Instr) (s : State) (v : Nat) : Bool := after? i s fun t => t.me.longs.map (fun o => o.data.toNat) == [v]

/-- The instruction traps: CODE, INFO and BADADDR. -/
def traps (i : Instr) (s : State) (code info : Nat) (bad : Word) : Bool :=
  after? i s fun t => t.me.cause == causeOf info code && t.me.badaddr == bad && t.me.pc == BitVec.ofNat 32 (64 * code)

/-- Operands of the scalar tests: D = 5, A = 1, B = 2, C = 3. -/
def fld (fmt : BitVec 5) : Fields := { d := 5, a := 1, b := 2, c := 3, fmt := fmt }

/-! Well-formedness: a term for each check that only that check refuses (R81, R82, R92, R98). -/

/-- The checks of steps 4, 5 and 6. -/
def checks (i : Instr) : Bool × Bool × Bool := (i.check4, i.check5, i.check6)

/-- Step 4: the length, and the H, HI combination. -/
theorem test_ill_formed_lengths :
    allTrue [checks (.li { d := 1 }) == (false, true, true), checks (.mov { d := 1, a := 2, ext := .imm32 0 }) == (false, true, true),
      checks (.br { ext := .imm64 0 }) == (false, true, true), checks (.cp {}) == (false, true, true),
      checks (.ld { d := 1, fmt := 6, hi := true }) == (false, true, true),
      checks (.ld { d := 1, fmt := 6, h := true, hi := true }) == (false, true, true),
      checks (.ld { d := 1, fmt := 6, ext := .imm64 0 }) == (false, true, true),
      checks (.atCas { d := 1, b := 2, c := 3, fmt := 6, h := true }) == (false, true, true),
      checks (.l1Wb { a := 1 }) == (false, true, true)] = true := by decide

/-- Step 5: registers out of their kind, unused fields, RM, S, masks, immediates and formats 17 to 31. -/
theorem test_ill_formed_fields :
    allTrue [checks (.vAdd { d := 36, fmt := 10 }) == (true, false, true), checks (.kmov { d := 8 }) == (true, false, true),
      checks (.wSet { d := 4 }) == (true, false, true), checks (.oRel { a := 8 }) == (true, false, true),
      checks (.mZero { d := 2 }) == (true, false, true), checks (.vHist { d := 4, fmt := 10 }) == (true, false, true),
      checks (.qClose { d := 31 }) == (true, false, true), checks (.atCas2 { d := 1, b := 2, c := 4, fmt := 6 }) == (true, false, true),
      checks (.vLd { d := 32 }) == (true, false, true), checks (.vSqrt { d := 32, fmt := 10 }) == (true, false, true),
      checks (.mov { d := 1, b := 1 }) == (true, false, true), checks (.mov { d := 1, rm := 1 }) == (true, false, true),
      checks (.fAdd { rm := 6, fmt := 10 }) == (true, false, true), checks (.ldAcq { rm := 5, fmt := 6 }) == (true, false, true),
      checks (.and { s := true, fmt := 4 }) == (true, false, true), checks (.vSel { zm := true }) == (true, false, true),
      checks (.vCmpEq { k := 1, fmt := 4 }) == (true, false, true), checks (.mov { imm10 := 1 }) == (true, false, true),
      checks (.add { fmt := 17 }) == (true, false, false), checks (.mov { fmt := 4 }) == (true, false, true),
      checks (.nop { ext := .imm32 1 }) == (true, false, true)] = true := by decide

/-- Step 5: the checks that single instructions make. -/
theorem test_ill_formed_operands :
    allTrue [checks (.fCvt { fmt := 10, imm10 := 17 }) == (true, false, false),
      checks (.vCvt { fmt := 10, imm10 := 266 }) == (true, false, true), checks (.vAbs { s := true, fmt := 10 }) == (true, false, true),
      checks (.vCmpUn { fmt := 4 }) == (true, false, true), checks (.vCmpLo { fmt := 10 }) == (true, false, true),
      checks (.laGetw { imm10 := 11 }) == (true, false, true), checks (.mCmp { fmt := 13 }) == (true, false, true),
      checks (.mMma { fmt := 0, ext := .imm64 0x2000 }) == (true, false, true), checks (.wStep { imm10 := 0 }) == (true, false, true),
      checks (.wVal { imm10 := 3 }) == (true, false, true), checks (.vTdec { fmt := 10, imm10 := 8 }) == (true, false, false),
      checks (.cp { ext := .imm64 0x0000000000000001 }) == (true, false, true),
      checks (.cp { ext := .imm64 0x0000080000000000 }) == (true, false, true),
      checks (.cp { s := true, ext := .imm64 0x008A00000000 }) == (true, false, true), checks (.sysCallEcho { imm10 := 1 }) == (true, false, true),
      checks (.ctlRd { imm10 := 39 }) == (true, false, true), checks (.ctlWr { imm10 := 3 }) == (true, false, true)] = true := by decide

/-- Step 6: formats and pairs of formats. -/
theorem test_ill_formed_formats :
    allTrue [checks (.add { fmt := 0 }) == (true, true, false), checks (.fAdd { fmt := 13 }) == (true, true, false),
      checks (.vAdd { fmt := 6 }) == (true, true, false), checks (.fCvt { fmt := 10, imm10 := 4 }) == (true, true, false),
      checks (.vCvti { fmt := 10, imm10 := 10 }) == (true, true, false), checks (.vDot4 { imm10 := 4 }) == (true, true, false),
      checks (.mMma { fmt := 0, ext := .imm64 0xD00 }) == (true, true, false),
      checks (.mMmt { fmt := 13, ext := .imm64 0x8F00 }) == (true, true, false), checks (.vTdec { fmt := 10 }) == (true, true, false),
      checks (.cp { ext := .imm64 0x14600000000 }) == (true, true, false), checks (.atFadd { fmt := 6 }) == (true, true, false)] = true := by decide

/-- The steps that no word names are not well formed. -/
theorem test_ill_formed_events : allTrue [checks .overlayFetch == (false, false, false), Instr.WellFormed .launchStart == false] = true := by decide

/-! Decoding: words written out from the encoding tables. -/

/-- Words of R80, R87 to R94 with the fields of the scalar tables. -/
theorem test_decode_scalar :
  allTrue [reads 64 0x0000000000000000 (.nop {}),
   reads 64 0x01C020008FD10404 (.add { d := 1, a := 17, b := 63, s := true, fmt := 4, imm10 := 7 }),
   reads 64 0x10C028008F920808 (.sub { d := 2, a := 18, b := 62, s := true, fmt := 5, imm10 := 67 }),
   reads 64 0x1FC030008F530C0C (.mul { d := 3, a := 19, b := 61, s := true, fmt := 6, imm10 := 127 }),
   reads 64 0x2EC038000F141010 (.mulh { d := 4, a := 20, b := 60, fmt := 7, imm10 := 187 }),
   reads 64 0x3DC020008ED51414 (.div { d := 5, a := 21, b := 59, s := true, fmt := 4, imm10 := 247 }),
   reads 64 0x4CC028000E961818 (.rem { d := 6, a := 22, b := 58, fmt := 5, imm10 := 307 }),
   reads 64 0x5BC030000E571C1C (.min { d := 7, a := 23, b := 57, fmt := 6, imm10 := 367 })] = true ∧
  allTrue [reads 64 0x6AC038000E182020 (.max { d := 8, a := 24, b := 56, fmt := 7, imm10 := 427 }),
   reads 64 0x79C020000DD92424 (.and { d := 9, a := 25, b := 55, fmt := 4, imm10 := 487 }),
   reads 64 0x88C028000D9A2828 (.or { d := 10, a := 26, b := 54, fmt := 5, imm10 := 547 }),
   reads 64 0x97C030000D5B2C2C (.xor { d := 11, a := 27, b := 53, fmt := 6, imm10 := 607 }),
   reads 64 0xA6C038000D1C3030 (.andn { d := 12, a := 28, b := 52, fmt := 7, imm10 := 667 }),
   reads 64 0xB5C020008CDD3434 (.shl { d := 13, a := 29, b := 51, s := true, fmt := 4, imm10 := 727 }),
   reads 64 0xC4C028000C9E3838 (.shr { d := 14, a := 30, b := 50, fmt := 5, imm10 := 787 }),
   reads 64 0xD3C030000C5F3C3C (.rot { d := 15, a := 31, b := 49, fmt := 6, imm10 := 847 })] = true ∧
  allTrue [reads 64 0x0040200002401440 (.clz { d := 5, b := 9, fmt := 4, imm10 := 1 }),
   reads 64 0x0040280002401844 (.ctz { d := 6, b := 9, fmt := 5, imm10 := 1 }),
   reads 64 0x0040300002401C48 (.popc { d := 7, b := 9, fmt := 6, imm10 := 1 }),
   reads 64 0xFFC0000081C8244C (.bext { d := 9, a := 8, b := 7, s := true, imm10 := 1023 }),
   reads 64 0x8000000001C82450 (.bins { d := 9, a := 8, b := 7, imm10 := 512 }),
   reads 64 0x0080400001000C54 (.sext { d := 3, b := 4, fmt := 8, imm10 := 2 }),
   reads 96 0xFFFFFFFE0000000000003059 (.li { d := 12, ext := .imm32 4294967294 }),
   reads 128 0x123456789ABCDEF0000000000000305A (.li { d := 12, ext := .imm64 0x123456789ABCDEF0 })] = true ∧
  allTrue [reads 64 0x0100000000C2045C (.lea { d := 1, a := 2, b := 3, imm10 := 4 }),
   reads 64 0x000000000029A060 (.mov { d := 40, a := 41 }),
   reads 64 0x0000002C00C20464 (.sel { d := 1, a := 2, b := 3, c := 44 }),
   reads 64 0x0140000000C20468 (.setEq { d := 1, a := 2, b := 3, imm10 := 5 }),
   reads 64 0x0141000000C20868 (.setNe { d := 2, a := 2, b := 3, imm10 := 5 }),
   reads 64 0x0142000000C20C68 (.setLt { d := 3, a := 2, b := 3, imm10 := 5 }),
   reads 64 0x0143000000C21068 (.setGe { d := 4, a := 2, b := 3, imm10 := 5 }),
   reads 64 0x0144000000C21468 (.setLo { d := 5, a := 2, b := 3, imm10 := 5 })] = true ∧
  allTrue [reads 64 0x0145000000C21868 (.setHs { d := 6, a := 2, b := 3, imm10 := 5 }),
   reads 64 0x0146000000C21C68 (.setLe { d := 7, a := 2, b := 3, imm10 := 5 }),
   reads 64 0x0147000000C22068 (.setGt { d := 8, a := 2, b := 3, imm10 := 5 }),
   reads 64 0x0148000000C22468 (.setLs { d := 9, a := 2, b := 3, imm10 := 5 }),
   reads 64 0x0149000000C22868 (.setHi { d := 10, a := 2, b := 3, imm10 := 5 }),
   reads 64 0x0000000000211C6C (.kmov { d := 7, a := 33 }),
   reads 64 0x0000000000078470 (.kget { d := 33, a := 7 }),
   reads 64 0x0000000001C20474 (.kopAnd { d := 1, a := 2, b := 7 })] = true ∧
  allTrue [reads 64 0x0001000001C20474 (.kopOr { d := 1, a := 2, b := 7 }),
   reads 64 0x0002000001C20474 (.kopXor { d := 1, a := 2, b := 7 }),
   reads 64 0x0003000001C20474 (.kopAndn { d := 1, a := 2, b := 7 }),
   reads 64 0x0004000000020474 (.kopNot { d := 1, a := 2 }),
   reads 64 0x0000000000078478 (.kpop { d := 33, a := 7 }),
   reads 64 0x0000000000211C7C (.kfill { d := 7, a := 33 })] = true := by decide

/-- Words of R80, R87 to R94 with the fields of the control tables. -/
theorem test_decode_control :
  allTrue [reads 64 0xFFC0000000000080 (.br { imm10 := 1023 }),
   reads 96 0x000000100000000000000081 (.br { ext := .imm32 16 }),
   reads 64 0x7FC0000002400084 (.bEq { b := 9, imm10 := 511 }),
   reads 64 0x7F81000002410084 (.bNe { a := 1, b := 9, imm10 := 510 }),
   reads 64 0x7F42000002420084 (.bLt { a := 2, b := 9, imm10 := 509 }),
   reads 64 0x7F03000002430084 (.bGe { a := 3, b := 9, imm10 := 508 }),
   reads 64 0x7EC4000002440084 (.bLo { a := 4, b := 9, imm10 := 507 }),
   reads 64 0x7E85000002450084 (.bHs { a := 5, b := 9, imm10 := 506 })] = true ∧
  allTrue [reads 64 0x7E46000002460084 (.bLe { a := 6, b := 9, imm10 := 505 }),
   reads 64 0x7E07000002470084 (.bGt { a := 7, b := 9, imm10 := 504 }),
   reads 64 0x7DC8000002480084 (.bLs { a := 8, b := 9, imm10 := 503 }),
   reads 64 0x7D89000002490084 (.bHi { a := 9, b := 9, imm10 := 502 }),
   reads 64 0x0000000000050088 (.jr { a := 5 }),
   reads 64 0x00C0000000007C8C (.call { d := 31, imm10 := 3 }),
   reads 64 0x0000000000047C90 (.callr { d := 31, a := 4 }),
   reads 64 0x00000000001F0094 (.ret { a := 31 })] = true ∧
  allTrue [reads 64 0xFC00000000001C98 (.loop { d := 7, imm10 := 1008 }),
   reads 64 0x00000000000004A0 (.dtRd { d := 1 }),
   reads 64 0x00000000000204A4 (.dtUntil { d := 1, a := 2 }),
   reads 64 0x0000500010C204C0 (.fAdd { d := 1, a := 2, b := 3, rm := 1, fmt := 10 }),
   reads 64 0x00008000A0C204C4 (.fSub { d := 1, a := 2, b := 3, s := true, rm := 2, fmt := 16 }),
   reads 64 0x0000600030C204C8 (.fMul { d := 1, a := 2, b := 3, rm := 3, fmt := 12 }),
   reads 64 0x0000580450C204CC (.fFma { d := 1, a := 2, b := 3, c := 4, rm := 5, fmt := 11 }),
   reads 64 0x0000800080C204D0 (.fDiv { d := 1, a := 2, b := 3, s := true, fmt := 16 })] = true ∧
  allTrue [reads 64 0x00005000200204D4 (.fSqrt { d := 1, a := 2, rm := 2, fmt := 10 }),
   reads 64 0x03402000A00204D8 (.fCvt { d := 1, a := 2, s := true, rm := 2, fmt := 4, imm10 := 13 }),
   reads 64 0x01C08000200204F0 (.fCvti { d := 1, a := 2, rm := 2, fmt := 16, imm10 := 7 }),
   reads 64 0x0000800000C204DC (.fCmpEq { d := 1, a := 2, b := 3, fmt := 16 }),
   reads 64 0x0001800000C204DC (.fCmpNe { d := 1, a := 2, b := 3, fmt := 16 }),
   reads 64 0x0002800000C204DC (.fCmpLt { d := 1, a := 2, b := 3, fmt := 16 }),
   reads 64 0x0003800000C204DC (.fCmpGe { d := 1, a := 2, b := 3, fmt := 16 }),
   reads 64 0x0006800000C204DC (.fCmpLe { d := 1, a := 2, b := 3, fmt := 16 })] = true ∧
  allTrue [reads 64 0x0007800000C204DC (.fCmpGt { d := 1, a := 2, b := 3, fmt := 16 }),
   reads 64 0x000A800000C204DC (.fCmpUn { d := 1, a := 2, b := 3, fmt := 16 }),
   reads 64 0x000B800000C204DC (.fCmpOrd { d := 1, a := 2, b := 3, fmt := 16 }),
   reads 64 0x0000500000C204E0 (.fMin { d := 1, a := 2, b := 3, fmt := 10 }),
   reads 64 0x0000500000C204E4 (.fMax { d := 1, a := 2, b := 3, fmt := 10 }),
   reads 64 0x00005000000204E8 (.fAbs { d := 1, a := 2, fmt := 10 }),
   reads 64 0x00005000000204EC (.fNeg { d := 1, a := 2, fmt := 10 })] = true := by decide

/-- Words of R80, R87 to R94 with the fields of the vector tables. -/
theorem test_decode_vector :
  allTrue [reads 64 0x0000174087E08D00 (.vAdd { d := 35, a := 32, b := 31, s := true, k := 5, kn := true, zm := true, fmt := 2 }),
   reads 64 0x00001F4087E08D04 (.vSub { d := 35, a := 32, b := 31, s := true, k := 5, kn := true, zm := true, fmt := 3 }),
   reads 64 0x0000274087E08D08 (.vMul { d := 35, a := 32, b := 31, s := true, k := 5, kn := true, zm := true, fmt := 4 }),
   reads 64 0x0000502341440D0C (.vFma { d := 3, a := 4, b := 5, c := 35, rm := 4, fmt := 10 }),
   reads 64 0x0000586341440D10 (.vFms { d := 3, a := 4, b := 5, c := 35, rm := 4, k := 1, fmt := 11 }),
   reads 64 0x000060A341440D14 (.vFnma { d := 3, a := 4, b := 5, c := 35, rm := 4, k := 2, fmt := 12 }),
   reads 64 0x0000640001440D18 (.vMin { d := 3, a := 4, b := 5, zm := true, fmt := 12 }),
   reads 64 0x0000640001440D1C (.vMax { d := 3, a := 4, b := 5, zm := true, fmt := 12 })] = true ∧
  allTrue [reads 64 0x0000200080040D20 (.vAbs { d := 3, a := 4, s := true, fmt := 4 }),
   reads 64 0x0000180080040D24 (.vNeg { d := 3, a := 4, s := true, fmt := 3 }),
   reads 64 0x0000674081637D28 (.vDiv { d := 31, a := 35, b := 5, s := true, k := 5, kn := true, zm := true, fmt := 12 }),
   reads 64 0x0000500030237D2C (.vSqrt { d := 31, a := 35, rm := 3, fmt := 10 }),
   reads 64 0x00005000001F0130 (.vRcp { a := 31, fmt := 10 }),
   reads 64 0x00005800901F0534 (.vRsq { d := 1, a := 31, s := true, rm := 1, fmt := 11 }),
   reads 64 0x00006000201F0938 (.vExp2 { d := 2, a := 31, rm := 2, fmt := 12 }),
   reads 64 0x00005000B01F0D3C (.vLog2 { d := 3, a := 31, s := true, rm := 3, fmt := 10 })] = true ∧
  allTrue [reads 64 0x00005800401F1140 (.vSin { d := 4, a := 31, rm := 4, fmt := 11 }),
   reads 64 0x00006000D01F1544 (.vCos { d := 5, a := 31, s := true, rm := 5, fmt := 12 }),
   reads 64 0x00005000001F1948 (.vTanh { d := 6, a := 31, fmt := 10 }),
   reads 64 0x00005800901F1D4C (.vSig { d := 7, a := 31, s := true, rm := 1, fmt := 11 }),
   reads 64 0x1A806800D0040D50 (.vCvt { d := 3, a := 4, s := true, rm := 5, fmt := 13, imm10 := 106 }),
   reads 64 0x3A00500010040D54 (.vCvti { d := 3, a := 4, rm := 1, fmt := 10, imm10 := 232 }),
   reads 64 0x0000280001441958 (.vCmpEq { d := 6, a := 4, b := 5, fmt := 5 }),
   reads 64 0x0001280001441958 (.vCmpNe { d := 6, a := 4, b := 5, fmt := 5 })] = true ∧
  allTrue [reads 64 0x0002280001441958 (.vCmpLt { d := 6, a := 4, b := 5, fmt := 5 }),
   reads 64 0x0003280001441958 (.vCmpGe { d := 6, a := 4, b := 5, fmt := 5 }),
   reads 64 0x0004280001441958 (.vCmpLo { d := 6, a := 4, b := 5, fmt := 5 }),
   reads 64 0x0005280001441958 (.vCmpHs { d := 6, a := 4, b := 5, fmt := 5 }),
   reads 64 0x0006280001441958 (.vCmpLe { d := 6, a := 4, b := 5, fmt := 5 }),
   reads 64 0x0007280001441958 (.vCmpGt { d := 6, a := 4, b := 5, fmt := 5 }),
   reads 64 0x0008280001441958 (.vCmpLs { d := 6, a := 4, b := 5, fmt := 5 }),
   reads 64 0x0009280001441958 (.vCmpHi { d := 6, a := 4, b := 5, fmt := 5 })] = true ∧
  allTrue [reads 64 0x000A500001441958 (.vCmpUn { d := 6, a := 4, b := 5, fmt := 10 }),
   reads 64 0x000B500001441958 (.vCmpOrd { d := 6, a := 4, b := 5, fmt := 10 }),
   reads 64 0x000002C001440D5C (.vSel { d := 3, a := 4, b := 5, k := 3, kn := true }),
   reads 64 0x0000000001440D60 (.vAnd { d := 3, a := 4, b := 5 }),
   reads 64 0x0000004001440D64 (.vOr { d := 3, a := 4, b := 5, k := 1 }),
   reads 64 0x0000008001440D68 (.vXor { d := 3, a := 4, b := 5, k := 2 }),
   reads 64 0x000000C001440D6C (.vAndn { d := 3, a := 4, b := 5, k := 3 }),
   reads 64 0x0000100081440D70 (.vShl { d := 3, a := 4, b := 5, s := true, fmt := 2 })] = true ∧
  allTrue [reads 64 0x0000180001440D74 (.vShr { d := 3, a := 4, b := 5, fmt := 3 }),
   reads 64 0x0000200001440D78 (.vRot { d := 3, a := 4, b := 5, fmt := 4 }),
   reads 64 0x0000280000040D7C (.vClz { d := 3, a := 4, fmt := 5 }),
   reads 64 0x0040000681440D80 (.vDot4 { d := 3, a := 4, b := 5, c := 6, s := true, imm10 := 1 }),
   reads 64 0x0200480601440D84 (.vDot8 { d := 3, a := 4, b := 5, c := 6, fmt := 9, imm10 := 8 }),
   reads 64 0x0000208080040D88 (.vRedAdd { d := 3, a := 4, s := true, k := 2, fmt := 4 }),
   reads 64 0x0001208000040D88 (.vRedMin { d := 3, a := 4, k := 2, fmt := 4 }),
   reads 64 0x0002208000040D88 (.vRedMax { d := 3, a := 4, k := 2, fmt := 4 })] = true ∧
  allTrue [reads 64 0x0003208000040D88 (.vRedAnd { d := 3, a := 4, k := 2, fmt := 4 }),
   reads 64 0x0004208000040D88 (.vRedOr { d := 3, a := 4, k := 2, fmt := 4 }),
   reads 64 0x0005208000040D88 (.vRedXor { d := 3, a := 4, k := 2, fmt := 4 }),
   reads 64 0x00002C0000040D8C (.vScanAdd { d := 3, a := 4, zm := true, fmt := 5 }),
   reads 64 0x00012C0000040D8C (.vScanMin { d := 3, a := 4, zm := true, fmt := 5 }),
   reads 64 0x00022C0000040D8C (.vScanMax { d := 3, a := 4, zm := true, fmt := 5 }),
   reads 64 0x00082C0000040D8C (.vScanXadd { d := 3, a := 4, zm := true, fmt := 5 }),
   reads 64 0x00092C0000040D8C (.vScanXmin { d := 3, a := 4, zm := true, fmt := 5 })] = true ∧
  allTrue [reads 64 0x000A2C0000040D8C (.vScanXmax { d := 3, a := 4, zm := true, fmt := 5 }),
   reads 64 0x0000180001440D90 (.vPerm { d := 3, a := 4, b := 5, fmt := 3 }),
   reads 64 0x024028000F040D94 (.vBcast { d := 3, a := 4, b := 60, fmt := 5, imm10 := 9 }),
   reads 64 0x00002800003C0D98 (.vSplat { d := 3, a := 60, fmt := 5 }),
   reads 64 0x024058000F44F19C (.vExt { d := 60, a := 4, b := 61, fmt := 11, imm10 := 9 }),
   reads 64 0x024018000F7C0DA0 (.vIns { d := 3, a := 60, b := 61, fmt := 3, imm10 := 9 }),
   reads 64 0xFFC01000003C0DA4 (.vIota { d := 3, a := 60, fmt := 2, imm10 := 1023 }),
   reads 64 0x00000740002285A8 (.vMov { d := 33, a := 34, k := 5, kn := true, zm := true })] = true ∧
  allTrue [reads 64 0x0000024000040DAC (.vCpr { d := 3, a := 4, k := 1, kn := true }),
   reads 64 0x0000044000040DB0 (.vExpd { d := 3, a := 4, k := 1, zm := true }),
   reads 64 0x0000500000230DB4 (.vHist { d := 3, a := 35, fmt := 10 }),
   reads 64 0x0000000080038DB4 (.vHistGet { d := 35, a := 3, s := true }),
   reads 64 0x0000500001441DB8 (.vAccept { d := 7, a := 4, b := 5, fmt := 10 }),
   reads 64 0x000050000144F1BC (.vDraw { d := 60, a := 4, b := 5, fmt := 10 }),
   reads 64 0x00003800003C01C0 (.laAdd { a := 60, fmt := 7 }),
   reads 64 0x00000000000001C4 (.laNorm {})] = true ∧
  allTrue [reads 64 0x00008000B000F1C8 (.laRd { d := 60, s := true, rm := 3, fmt := 16 }),
   reads 64 0x00000000000001CC (.laClr {}),
   reads 64 0x028000000000F1D0 (.laGetw { d := 60, imm10 := 10 }),
   reads 64 0x01800000003C01D4 (.laSetw { a := 60, imm10 := 6 }),
   reads 64 0x000F0000000001F8 (.vHint 15 {})] = true := by decide

/-- Words of R80, R87 to R94 with the fields of the matrix tables. -/
theorem test_decode_matrix :
  allTrue [reads 64 0x000000000007F200 (.oClaim { d := 60, a := 7 }),
   reads 64 0x0000000000070204 (.oRel { a := 7 }),
   reads 128 0x0000000000000EEA000068009000020A (.mMma { s := true, rm := 1, fmt := 13, ext := .imm64 0xEEA }),
   reads 128 0x0000000000000111000000000000020E (.mMms { ext := .imm64 0x111 }),
   reads 128 0x000000000000CF310000680000000212 (.mMmt { fmt := 13, ext := .imm64 0xCF31 }),
   reads 64 0x0000700000061E14 (.mCmp { d := 7, a := 6, fmt := 14 }),
   reads 64 0x0000000000000618 (.mZero { d := 1 }),
   reads 64 0xFFC000000F018E1C (.mRd { d := 35, a := 1, b := 60, imm10 := 1023 })] = true ∧
  allTrue [reads 64 0x004000000F230620 (.mWr { d := 1, a := 35, b := 60, imm10 := 1 }),
   reads 64 0x000000000007F224 (.oTst { d := 60, a := 7 }),
   reads 64 0x00000000003C0E28 (.wSet { d := 3, a := 60 }),
   reads 64 0x00C00000003C0E2C (.wStep { d := 3, a := 60, imm10 := 3 }),
   reads 64 0x008000000003F230 (.wVal { d := 60, a := 3, imm10 := 2 }),
   reads 64 0x01807F400F070E34 (.vTdec { d := 3, a := 7, b := 60, k := 5, kn := true, zm := true, fmt := 15, imm10 := 6 }),
   reads 64 0x004000000F7C0238 (.tEnc { a := 60, b := 61, imm10 := 1 })] = true := by decide

/-- Words of R80, R87 to R94 with the fields of the memory tables. -/
theorem test_decode_memory :
  allTrue [reads 64 0xFE00000001C61680 (.ld { d := 5, a := 6, b := 7, imm10 := 1016 }),
   reads 64 0x0220800801C61684 (.st { d := 5, a := 6, b := 7, c := 8, fmt := 16, imm10 := 8, h := true }),
   reads 64 0x0100074001C67E88 (.vLd { d := 31, a := 6, b := 7, k := 5, kn := true, zm := true, imm10 := 4 }),
   reads 64 0x0100000001C68E8C (.vSt { d := 35, a := 6, b := 7, imm10 := 4 }),
   reads 64 0x0120008807867E90 (.vGat { d := 31, a := 6, b := 30, c := 8, k := 2, imm10 := 4, h := true }),
   reads 64 0x0100000007868E94 (.vSct { d := 35, a := 6, b := 30, imm10 := 4 }),
   reads 64 0x0000300041C61698 (.ldAcq { d := 5, a := 6, b := 7, rm := 4, fmt := 6 }),
   reads 64 0x0000200021C6169C (.stRel { d := 5, a := 6, b := 7, rm := 2, fmt := 4 })] = true ∧
  allTrue [reads 64 0x00003009B1C6169C (.stRelCmp { d := 5, a := 6, b := 7, c := 9, s := true, rm := 3, fmt := 6 }),
   reads 64 0x0400200001C616A0 (.atAdd { d := 5, a := 6, b := 7, fmt := 4, imm10 := 16 }),
   reads 64 0x0401280001C616A0 (.atAnd { d := 5, a := 6, b := 7, fmt := 5, imm10 := 16 }),
   reads 64 0x0402300001C616A0 (.atOr { d := 5, a := 6, b := 7, fmt := 6, imm10 := 16 }),
   reads 64 0x0403380001C616A0 (.atXor { d := 5, a := 6, b := 7, fmt := 7, imm10 := 16 }),
   reads 64 0x0404200001C616A0 (.atMin { d := 5, a := 6, b := 7, fmt := 4, imm10 := 16 }),
   reads 64 0x0405280001C616A0 (.atMax { d := 5, a := 6, b := 7, fmt := 5, imm10 := 16 }),
   reads 64 0x0406300001C616A0 (.atSwp { d := 5, a := 6, b := 7, fmt := 6, imm10 := 16 })] = true ∧
  allTrue [reads 64 0x0007300801C616A0 (.atCas { d := 5, a := 6, b := 7, c := 8, fmt := 6 }),
   reads 64 0x0008600001C616A0 (.atFadd { d := 5, a := 6, b := 7, fmt := 12 }),
   reads 64 0x00003008018A12A4 (.atCas2 { d := 4, a := 10, b := 6, c := 8, fmt := 6 }),
   reads 128 0x0047F1AA000000020000000FD38D0EB2 (.cp { d := 3, a := 13, b := 14, c := 15, s := true, rm := 5, ext := .imm64 0x47F1AA00000002 }),
   reads 64 0x08000000000682B4 (.qOpen { d := 32, a := 6, imm10 := 32 }),
   reads 64 0x00000000000086B8 (.qClose { d := 33 }),
   reads 64 0x0000000000008EBC (.qFlush { d := 35 }),
   reads 64 0x0120000801C602C0 (.l1Wb { a := 6, b := 7, c := 8, imm10 := 4, h := true })] = true ∧
  allTrue [reads 64 0x0121000801C602C0 (.l1Inv { a := 6, b := 7, c := 8, imm10 := 4, h := true }),
   reads 64 0x0122000801C602C0 (.l1Wbi { a := 6, b := 7, c := 8, imm10 := 4, h := true }),
   reads 64 0x00040000000002C0 (.l1Wba {}),
   reads 64 0x00050000000002C0 (.l1Inva {}),
   reads 64 0x00060000000002C0 (.l1Wbia {}),
   reads 64 0x00000000000016C4 (.tlRd .tlc { d := 5 }),
   reads 64 0x00000000000616CC (.tlTest .tlc { d := 5, a := 6 }),
   reads 64 0x00010000000016C4 (.tlRd .tlm { d := 5 })] = true ∧
  allTrue [reads 64 0x00010000000602C8 (.tlWait .tlm { a := 6 }),
   reads 64 0x00020000000016C4 (.tlRd .tle { d := 5 }),
   reads 64 0x00020000000616CC (.tlTest .tle { d := 5, a := 6 }),
   reads 64 0x00030000000016C4 (.tlRd .tlg { d := 5 }),
   reads 64 0x00030000000602C8 (.tlWait .tlg { a := 6 })] = true := by decide

/-- Words of R80, R87 to R94 with the fields of the strand tables. -/
theorem test_decode_strand :
  allTrue [reads 64 0x0000000400C20740 (.fork { d := 1, a := 2, b := 3, c := 4 }),
   reads 64 0xFC00000401820744 (.spawn { d := 1, a := 2, b := 6, c := 4, imm10 := 1008 }),
   reads 64 0x0000000000000348 (.halt {}),
   reads 64 0x000000000000034C (.tkWait {}),
   reads 64 0x0000000000C20750 (.tkPush { d := 1, a := 2, b := 3 }),
   reads 64 0x0000000000000354 (.tkDone {}),
   reads 64 0x0000000000C20758 (.tkBatch { d := 1, a := 2, b := 3 }),
   reads 64 0x0000000020C2035C (.gainAdd { a := 2, b := 3, rm := 2 })] = true ∧
  allTrue [reads 64 0x0001000000C2035C (.gainMax { a := 2, b := 3 }),
   reads 64 0x0002000000C2035C (.gainSet { a := 2, b := 3 }),
   reads 64 0x0000000000020360 (.depDec { a := 2 }),
   reads 64 0x00C0000000020364 (.hyArrive { a := 2, imm10 := 3 }),
   reads 64 0x0080000000C20768 (.hyWait { d := 1, a := 2, b := 3, imm10 := 2 }),
   reads 64 0x004000000002076C (.hyTry { d := 1, a := 2, imm10 := 1 }),
   reads 64 0x0000000000000370 (.fenceTile {}),
   reads 64 0x0001000000000370 (.fenceClu {})] = true ∧
  allTrue [reads 64 0x0002000000000370 (.fenceDie {}),
   reads 64 0x0003000000000370 (.fenceDev {}),
   reads 64 0x0004000000000370 (.fenceSys {}),
   reads 64 0x0600000C02CA0374 (.spanOpen { a := 10, b := 11, c := 12, imm10 := 24 }),
   reads 64 0x0000000000000378 (.spanClose {}),
   reads 96 0x000000400000000400C2077D (.lnGo { d := 1, a := 2, b := 3, c := 4, ext := .imm32 64 }),
   reads 64 0xFFC00000000003C0 (.trap { imm10 := 1023 }),
   reads 64 0x00000000000207C4 (.sysCallEcho { d := 1, a := 2 })] = true ∧
  allTrue [reads 64 0x00400000000207C4 (.sysCallTablegen { d := 1, a := 2, imm10 := 1 }),
   reads 64 0x00800000000207C4 (.sysCallPost { d := 1, a := 2, imm10 := 2 }),
   reads 64 0x00C00000000207C4 (.sysCallDefer { d := 1, a := 2, imm10 := 3 }),
   reads 64 0x01000000000207C4 (.sysCallOwned { d := 1, a := 2, imm10 := 4 }),
   reads 64 0x01400000000207C4 (.sysCallUnassigned { d := 1, a := 2, imm10 := 5 }),
   reads 64 0x00000000000003C8 (.eret {}),
   reads 64 0x09800000000017CC (.ctlRd { d := 5, imm10 := 38 }),
   reads 64 0x08400000000503D0 (.ctlWr { a := 5, imm10 := 33 })] = true := by decide

/-! Scalar instructions: hypotheses of the statements, and results. -/

theorem test_hyp_integerArithmetic :
    (∀ c ∈ ([4, 5, 6, 7] : List (BitVec 5)), ScalarIntFmt (fld c) ∧ (fld c).s = false ∧
      ∀ i ∈ ([.add, .sub, .mul, .mulh, .min, .max, .and, .or, .xor, .andn, .shl, .shr, .rot] : List (Fields → Instr)),
        Ready (i (fld c)) base) ∧
    (∀ c ∈ ([4, 5, 6, 7] : List (BitVec 5)), ScalarIntFmt { fld c with s := true } ∧
      ∀ i ∈ ([.add, .sub, .mul, .shl] : List (Fields → Instr)), Ready (i { fld c with s := true }) base) := by decide +kernel

theorem test_integer_arithmetic :
    let s := withX base [(1, 0x7FFFFFFF), (2, 1)]
    let t := withX base [(1, 0xFFFFFFFFFFFFFFF6), (2, 3)]
    allTrue [gives (.add (fld 4)) s 0xFFFFFFFF80000000, gives (.add { fld 4 with s := true }) s 0x7FFFFFFF,
      gives (.add (fld 5)) s 0x80000000, gives (.sub (fld 6)) t 0xFFFFFFFFFFFFFFF3, gives (.sub { fld 7 with s := true }) s 0x7FFFFFFE,
      gives (.mul (fld 4)) t 0xFFFFFFFFFFFFFFE2, gives (.mulh (fld 6)) t 0xFFFFFFFFFFFFFFFF, gives (.mulh (fld 7)) t 2,
      gives (.min (fld 6)) t 0xFFFFFFFFFFFFFFF6, gives (.min (fld 7)) t 3, gives (.max (fld 6)) t 3, gives (.max (fld 7)) t 0xFFFFFFFFFFFFFFF6,
      gives (.and (fld 6)) t 2, gives (.or (fld 6)) t 0xFFFFFFFFFFFFFFF7, gives (.xor (fld 6)) t 0xFFFFFFFFFFFFFFF5,
      gives (.andn (fld 6)) t 0xFFFFFFFFFFFFFFF4, gives (.shl (fld 4)) s 0xFFFFFFFFFFFFFFFE, gives (.shl { fld 4 with s := true }) s 0x7FFFFFFF,
      gives (.shr (fld 6)) t 0xFFFFFFFFFFFFFFFE, gives (.shr (fld 7)) t 0x1FFFFFFFFFFFFFFE, gives (.rot (fld 5)) t 0xFFFFFFB7] = true := by decide +kernel

theorem test_hyp_division :
    (∀ c ∈ ([4, 5, 6, 7] : List (BitVec 5)), ScalarIntFmt (fld c) ∧ Ready (.div (fld c)) base ∧ Ready (.rem (fld c)) base ∧
      Ready (.div { fld c with s := true }) base) ∧
    longRoom base.me false = true ∧ valueIn 4 (readX base.me 2 + immOf (fld 4)) = 0 ∧
    valueIn 4 (readX (withX base [(2, 0xFFFFFFFF)]).me 2 + immOf (fld 4)) = -1 := by decide +kernel

theorem test_division :
    let s := withX base [(1, 0xFFFFFFFFFFFFFFF9), (2, 2)]
    let t := withX base [(1, 0x80000000), (2, 0xFFFFFFFFFFFFFFFF)]
    allTrue [starts (.div (fld 6)) s 0xFFFFFFFFFFFFFFFD, starts (.rem (fld 6)) s 0xFFFFFFFFFFFFFFFF,
      starts (.div (fld 4)) base 0xFFFFFFFFFFFFFFFF, starts (.div (fld 5)) base 0xFFFFFFFF, starts (.rem (fld 4)) (withX base [(1, 9)]) 9,
      starts (.div (fld 4)) t 0xFFFFFFFF80000000, starts (.div { fld 4 with s := true }) t 0x7FFFFFFF, starts (.rem (fld 4)) t 0] = true := by decide +kernel

theorem test_hyp_bitOperations :
    (∀ c ∈ ([4, 5, 6, 7] : List (BitVec 5)), ScalarIntFmt (fld c) ∧ Ready (.clz (fld c)) base ∧ Ready (.ctz (fld c)) base ∧
      Ready (.popc (fld c)) base) ∧
    (∀ c ∈ ([0, 1, 2, 3, 4, 5, 6, 7, 8, 9] : List (BitVec 5)), (fld c).fmt.toNat < 10 ∧ Ready (.sext (fld c)) base) ∧
    Ready (.bext (fld 0)) base ∧ Ready (.bins (fld 0)) base := by decide +kernel

theorem test_bit_operations :
    let s := withX base [(2, 0x10)]
    let t := withX base [(1, 0xABCD), (2, 0x204), (5, 0xFFFF)]
    allTrue [gives (.clz (fld 4)) s 27, gives (.clz (fld 6)) base 64, gives (.ctz (fld 6)) s 4, gives (.ctz (fld 5)) base 32,
      gives (.popc (fld 6)) (withX base [(2, 0xF0F)]) 8, gives (.sext (fld 8)) (withX base [(2, 0x1F)]) 0xFFFFFFFFFFFFFFFF,
      gives (.sext (fld 9)) (withX base [(2, 0x1F)]) 15, gives (.bext (fld 0)) t 0xBC, gives (.bext { fld 0 with s := true }) t 0xFFFFFFFFFFFFFFBC,
      gives (.bins (fld 0)) t 0xFCDF] = true := by decide +kernel

theorem test_hyp_movesAndMasks :
    ∀ i ∈ ([.li, .mov, .sel, .lea, .dtRd, .setEq, .setNe, .setLt, .setGe, .setLo, .setHs, .setLe, .setGt, .setLs, .setHi, .kmov, .kget,
      .kopAnd, .kopOr, .kopXor, .kopAndn, .kopNot, .kpop, .kfill] : List (Fields → Instr)), Ready (i (fld 0)) base := by decide +kernel

theorem test_moves :
    let s := withX base [(1, 0x1F1F), (2, 0xFFFFFFFFFFFFFFFF), (3, 1)]
    allTrue [gives (.mov (fld 0)) s 0x1F1F, gives (.sel (fld 0)) s 0x1F1F, gives (.sel (fld 0)) (withX s [(3, 0)]) 0xFFFFFFFFFFFFFFFF,
      gives (.lea (fld 0)) s 0x7FFFFFFF, after? (.li { d := 5, ext := .imm32 0xFFFFFFFE }) s (fun t => readX t.me 5 == 0xFFFFFFFFFFFFFFFE && t.me.pc == 12),
      after? (.li { d := 5, ext := .imm64 0x123456789ABCDEF0 }) s (fun t => readX t.me 5 == 0x123456789ABCDEF0 && t.me.pc == 16),
      gives (.dtRd (fld 0)) { s with dt36 := 71 } 1, after? (.nop {}) s (fun t => t.me.x == s.me.x && t.me.pc == 8),
      after? (.mov { fld 0 with d := 0 }) s (fun t => readX t.me 0 == 0 && t.me.x == s.me.x),
      after? (.vHint 3 {}) s (fun t => t.me.x == s.me.x && t.me.pc == 8)] = true := by decide +kernel

theorem test_conditions :
    let s := withX base [(1, 0xFFFFFFFFFFFFFFFF), (2, 1)]
    allTrue [gives (.setEq (fld 0)) s 0, gives (.setNe (fld 0)) s 1, gives (.setLt (fld 0)) s 1, gives (.setGe (fld 0)) s 0,
      gives (.setLo (fld 0)) s 0, gives (.setHs (fld 0)) s 1, gives (.setLe (fld 0)) s 1, gives (.setGt (fld 0)) s 0,
      gives (.setLs (fld 0)) s 0, gives (.setHi (fld 0)) s 1] = true := by decide +kernel

theorem test_masks :
    let s := withX base [(1, 5), (2, 0xFFFFFFFFFFFFFFFF)]
    let m := s.setMe (writeK (writeK s.me 1 0xFF) 2 0x3C)
    let k (i : Instr) (v : Word) : Bool := after? i m fun t => readK t.me 5 == v
    allTrue [k (.kmov (fld 0)) 5, gives (.kget (fld 0)) m 0xFF, k (.kopAnd (fld 0)) 0x3C, k (.kopOr (fld 0)) 0xFF, k (.kopXor (fld 0)) 0xC3,
      k (.kopAndn (fld 0)) 0xC3, k (.kopNot (fld 0)) 0xFFFFFFFFFFFFFF00, gives (.kpop (fld 0)) m 8, k (.kfill (fld 0)) 0x1F,
      k (.kfill { fld 0 with a := 2 }) 0xFFFFFFFFFFFFFFFF, readK m.me 0 == 0xFFFFFFFFFFFFFFFF] = true := by decide +kernel

theorem test_hyp_controlFlow :
    (∀ i ∈ ([.bEq, .bNe, .bLt, .bGe, .bLo, .bHs, .bLe, .bGt, .bLs, .bHi, .call, .loop, .jr, .ret, .callr, .dtUntil] : List (Fields → Instr)),
      Ready (i (fld 0)) base) ∧
    ((readX (withX base [(1, 8)]).me 1).setWidth 32 : BitVec 32).toNat % 4 = 0 ∧
    ((readX (withX base [(1, 6)]).me 1).setWidth 32 : BitVec 32).toNat % 4 ≠ 0 ∧
    base.dt.toNat < (readX (withX base [(1, 6)]).me 1).toNat ∧ (readX base.me 1).toNat ≤ base.dt.toNat ∧
    CanonicalRegs (withV (withX base [(1, 6)]) [(3, 7)]).me := by decide +kernel

theorem test_control_flow :
    let s := withX base [(1, 0xFFFFFFFFFFFFFFFF), (2, 1), (5, 2), (3, 64), (4, 66)]
    let j := { fld 0 with imm10 := 16 }
    let pc (i : Instr) (v : BitVec 32) : Bool := after? i s fun t => t.me.pc == v
    allTrue [pc (.br j) 64, pc (.br { fld 0 with imm10 := 0x3FF }) 0xFFFFFFFC, pc (.bEq j) 8, pc (.bNe j) 64, pc (.bLt j) 64, pc (.bGe j) 8, pc (.bLo j) 8,
      pc (.bHs j) 64, pc (.bLe j) 64, pc (.bGt j) 8, pc (.bLs j) 8, pc (.bHi j) 64,
      after? (.call j) s (fun t => t.me.pc == 64 && readX t.me 5 == 8), after? (.loop j) s (fun t => t.me.pc == 64 && readX t.me 5 == 1),
      after? (.callr { fld 0 with a := 3 }) s (fun t => t.me.pc == 64 && readX t.me 5 == 8), pc (.jr { fld 0 with a := 3 }) 64,
      pc (.ret { fld 0 with a := 3 }) 64, traps (.jr { fld 0 with a := 4 }) s 5 0 66, traps (.callr { fld 0 with a := 4 }) s 5 0 66,
      after? (.dtUntil { fld 0 with a := 3 }) s (fun t => t.me.pc == 0 && readX t.me 5 == 2), gives (.dtUntil { fld 0 with a := 0 }) s 0] = true := by decide +kernel

theorem test_hyp_scalarFloat :
    (∀ i ∈ ([.fAdd, .fSub, .fMul, .fFma, .fCvt, .fCvti, .fDiv, .fSqrt, .fCmpEq, .fCmpNe, .fCmpLt, .fCmpGe, .fCmpLe, .fCmpGt, .fCmpUn, .fCmpOrd,
      .fMin, .fMax, .fAbs, .fNeg] : List (Fields → Instr)), Ready (i (fld 10)) base) ∧ longRoom base.me false = true ∧
    isFloatFmt 10 = true ∧ isFloatFmt 4 = false ∧ (∃ F ∈ floatFormats, 0 < 2 ^ F.width ∧ (readFloat F 0).isNan = false) ∧
    (readFloat (ffmt 10 false) 0x7FC00000).isNan = true := by decide +kernel

theorem test_scalar_float :
    let s := withX base [(1, 0x40400000), (2, 0x3F000000), (3, 0x3F800000), (4, 0x7FC00000), (6, 0xC2280000)]
    let nv (i : Instr) (v : Word) : Bool := after? i s fun t => readX t.me 5 == v && t.me.status == 1
    allTrue [gives (.fAdd (fld 10)) s 0x40600000, gives (.fSub (fld 10)) s 0x40200000, gives (.fMul (fld 10)) s 0x3FC00000,
      gives (.fFma (fld 10)) s 0x40200000, starts (.fDiv (fld 10)) s 0x40C00000, starts (.fSqrt { fld 10 with a := 3 }) s 0x3F800000,
      gives (.fCvt { fld 10 with imm10 := 16 }) s 0x4008000000000000, gives (.fCvt { fld 4 with imm10 := 10 }) (withX s [(1, 5)]) 0x40A00000,
      gives (.fCvti { fld 10 with a := 6, imm10 := 4 }) s 0xFFFFFFFFFFFFFFD6, gives (.fCmpEq (fld 10)) s 0, gives (.fCmpNe (fld 10)) s 1,
      gives (.fCmpLt (fld 10)) s 0, gives (.fCmpGe (fld 10)) s 1, gives (.fCmpLe (fld 10)) s 0, gives (.fCmpGt (fld 10)) s 1,
      nv (.fCmpUn { fld 10 with b := 4 }) 1, nv (.fCmpOrd { fld 10 with b := 4 }) 0, nv (.fMin { fld 10 with b := 4 }) 0x7FC00000,
      gives (.fMax (fld 10)) s 0x40400000, gives (.fAbs { fld 10 with a := 6 }) s 0x42280000, gives (.fNeg (fld 10)) s 0xC0400000] = true := by decide +kernel

/-! Vector instructions. -/

/-- The instruction completes with a value in an element of v5. -/
def givesV (i : Instr) (s : State) (b j v : Nat) : Bool := after? i s fun t => elemAt b (readV t.me 5) j == v && t.me.pc == 8

/-- A long-class instruction issues with a value in an element of its result. -/
def startsV (i : Instr) (s : State) (b j v : Nat) : Bool :=
  after? i s fun t => t.me.longs.map (fun o => elemAt b o.data j) == [v] && t.me.pc == 8

/-- q0 open as input with two elements fetched, q1 open as output. -/
def ported (s : State) : State :=
  let q0 : Port := { isOpen := true, base := .store 8192, n0 := 4, n1 := 1, stride0 := 256, fetch := 2,
                     buf := [⟨0, splat 32 7, none, false⟩, ⟨1, splat 32 8, none, false⟩] }
  let q1 : Port := { isOpen := true, out := true, base := .store 16384, n0 := 4, n1 := 1, stride0 := 256 }
  s.setMe { s.me with ports := [(0, q0), (1, q1)] }

theorem test_hyp_vector :
    (∀ i ∈ ([.vAdd, .vSub, .vMul, .vFma, .vFms, .vFnma, .vMin, .vMax, .vAbs, .vNeg, .vDiv, .vSqrt, .vRcp, .vRsq, .vExp2, .vLog2, .vSin, .vCos,
      .vTanh, .vSig, .vCvt, .vCvti, .vCmpEq, .vCmpNe, .vCmpLt, .vCmpGe, .vCmpLo, .vCmpHs, .vCmpLe, .vCmpGt, .vCmpLs, .vCmpHi, .vCmpUn, .vCmpOrd,
      .vSel, .vAnd, .vOr, .vXor, .vAndn, .vShl, .vShr, .vRot, .vClz, .vDot4, .vDot8] : List (Fields → Instr)),
      Ready (i (fld 4)) base ∧ Ready (i { fld 10 with a := 32, d := 33 }) (ported base)) ∧
    PortsReady base [1, 2, 3] (some 5) ∧ PortsReady base [1, 2] (some 5) ∧ PortsReady base [1] (some 5) ∧ PortsReady base [1, 2] none ∧
    PortsReady (ported base) [32, 2, 32] (some 33) ∧ PortsReady (ported base) [32] (some 33) ∧ PortsReady (ported base) [2, 32] none ∧
    longRoom base.me false = true ∧ (0 < fmtWidth 4 ∧ (fld 4).s = false ∧ (fld 4).fmt.toNat ∈ [2, 3, 4, 5]) := by decide +kernel

theorem test_vector_arithmetic :
    let s := withV base [(1, splat 32 0x40400000), (2, splat 32 0x3F000000), (3, splat 32 0x3F800000)]
    let t := withV base [(1, splat 16 0x7FFF), (2, splat 16 2), (5, splat 32 9)]
    allTrue [givesV (.vAdd (fld 10)) s 32 63 0x40600000, givesV (.vSub (fld 10)) s 32 0 0x40200000, givesV (.vMul (fld 10)) s 32 7 0x3FC00000,
      givesV (.vFma (fld 10)) s 32 1 0x40200000, givesV (.vFms (fld 10)) s 32 1 0x3F000000, givesV (.vFnma (fld 10)) s 32 1 0xBF000000,
      givesV (.vMin (fld 10)) s 32 2 0x3F000000, givesV (.vMax (fld 10)) s 32 2 0x40400000, givesV (.vAbs (fld 10)) s 32 2 0x40400000,
      givesV (.vNeg (fld 10)) s 32 2 0xC0400000, givesV (.vAdd (fld 2)) t 16 127 0x8001, givesV (.vAdd { fld 2 with s := true }) t 16 127 0x7FFF,
      givesV (.vMin (fld 2)) t 16 5 2, givesV (.vMul (fld 3)) t 16 5 0xFFFE, givesV (.vNeg (fld 2)) t 16 1 0x8001,
      givesV (.vAdd { fld 2 with k := 1 }) t 32 0 9, givesV (.vAdd { fld 2 with k := 1, zm := true }) t 32 0 0,
      givesV (.vAdd { fld 2 with k := 1, kn := true }) t 16 0 0x8001,
      after? (.vAdd { fld 4 with a := 32, b := 32, d := 33 }) (ported base) (fun u => (readPort u.me 0).next == 1 && (readPort u.me 0).buf.length == 1 &&
        u.me.drains.map (fun d => match d with | .elem q _ _ _ v _ _ => (q, elemAt 32 v 0) | _ => (9, 0)) == [(1, 14)])] = true := by decide +kernel

theorem test_vector_functions :
    let s := withV base [(1, splat 32 0x40800000), (2, splat 32 0x40000000), (3, 0)]
    allTrue [startsV (.vDiv (fld 10)) s 32 63 0x40000000, startsV (.vSqrt (fld 10)) s 32 0 0x40000000, startsV (.vRcp (fld 10)) s 32 0 0x3E800000,
      startsV (.vRsq (fld 10)) s 32 0 0x3F000000, startsV (.vExp2 (fld 10)) s 32 0 0x41800000, startsV (.vLog2 (fld 10)) s 32 0 0x40000000,
      startsV (.vSin { fld 10 with a := 3 }) s 32 0 0, startsV (.vCos { fld 10 with a := 3 }) s 32 0 0x3F800000,
      startsV (.vTanh { fld 10 with a := 3 }) s 32 0 0, startsV (.vSig { fld 10 with a := 3 }) s 32 0 0x3F000000] = true := by decide +kernel

theorem test_vector_compare_and_logic :
    let s := withV base [(1, splat 32 0xFFFFFFFF), (2, splat 32 1), (3, splat 32 0x7FC00000)]
    let k (i : Instr) (v : Word) : Bool := after? i s fun t => readK t.me 5 == v && t.me.status == 0
    allTrue [k (.vCmpEq (fld 4)) 0, k (.vCmpNe (fld 4)) 0xFFFFFFFFFFFFFFFF, k (.vCmpLt (fld 4)) 0xFFFFFFFFFFFFFFFF, k (.vCmpGe (fld 4)) 0,
      k (.vCmpLo (fld 5)) 0, k (.vCmpHs (fld 5)) 0xFFFFFFFFFFFFFFFF, k (.vCmpLe (fld 4)) 0xFFFFFFFFFFFFFFFF, k (.vCmpGt (fld 4)) 0,
      k (.vCmpLs (fld 5)) 0, k (.vCmpHi (fld 5)) 0xFFFFFFFFFFFFFFFF,
      after? (.vCmpUn { fld 10 with a := 3 }) s (fun t => readK t.me 5 == 0xFFFFFFFFFFFFFFFF && t.me.status == 1),
      after? (.vCmpOrd { fld 10 with a := 3 }) s (fun t => readK t.me 5 == 0 && t.me.status == 1),
      givesV (.vAnd (fld 0)) s 32 0 1, givesV (.vOr (fld 0)) s 32 0 0xFFFFFFFF, givesV (.vXor (fld 0)) s 32 63 0xFFFFFFFE,
      givesV (.vAndn (fld 0)) s 32 0 0xFFFFFFFE, givesV (.vShl (fld 4)) s 32 0 0xFFFFFFFE, givesV (.vShr (fld 4)) s 32 0 0xFFFFFFFF,
      givesV (.vShr (fld 5)) s 32 0 0x7FFFFFFF, givesV (.vRot { fld 4 with a := 2 }) s 32 0 2, givesV (.vClz { fld 5 with a := 2 }) s 32 0 31,
      givesV (.vSel { fld 0 with k := 1, kn := true }) s 32 0 0xFFFFFFFF, givesV (.vSel { fld 0 with k := 1 }) s 32 0 1] = true := by decide +kernel

theorem test_hyp_vectorConversions :
    (∀ c ∈ [0, 1, 2, 3, 4, 5, 8, 9, 10, 11, 12, 13, 14, 15], c ∈ [0, 1, 2, 3, 4, 5, 8, 9, 10, 11, 12, 13, 14, 15]) ∧
    ({ fld 10 with imm10 := 13 } : Fields).imm10.toNat % 32 ∈ [10, 11, 12, 13, 14] ∧
    ({ fld 10 with imm10 := 68 } : Fields).imm10.toNat % 32 ∈ [0, 1, 2, 3, 4, 5, 8, 9] ∧
    Ready (.vCvt { fld 10 with imm10 := 13 }) base ∧ Ready (.vCvti { fld 10 with imm10 := 68 }) base ∧ PortsReady base [1] (some 5) ∧
    (fld 0).fmt.toNat < 2 ∧ ({ fld 0 with imm10 := 1 } : Fields).imm10.toNat < 2 ∧ Ready (.vDot4 { fld 0 with imm10 := 1 }) base ∧
    (fld 9).fmt.toNat ∈ [8, 9] ∧ ({ fld 9 with imm10 := 8 } : Fields).imm10.toNat ∈ [8, 9] ∧ Ready (.vDot8 { fld 9 with imm10 := 8 }) base ∧
    PortsReady base [1, 2, 3] (some 5) := by decide +kernel

/-- The values of R126's example for `v.dot4`; 3.0 in e4m3, in part 2 of its lane, and 3.0 as i32. -/
theorem test_vector_conversions :
    let s := withV base [(1, splat 32 0x40400000), (2, splat 8 2), (3, splat 32 100)]
    allTrue [givesV (.vCvt { fld 10 with imm10 := 0x4D }) s 32 0 0x00440000, givesV (.vCvti { fld 10 with imm10 := 4 }) s 32 63 3,
      givesV (.vDot4 { fld 0 with a := 2, imm10 := 1 }) s 32 0 116, givesV (.vDot8 { fld 8 with a := 2, imm10 := 8 }) s 32 0 116,
      givesV (.vDot4 { fld 0 with a := 2, s := true }) (withV s [(3, splat 32 0x7FFFFFF8)]) 32 0 0x7FFFFFFF] = true := by decide +kernel

theorem test_hyp_vectorReductions :
    (∀ c ∈ ([2, 3, 4, 5] : List (BitVec 5)), (fld c).fmt.toNat ∈ [2, 3, 4, 5]) ∧ (∀ c ∈ ([10, 11, 12] : List (BitVec 5)), (fld c).fmt.toNat ∈ [10, 11, 12]) ∧
    (∀ c ∈ ([4, 10] : List (BitVec 5)), ∀ i ∈ ([.vRedAdd, .vRedMin, .vRedMax, .vRedAnd, .vRedOr, .vRedXor, .vScanAdd, .vScanXadd, .vScanMin, .vScanXmin,
      .vScanMax, .vScanXmax] : List (Fields → Instr)), Ready (i (fld c)) base) ∧ PortsReady base [1] (some 5) ∧ (fld 4).s = false := by decide +kernel

theorem test_vector_reductions :
    let s := withV base [(1, packV 32 (List.range 64)), (2, splat 32 0x3F800000)]
    let f := { fld 10 with a := 2 }
    allTrue [givesV (.vRedAdd (fld 4)) s 32 0 2016, givesV (.vRedMin (fld 4)) s 32 63 0, givesV (.vRedMax (fld 4)) s 32 1 63,
      givesV (.vRedAnd (fld 4)) s 32 0 0, givesV (.vRedOr (fld 4)) s 32 0 63, givesV (.vRedXor (fld 4)) s 32 0 0,
      givesV (.vRedAdd f) s 32 5 0x42800000, givesV (.vRedMin f) s 32 5 0x3F800000, givesV (.vRedMax f) s 32 5 0x3F800000,
      givesV (.vScanAdd (fld 4)) s 32 4 10, givesV (.vScanXadd (fld 4)) s 32 4 6, givesV (.vScanMin (fld 4)) s 32 4 0,
      givesV (.vScanXmin (fld 4)) s 32 0 0x7FFFFFFF, givesV (.vScanMax (fld 4)) s 32 4 4, givesV (.vScanXmax (fld 4)) s 32 4 3,
      givesV (.vScanAdd f) s 32 63 0x42800000, givesV (.vScanXadd f) s 32 0 0, givesV (.vScanMin { f with s := true }) s 32 63 0x3F800000] = true := by decide +kernel

theorem test_hyp_vectorMoves :
    (fld 5).fmt.toNat ∈ [2, 3, 4, 5, 10, 11, 12] ∧
    (∀ i ∈ ([.vPerm, .vBcast, .vSplat, .vIota, .vMov, .vExpd, .vIns, .vExt, .vCpr] : List (Fields → Instr)), Ready (i (fld 5)) base) ∧
    (∀ i ∈ ([.vMov, .vExpd, .vCpr] : List (Fields → Instr)), Ready (i (fld 0)) base) ∧
    PortsReady base [1, 2] (some 5) ∧ PortsReady base [1] (some 5) ∧ PortsReady base [] (some 5) ∧ PortsReady base [1] none := by decide +kernel

theorem test_vector_moves :
    let s := withX (withV base [(1, packV 32 (List.range 64)), (2, splat 32 66)]) [(1, 7), (2, 3)]
    let m := s.setMe (writeK s.me 1 0xC)
    allTrue [givesV (.vPerm (fld 5)) s 32 9 2, givesV (.vBcast { fld 5 with imm10 := 2 }) s 32 40 5, givesV (.vSplat (fld 5)) s 32 63 7,
      givesV (.vIota { fld 4 with imm10 := 0x3FF }) s 32 8 0xFFFFFFFF, givesV (.vMov (fld 0)) s 32 9 9, givesV (.vIns (fld 5)) s 32 3 7,
      gives (.vExt (fld 5)) s 3, givesV (.vCpr { fld 0 with k := 1 }) m 32 1 3, givesV (.vCpr { fld 0 with k := 1 }) m 32 2 0,
      givesV (.vExpd { fld 0 with k := 1 }) m 32 3 1] = true := by decide +kernel

theorem test_hyp_histograms :
    CanonicalTiles base ∧ Ready (.vHist { a := 1, d := 2, fmt := 5 }) base ∧ PortsReady base [1] none ∧
    Ready (.vHistGet { d := 5, a := 2, s := true }) base ∧ PortsReady base [] (some 5) := by decide +kernel

/-- R51 with HBASE 0: the integer 4 falls into bin 3. -/
theorem test_histograms :
    let s := withV base [(1, splat 32 4)]
    let t := s.setTile 0 { s.tile 0 with hist := mapPut 0 [] 131 9 }
    allTrue [after? (.vHist { a := 1, d := 2, fmt := 5 }) s (fun u => mapGet 0 (u.tile 0).hist 131 == 64),
      after? (.vHistGet { d := 5, a := 2, s := true }) t (fun u => elemAt 32 (readV u.me 5) 3 == 9 && mapGet 0 (u.tile 0).hist 131 == 0)] = true := by decide +kernel

/-- R358: a bin whose counter is uncorrectable, and a bank with such a counter that is read, freeze the strand. -/
theorem test_hyp_badCounter :
    let s := { withV base [(1, splat 32 4)] with badWords := [((2 ^ 60 + 2 * 256 + 12) / 8, 3)] }
    let g : Fields := { a := 1, d := 2, fmt := 5 }
    let h : Fields := { d := 5, a := 2, s := true }
    CanonicalTiles s ∧ Ready (.vHist g) s ∧ PortsReady s [1] none ∧ Ready (.vHistGet h) s ∧ PortsReady s [] (some 5) ∧
    badIn s.badWords (histPa s.myTile 2 3) 4 ≠ none ∧ badIn s.badWords (histPa s.myTile 4 3) 4 = none ∧
    histBin 5 (statusFmode s.me.status) (mapGet 0 (s.tile s.myTile).hbase 2) (operand s 32 1 0) = 3 ∧
    allTrue [after? (.vHist g) s (fun u => u.me.run == .frozen), after? (.vHistGet h) s (fun u => u.me.run == .frozen),
      after? (.vHist { g with d := 1 }) s (fun u => u.me.run == .running)] = true := by decide +kernel

/-- R358: the first element of port 0 is uncorrectable in its buffer. -/
theorem test_hyp_spoiltElement :
    let s := (ported base).setMe { (ported base).me with ports := (ported base).me.ports.map fun p =>
      (p.1, { p.2 with buf := p.2.buf.map fun e => { e with spoilt := true } }) }
    let f : Fields := { fld 0 with a := 32 }
    let e : PortElem := { index := 0, data := splat 32 7, spoilt := true }
    CanonicalTiles s ∧ s.me.run = .running ∧ s.me.task = none ∧ (readPort s.me 0).buf.head? = some e ∧
    Ready (.vMov f) s ∧ checkPorts s.me [32] (some f.d.toNat) = .ok ∧ Ready (.vHist { f with fmt := 5 }) s ∧ checkPorts s.me [32] none = .ok ∧
    allTrue [after? (.vMov f) s (fun u => u.me.run == .frozen && u.me.ports == s.me.ports && u.trust.seq == s.trust.seq + 1),
      after? (.vHist { f with fmt := 5 }) s (fun u => u.me.run == .frozen)] = true := by decide +kernel

theorem test_hyp_sampling :
    Ready (.vAccept (fld 10)) base ∧ Ready (.vDraw (fld 10)) base ∧ PortsReady base [1, 2] none ∧
    (∀ l, l < 64 → readFloat (ffmt 10 false) (operand base 32 1 l) = .fin false 0 0 false ∨
      (readFloat (ffmt 10 false) (operand base 32 1 l)).isNan = false) ∧
    (readFloat (ffmt 10 false) (operand (withV base [(1, splat 32 0x7FC00000)]) 32 1 0)).isNan = true := by decide +kernel

/-- R132: SEED 0 and SRCNT 0 make lane 0 accept when p > 0. R133: a NaN gives all ones with NV. -/
theorem test_sampling :
    let s := withV base [(1, splat 32 0x3F800000), (2, splat 32 0x3F800000), (3, splat 32 0x7FC00000)]
    allTrue [after? (.vAccept (fld 10)) s (fun t => (readK t.me 5).getLsbD 0 && t.me.srcnt == 1),
      after? (.vAccept { fld 10 with a := 4 }) s (fun t => readK t.me 5 == 0 && t.me.status == 0),
      after? (.vDraw { fld 10 with a := 3 }) s (fun t => readX t.me 5 == 0xFFFFFFFFFFFFFFFF && t.me.status == 1 && t.me.srcnt == 1),
      gives (.vDraw { fld 10 with a := 4, b := 4 }) s 0xFFFFFFFFFFFFFFFF] = true := by decide +kernel

theorem test_hyp_longAccumulator :
    (∀ i ∈ ([.laAdd, .laNorm, .laRd, .laClr, .laGetw, .laSetw] : List (Fields → Instr)), Ready (i (fld 10)) base) ∧ longRoom base.me false = true ∧
    ({ fld 0 with imm10 := 5 } : Fields).imm10.toNat < 6 ∧ 6 ≤ ({ fld 0 with imm10 := 10 } : Fields).imm10.toNat ∧
    readFloat (ffmt 10 false) 0x3F800000 ≠ .nan ∧ (-2 ^ 383 : Int) ≤ 1 ∧ (1 : Int) < 2 ^ 383 := by decide +kernel

theorem test_long_accumulator :
    let s := withX base [(1, 0x3F800000)]
    let t := s.setMe { s.me with la := 1 <<< 200, laCarry := 0xFFFF }
    allTrue [after? (.laAdd (fld 10)) s (fun u => u.me.longs.map (fun o => laValue (o.data.setWidth 384) (o.data.extractLsb' 384 80)) == [2 ^ 200]),
      starts (.laRd (fld 10)) (s.setMe { s.me with la := 1 <<< 200 }) 0x3F800000, gives (.laGetw { fld 0 with imm10 := 3 }) t 0x100,
      gives (.laGetw { fld 0 with imm10 := 6 }) t 0xFFFFFFFFFFFFFFFF, after? (.laClr {}) t (fun u => u.me.la == 0 && u.me.laCarry == 0),
      after? (.laSetw { fld 0 with imm10 := 0 }) s (fun u => u.me.la == 0x3F800000), after? (.laSetw { fld 0 with imm10 := 7 }) t (fun u =>
        u.me.laCarry == 0x0000FFFF), starts (.laNorm {}) (s.setMe { s.me with la := 5 }) 5] = true := by decide +kernel

/-! Operand slots, the array, trellis windows. -/

/-- Strand 0 owns slots 0 to 2, strand 1 slot 4; slot 5 is released with work pending. -/
def slotted : State :=
  let own (n : Nat) (w : Option Nat) : Nat × OSlot := (n, { owner := w, release := w == none })
  let a : ArrayOp := { slot := 0, num := 1, kind := .compress 0 7 5 }
  base.setTile 0 { base.tile 0 with slots := [own 0 (some 0), own 1 (some 0), own 2 (some 0), own 4 (some 1), own 5 none], array := [a] }

theorem test_hyp_operandSlots :
    (∀ i ∈ ([.oClaim, .oTst] : List (Fields → Instr)), Ready (i { d := 5, a := 3 }) slotted) ∧
    slotted.slotState 0 0 3 = 0 ∧ slotted.slotState 0 0 0 = 1 ∧ slotted.slotState 0 0 4 = 2 ∧ slotted.slotState 0 0 5 = 3 ∧
    (slotAt (slotted.tile 0) 0).owner = some 0 ∧ (slotAt (slotted.tile 0) 3).owner ≠ some 0 ∧
    (∀ n, n < 8 → ∀ w ∈ (slotAt (slotted.tile 0) n).owner, w < 8) := by decide +kernel

theorem test_operand_slots :
    allTrue [after? (.oClaim { d := 5, a := 3 }) slotted (fun t => readX t.me 5 == 0 && (slotAt (t.tile 0) 3).owner == some 0),
      gives (.oClaim { d := 5, a := 4 }) slotted 1, after? (.oRel { a := 1 }) slotted (fun t => (slotAt (t.tile 0) 1).owner == none),
      traps (.oRel { a := 7 }) slotted 15 0 7, gives (.oTst { d := 5, a := 4 }) slotted 0x12, gives (.oTst { d := 5, a := 5 }) slotted 0x103] = true := by decide +kernel

/-- Slots 0 and 1 as A and B, bank 0. -/
def mul (fmt fb : Nat) : Fields := { fmt := BitVec.ofNat 5 fmt, ext := .imm64 (BitVec.ofNat 64 (8 + fb * 256)) }

theorem test_hyp_arrayIssue :
    CanonicalTiles slotted ∧ slotted.arrayHeld (matrixKind 0 (mul 0 0)) = false ∧ slotted.unclaimed (matrixKind 0 (mul 0 0)).slots = none ∧
    slotted.arrayHeld (matrixKind 1 (mul 0 0)) = false ∧ slotted.unclaimed (matrixKind 1 (mul 0 0)).slots = none ∧
    slotted.arrayHeld (matrixKind 2 (mul 13 0x2F)) = false ∧ slotted.unclaimed (matrixKind 2 (mul 13 0x2F)).slots = none ∧
    badScale (slotted.tile 0) 1 1 1 = none ∧
    slotted.arrayHeld (.compress 0 0 1) = false ∧ slotted.unclaimed (ArrayKind.compress 0 0 1).slots = none ∧
    slotted.arrayHeld (.zero 0) = false ∧ slotted.unclaimed (ArrayKind.zero 0).slots = none ∧
    Ready (.mWr { d := 0, a := 1, b := 2 }) slotted ∧ PortsReady slotted [1] none ∧
    base.unclaimed (matrixKind 0 (mul 0 0)).slots = some 0 ∧ base.arrayHeld (matrixKind 0 (mul 0 0)) = false ∧
    base.arrayHeld (matrixKind 1 (mul 0 0)) = false ∧ base.arrayHeld (matrixKind 2 (mul 13 0x2F)) = false ∧
    base.unclaimed (matrixKind 1 (mul 0 0)).slots = some 0 ∧ base.unclaimed (matrixKind 2 (mul 13 0x2F)).slots = some 0 ∧ (base.tile 0).array = [] ∧
    base.arrayHeld (.compress 0 0 1) = false ∧ base.unclaimed [0, 1] = some 0 ∧ slotted.badWords = [] := by decide +kernel

/-- `m.mmt` of slot 1: with no compress into it queued, and with a scale byte of 255 there; with one queued. -/
theorem test_hyp_scaleCheck :
    let f := mul 13 0x2F
    let kinds (s : State) : List ArrayKind := (s.tile 0).array.map fun o => o.kind
    let spoilt := slotted.setTile 0 (setSlot (slotted.tile 0) 1 { owner := some 0, mem := writeBytes [] 32 [0xFF#8] })
    let pending := slotted.setTile 0 { slotted.tile 0 with array := [{ slot := 0, num := 1, kind := .compress 0 1 5 }] }
    natBits f.ext.imm64Nat 5 3 = 1 ∧ kinds slotted = [.compress 0 7 5] ∧ kinds spoilt = [.compress 0 7 5] ∧ spoilt.arrayHeld (matrixKind 2 f) = false ∧
    spoilt.unclaimed (matrixKind 2 f).slots = none ∧ badScale (spoilt.tile 0) 1 1 1 = some 32 ∧ kinds pending = [.compress 0 1 5] := by decide +kernel

theorem test_array_issue :
    let queued (i : Instr) (n : Nat) : Bool := after? i slotted fun t => (t.tile 0).array.length == 2 && t.me.tlm.last == 1 && t.me.pc == BitVec.ofNat 32 n
    allTrue [queued (.mMma (mul 0 0)) 16, queued (.mMms (mul 0 0)) 16, queued (.mMmt (mul 13 0x2F)) 16, queued (.mCmp { d := 0, a := 1 }) 8,
      queued (.mZero { d := 1 }) 8, queued (.mWr { d := 0, a := 1, b := 2 }) 8, traps (.mMma (mul 0 0)) base 15 0 0] = true := by decide +kernel

/-- The head of the queue with its cycles passed. -/
def due (k : ArrayKind) : State :=
  let t := slotted.tile 0
  let a := splat 32 3
  let s0 : OSlot := { owner := some 0, mem := writeBytes [] 0 (natToBytes 4 0x04030201) }
  let s1 : OSlot := { owner := some 0, mem := writeBytes (writeBytes [] 0 [2#8]) 128 [0xFF#8] }
  ({ base with cycle := 9 }).setTile 0 { t with slots := [(0, s0), (1, s1)], array := [{ slot := 0, num := 1, kind := k }], banks := if a = 0 then [] else [(5, 7)] }

theorem test_hyp_arrayComplete :
    ∀ k ∈ ([.zero 0, .write 1 3 (splat 32 9), .multiply 0 0 0 0 1 0 false 0 0, .multiply 1 1 0 0 1 1 true 0 0, .multiply 0 13 14 0 1 0 false 0 0,
        .multiply 1 11 12 0 1 0 false 0 0, .multiply 2 13 15 0 1 0 false 2 0, .compress 0 0 1, .compress 14 0 1] : List ArrayKind),
      CanonicalTiles (due k) ∧ (due k).badWords = [] ∧ ((due k).tile 0).array = [{ slot := 0, num := 1, kind := k }] ∧
      ((due k).tile 0).arrayDue ≤ (due k).cycle ∧ ((due k).tile 0).array.map (fun o => o.sat) = [false] := by decide +kernel

/-- The formats of those products and compressions. -/
theorem test_hyp_arrayFormats :
    (∀ p ∈ [(0, 0), (1, 0), (13, 14), (11, 12)], (isFloatFmt p.1 = false → p.1 < 2 ∧ p.2 < 2) ∧ (fmtWidth p.1 = 8 ∨ fmtWidth p.1 = 16) ∧ fmtWidth p.2 = fmtWidth p.1) ∧
    (∃ fa, fa = 13 ∧ fmtWidth fa = 8 ∧ isFloatFmt fa = true) ∧ (∀ c ∈ [0, 14], c ∈ [0, 1, 13, 14]) := by
  refine ⟨by decide +kernel, ⟨13, by decide +kernel⟩, by decide +kernel⟩

/-- Row 0 of A is 1, 2, 3, 4, 0, ...; column 0 of B is 2, −1, 0, ...: 1 × 2 + 2 × −1 = 0 in column 0, none elsewhere. -/
theorem test_array_complete :
    let bank (k : ArrayKind) (b row col : Nat) (v : BitVec 32) : Bool :=
      after? .arrayOperationComplete (due k) fun t => bankAt (t.tile 0) b row col == v && (t.tile 0).array == []
    allTrue [bank (.zero 0) 0 0 5 0, bank (.zero 1) 0 0 5 7, bank (.write 1 3 (splat 32 9)) 1 1 64 9, bank (.write 1 3 (splat 32 9)) 1 1 63 0] = true := by decide +kernel

theorem test_hyp_trellisAndBanks :
    CanonicalTiles slotted ∧ PortsReady slotted [] (some 5) ∧ (∀ i ∈ ([.mRd, .wSet, .wStep, .wVal] : List (Fields → Instr)),
      Ready (i { d := 1, a := 2, imm10 := 2 }) slotted) ∧
    ((slotted.tile 0).array.any fun o => o.kind.bank == some 1) = false ∧ slotted.decodeHeld 0 = false ∧
    (let f : Fields := { d := 5, a := 0, b := 2, fmt := 10, imm10 := 2 }
     Ready (.vTdec f) slotted ∧ decodeBad (slotted.tile 0) f (laneMask slotted.me f) 0 2 1 = none ∧ (slotAt (slotted.tile 0) 0).owner = some 0 ∧
     decodeBad (slotted.tile 0) { f with fmt := 15 } (laneMask slotted.me f) 0 2 1 = none) ∧
    (slotAt (slotted.tile 0) 4).owner ≠ some slotted.mySlot ∧ slotted.decodeHeld 4 = false := by decide +kernel

/-- A claimed slot whose first scale byte read is 255. -/
theorem test_hyp_spoiltScale :
    let f : Fields := { d := 5, a := 0, b := 2, fmt := 10, imm10 := 2 }
    let o := streamBytes 2 1
    let s := slotted.setTile 0 (setSlot (slotted.tile 0) 0 { owner := some 0, mem := writeBytes [] o [0xFF#8] })
    CanonicalTiles s ∧ s.badWords = [] ∧ Ready (.vTdec f) s ∧ s.decodeHeld 0 = false ∧ (slotAt (s.tile 0) 0).owner = some s.mySlot ∧
    elemActive 32 (laneMask s.me f) 0 = true ∧ o = (readX s.me 2).toNat % 64 * blockBytes 2 1 + streamBytes 2 1 + ((readX s.me 2).toNat / 256 % 256 + 0) % 256 / 32 ∧
    slotByte (s.tile 0) 0 o = 255 := by decide +kernel

/-- R146: window 1 stands for 180 and −136. -/
theorem test_trellis_and_banks :
    let s := withX (base.setMe (writeW base.me 2 1)) [(1, 5), (3, 1)]
    let t := base.setTile 0 { base.tile 0 with banks := mapPut 0 [] (bankKey 1 2 65) 77 }
    allTrue [gives (.wVal { d := 5, a := 2, imm10 := 0 }) s 180, gives (.wVal { d := 5, a := 2, imm10 := 1 }) s 0xFFFFFFFFFFFFFF78,
      gives (.wVal { d := 5, a := 2, imm10 := 2 }) s 1, after? (.wSet { d := 3, a := 1 }) s (fun u => readW u.me 3 == 5),
      after? (.wStep { d := 2, a := 1, imm10 := 2 }) s (fun u => readW u.me 2 == 0x4000),
      givesV (.mRd { d := 5, a := 1, b := 0, imm10 := 5 }) t 32 1 77,
      givesV (.vTdec { d := 5, a := 0, b := 0, fmt := 15, imm10 := 2 }) slotted 16 127 (wrapInt 16 (windowValue 0 0))] = true := by decide +kernel

/-! Memory, atomics, copies, ports, encodes, timelines. -/

/-- A launch of two tiles: tiles 0 and 1. -/
def two : State :=
  let k := launchKey 0 1
  let s := base.setLaunch k { base.launch k with lw := 1 }
  s.setTile 1 { store := [], launch := some k, xb := 4096, scr := 65536 }

/-- A handle entry: BASE, LEN, V = 1, RD = WR = 1, SPACE and CACHED. -/
def entry (b len space : Nat) (cached : Bool) : BitVec 256 :=
  BitVec.ofNat 256 (b + len * 2 ^ 64 + 2 ^ 128 + space * 2 ^ 130 + 2 ^ 132 + 2 ^ 133 + if cached then 2 ^ 134 else 0)

/-- Handle 1 of context 0 of VF 0, cached, and virtual page 1 of 64 KiB at physical 0x20000. -/
def handled (s : State) (e : BitVec 256) : State :=
  let s := s.setCluster 0 { s.cluster 0 with handles := [⟨0, 1, e, false⟩] }
  let s := s.setVf 0 { s.vf 0 with channels := 1 }
  s.setTile 0 { s.tile 0 with tlb := [{ tag := 0, page := 1, bits := 16, pa := 0x20000, rd := true, wr := true, log := false, d := false, leaf := 0 }] }

def page : BitVec 256 := entry 0x10000 0x10000 0 false
def cachedPage : BitVec 256 := entry 0x10000 0x10000 0 true
/-- Operands through handle 1. -/
def viaHandle (fmt : BitVec 5) : Fields := { d := 5, a := 1, fmt := fmt, h := true, hi := true, ext := .imm32 1 }

theorem test_hyp_ownStoreAccess :
    let s := withX base [(1, 8192)]
    CanonicalTiles s ∧ FieldPlaced s ∧ (fld 6).h = false ∧ MemReady (.ld (fld 6)) s ∧ MemReady (.st (fld 6)) s ∧
    (∀ c ∈ ([0, 1, 2, 3, 4, 5, 6, 7, 10, 11, 12, 16] : List (BitVec 5)),
      OwnBytes s (localAddr s (fld c)) (fmtWidth (fld c).fmt.toNat / 8) 8192) := by decide +kernel

theorem test_hyp_ownVectorAccess :
    let s := withX base [(1, 8192)]
    (∀ i ∈ ([.vLd, .vSt, .vGat, .vSct] : List (Fields → Instr)), MemReady (i { fld 0 with c := 0 }) s) ∧ PortsReady s [5] none ∧
    (∀ j, j < 64 → OwnBytes s ((localAddr s (fld 0) + 4 * j) % 2 ^ 32) 4 (8192 + 4 * j)) ∧
    (∀ j, j < 64 → OwnBytes s (((localBase s (fld 0) : Int) + readInt true 32 (elemAt 32 (readV s.me 2) j)) % 2 ^ 32).toNat 4 8192) := by decide +kernel

theorem test_own_store_access :
    let s := withStore (withV (withX base [(1, 8192), (5, 0xFFFFFFFFFFFFFF80)]) [(2, packV 32 ((List.range 64).map fun j => 8 * j)), (5, splat 32 6)]) 0 8192 16 0x8877665544332211
    let at_ (i : Instr) (a n v : Nat) : Bool := after? i s fun t => readNat (t.tile 0).store a n == v && t.me.pc == 8
    let f := { fld 0 with b := 0, c := 0 }
    allTrue [gives (.ld { f with fmt := 6 }) s 0x8877665544332211, gives (.ld { f with fmt := 0, imm10 := 7 }) s 0xFFFFFFFFFFFFFF88,
      gives (.ld { f with fmt := 3, imm10 := 6 }) s 0x8877, at_ (.st { f with fmt := 2 }) 8192 4 0x4433FF80, at_ (.vSt f) 8444 4 6,
      givesV (.vLd f) s 32 1 0x88776655, givesV (.vGat { f with b := 2 }) s 32 1 0, at_ (.vSct { f with b := 2 }) (8192 + 504) 4 6,
      givesV (.vLd { f with k := 1 }) s 32 1 6] = true := by decide +kernel

theorem test_hyp_addressesAndFaults :
    (∀ a ∈ [0, 4095, 4096, 69631, 69632, 2 ^ 20 - 1, 2 ^ 20, 2 ^ 30 - 1, 2 ^ 30, 2 ^ 31 - 1, 2 ^ 31, 2 ^ 32 - 1], 0 < 1 ∧ a < 2 ^ 32) ∧
    (let s := withX base [(1, 8193)]
     MemReady (.ld (fld 6)) s ∧ MemReady (.st (fld 6)) s ∧ longRoom s.me true = true ∧ localAddr s (fld 6) % 8 ≠ 0) ∧
    (let s := withX base [(1, 8)]
     localAddr s (fld 6) % 8 = 0 ∧ s.localTarget s.myTile (localAddr s (fld 6)) 8 = .error (7, 0, 8)) ∧
    (let f : Fields := { viaHandle 6 with hi := false, c := 3, ext := .none }
     let s := withX base [(3, 65536)]
     MemReady (.st f) s ∧ 65536 ≤ (readX s.me f.c.toNat).toNat ∧ handleOffset s f % 8 = 0 ∧ handleOf (withX base [(3, 65535)]) f = some 65535) ∧
    (let f := viaHandle 6
     let s := handled base page
     let e := s.entryOf s.myTile 1
     handleOf s f = some 1 ∧ MemReady (.st f) s ∧ handleOffset (withX s [(1, 1)]) f % 8 ≠ 0 ∧ handleOffset s f % 8 = 0 ∧
     entryValid (base.entryOf 0 1) = false ∧ entryLen e < 0x10000 + 8 ∧ entryValid e = true ∧ handleOffset s f + 8 ≤ entryLen e ∧
     entrySpace (entry 0 8 1 false) = 1 ∧ entrySpace (entry 0 8 3 false) = 3 ∧ (entrySpace (entry 0 8 2 false) = 2 ∧ (s.vf 0).fabric = 0) ∧
     entryWr e = true ∧ entrySpace e = 0 ∧
     (s.setTile 0 { s.tile 0 with tlb := [{ tag := 0, page := 1, bits := 16, pa := 0, rd := true, wr := false, log := false, d := false, leaf := 0 }] }).translate
       0 0 (entryVa e 0) false true = .fault) ∧
    (let s := handled base (entry 0x20000 8 0 false)
     CanonicalTiles s ∧ s.me.walk = none ∧ entryTrap (s.vf 0) (s.entryOf 0 1) 0 8 .store = none ∧
     s.translate s.myTile 0 (entryVa (s.entryOf 0 1) 0) false true = .miss) := by decide +kernel

theorem test_addresses_and_faults :
    let f := { fld 6 with b := 0, c := 0 }
    allTrue [traps (.ld f) (withX base [(1, 8193)]) 5 0 8193, traps (.st f) (withX base [(1, 8)]) 7 0 8, traps (.st f) (withX base [(1, 69632)]) 6 0 69632,
      traps (.st (viaHandle 6)) (withX (handled base page) [(1, 0x10000)]) 6 0 0x10000,
      traps (.st (viaHandle 6)) (handled base (entry 0x10000 8 1 false)) 7 0 0] = true := by decide +kernel

theorem test_hyp_remoteAccess :
    (let s := withX two [(1, 0x40102000)]
     let f := { fld 6 with b := 0, c := 0 }
     CanonicalTiles s ∧ FieldPlaced s ∧ s.localTarget s.myTile (localAddr s f) 8 = .ok (1, 8192) ∧ localAddr s f % 8 = 0 ∧
     MemReady (.ld f) s ∧ MemReady (.st f) s ∧ longRoom s.me true = true ∧ s.spillFull 1 = false) ∧
    (let s := handled base page
     let f := viaHandle 6
     CanonicalTiles s ∧ handleOf s f = some 1 ∧ handleOffset s f % 8 = 0 ∧ entryCached (s.entryOf 0 1) = false ∧ MemReady (.ld f) s ∧ MemReady (.st f) s ∧
     longRoom s.me false = true ∧ entryTrap (s.vf 0) (s.entryOf 0 1) 0 8 .load = none ∧ entryTrap (s.vf 0) (s.entryOf 0 1) 0 8 .store = none ∧
     entrySpace (s.entryOf 0 1) = 0 ∧ s.translate s.myTile 0 (entryVa (s.entryOf 0 1) 0) true false = .page 0x20000 none ∧
     s.translate s.myTile 0 (entryVa (s.entryOf 0 1) 0) false true = .page 0x20000 none) ∧
    (let s := (handled base (entry 0 8 2 false)).setVf 0 { fabric := 1, targets := mapPut 0 [] 0 0x300000001 }
     s.linkId.toNat ≠ 3 ∧ entrySpace (s.entryOf 0 1) = 2 ∧ entryTrap (s.vf 0) (s.entryOf 0 1) 0 8 .load = none ∧ entryTrap (s.vf 0) (s.entryOf 0 1) 0 8 .store = none) := by decide +kernel

/-- The other tile saved, with a full queue of messages. -/
theorem test_hyp_injectionHeld :
    let s := (withX two [(1, 0x40102000)]).setTile 1 { two.tile 1 with spill := List.replicate 2048 (Spilled.result 0 0), preempt := .saved }
    let f := { fld 6 with b := 0, c := 0 }
    CanonicalTiles s ∧ FieldPlaced s ∧ s.localTarget s.myTile (localAddr s f) 8 = .ok (1, 8192) ∧ MemReady (.ld f) s ∧ MemReady (.st f) s ∧
    longRoom s.me true = true ∧ s.spillFull 1 = true := by decide +kernel

theorem test_remote_access :
    let f := { fld 6 with b := 0, c := 0 }
    let home (i : Instr) (s : State) (h : Home) (a : Nat) : Bool := after? i s fun t => t.net.map (fun m => (m.home, m.addr)) == [(h, a)]
    allTrue [home (.ld f) (withX two [(1, 0x40102000)]) (.tile 1) 8192, home (.st f) (withX two [(1, 0x40102000)]) (.tile 1) 8192,
      home (.st (viaHandle 6)) (withX (handled base page) [(1, 8)]) (.channel 0) 0x20008,
      home (.ld (viaHandle 6)) ((handled base (entry 0 8 2 false)).setVf 0 { fabric := 1, targets := mapPut 0 [] 0 0x300000001 }) (.fabric 3) 0] = true := by decide +kernel

/-- The line of virtual address 0x10000 in tile 0's L1: its first 16 bytes valid, 8 of them dirty. -/
def lined : State :=
  let s := handled base cachedPage
  s.setTile 0 { s.tile 0 with l1 := [{ tag := 0, line := 512, home := .channel 0, pa := 0x20000, data := 0x99#1024, valid := 0xFFFF, dirty := 0xFF, writer := 0 }] }

theorem test_hyp_cacheBehaviour :
    let s := lined
    let f := viaHandle 6
    CanonicalTiles s ∧ handleOf s f = some 1 ∧ handleOffset s f % 8 = 0 ∧ entryCached (s.entryOf 0 1) = true ∧ 0 < (s.tile 0).l1Lines ∧
    entrySpace (s.entryOf 0 1) = 0 ∧ entryVa (s.entryOf 0 1) 0 % 128 + 8 ≤ 128 ∧ (l1Find (s.tile 0) 0 0x10000).isSome = true ∧
    MemReady (.ld f) s ∧ MemReady (.st f) s ∧ longRoom s.me false = true ∧ entryTrap (s.vf 0) (s.entryOf 0 1) 0 8 .load = none ∧
    entryTrap (s.vf 0) (s.entryOf 0 1) 0 8 .store = none ∧ s.translate 0 0 0x10000 true false = .page 0x20000 none ∧
    s.translate 0 0 0x10000 false true = .page 0x20000 none ∧ (∀ l ∈ l1Find (s.tile 0) 0 0x10000, ∀ j, j < 8 → l.valid.getLsbD j = true) ∧
    (∀ i ∈ ([.l1Wba, .l1Inva, .l1Wbia] : List (Fields → Instr)), MemReady (i {}) s) ∧
    (∀ i ∈ ([.l1Wb, .l1Inv, .l1Wbi] : List (Fields → Instr)), MemReady (i { viaHandle 0 with d := 0 }) s) ∧
    entryValid (s.entryOf 0 1) = true ∧ handleOffset s f + 1 ≤ entryLen (s.entryOf 0 1) ∧ entryValid (base.entryOf 0 1) = false ∧
    ∀ l ∈ (s.tile 0).l1, l.dirty ≠ 0 ∧ SoundLine s l := by decide +kernel

theorem test_cache_behaviour :
    let s := withX lined [(5, 0x77)]
    let line (i : Instr) (p : List L1Line → List Msg → Bool) : Bool := after? i s fun t => p (t.tile 0).l1 t.net
    let f := { viaHandle 0 with d := 0 }
    allTrue [starts (.ld (viaHandle 6)) s 0x99, line (.st { viaHandle 6 with imm10 := 16 }) (fun l n => l.map (fun x => (x.valid, x.dirty)) == [(0xFFFFFF, 0xFF00FF)] && n == []),
      line (.l1Wb f) (fun l n => l.map (fun x => (x.valid, x.dirty)) == [(0xFFFF, 0)] && n.length == 1), line (.l1Inv f) (fun l n => l == [] && n == []),
      line (.l1Wbi f) (fun l n => l == [] && n.length == 1), line (.l1Wba {}) (fun l n => l.length == 1 && n.length == 1),
      line (.l1Inva {}) (fun l n => l == [] && n == []), line (.l1Wbia {}) (fun l n => l == [] && n.length == 1)] = true := by decide +kernel

theorem test_hyp_atomics :
    let s := withX base [(1, 8192)]
    let f := { fld 6 with b := 6, c := 8 }
    CanonicalTiles s ∧ FieldPlaced s ∧ longRoom s.me true = true ∧ OwnBytes s (localBase s f) 8 8192 ∧ OwnBytes s (localBase s f) 16 8192 ∧
    OwnBytes s (localBase s { f with fmt := 10 }) 4 8192 := by decide +kernel

theorem test_hyp_atomicForms :
    let s := withX base [(1, 8192)]
    let f := { fld 6 with b := 6, c := 8 }
    (∀ i ∈ ([.atAdd, .atAnd, .atOr, .atXor, .atMin, .atMax, .atSwp, .atCas] : List (Fields → Instr)), MemReady (i f) s) ∧ f.fmt.toNat ∈ [4, 5, 6, 7] ∧
    MemReady (.atFadd { f with fmt := 10 }) s ∧ ({ f with fmt := 10 } : Fields).fmt.toNat ∈ [10, 11, 12] ∧ MemReady (.atCas2 { f with d := 4 }) s ∧
    MemReady (.atAdd f) two ∧ localBase (withX base [(1, 8193)]) f % 8 ≠ 0 ∧
    (withX two [(1, 0x40102000)]).localTarget 0 (localBase (withX two [(1, 0x40102000)]) f) 8 = .ok (1, 8192) := by decide +kernel

theorem test_atomics :
    let s := withStore (withX base [(1, 8192), (6, 3), (7, 0), (8, 9), (9, 4)]) 0 8192 16 0xFFFFFFFFFFFFFFFE
    let f := { fld 6 with b := 6, c := 8 }
    let at_ (i : Instr) (v : Nat) : Bool := after? i s fun t => readNat (t.tile 0).store 8192 8 == v && t.me.longs.map (fun o => o.data.toNat) == [0xFFFFFFFFFFFFFFFE]
    allTrue [at_ (.atAdd f) 1, at_ (.atAnd f) 2, at_ (.atOr f) 0xFFFFFFFFFFFFFFFF, at_ (.atXor f) 0xFFFFFFFFFFFFFFFD, at_ (.atMin f) 0xFFFFFFFFFFFFFFFE,
      at_ (.atMax f) 3, at_ (.atSwp f) 3, at_ (.atCas f) 0xFFFFFFFFFFFFFFFE, at_ (.atCas { f with b := 10 }) 0xFFFFFFFFFFFFFFFE,
      at_ (.atMin { f with fmt := 7 }) 3,
      after? (.atCas2 { f with d := 4, b := 10 }) (withX s [(10, 0xFFFFFFFFFFFFFFFE)]) (fun t => readNat (t.tile 0).store 8192 16 == 0x40000000000000009),
      after? (.atFadd { f with fmt := 10 }) (withX (withStore base 0 8192 4 0x3F800000) [(1, 8192), (6, 0x3F800000)]) (fun t =>
        readNat (t.tile 0).store 8192 4 == 0x40000000), traps (.atCas2 { f with d := 4 }) (withX base [(1, 8200)]) 5 0 8200] = true := by decide +kernel

/-- A strand with one unanswered store, presenting a release or a fence of a scope since message 9. -/
def presenting (n : Nat) (p : Posted) : State := let s := withX base [(1, 8192)]; s.setMe { s.me with fence := some n, fenceAt := 9, posted := [p] }
def unanswered : Posted := { id := 1, addr := 4, cover := 1 }
def upTo (n c : Nat) : Bool := decide (c ≤ n)
def releasing : Fields := { fld 6 with b := 0, c := 0, rm := 1 }

theorem test_hyp_acquireRelease :
    let s := withX base [(1, 8192)]
    let f := releasing
    CanonicalTiles s ∧ FieldPlaced s ∧ OwnBytes s (localAddr s f) 8 8192 ∧ MemReady (.ldAcq f) s ∧ longRoom s.me true = true ∧
    acquireHeld (s.setMe { s.me with longs := [{ id := 1, dest := .x 5, acquire := some 1 }] }).me = true ∧
    (∀ i ∈ ([.stRel, .stRelCmp] : List (Fields → Instr)), MemReady (i f) s ∧ MemReady (i f) (presenting 1 unanswered)) ∧ L1Clean s := by decide +kernel

/-- A release of scope 1: done, with a fabric store left too; waiting for a store, for a writeback; with a rejection, of a store or of a
writeback; at scope 4 a fabric store holds it. -/
theorem test_hyp_releaseWaits :
    let p := unanswered
    let bad : Posted := { p with rejected := true }
    let line : Posted := { p with cover := 4, wb := true }
    Waited base (upTo 4) (upTo 3) false true (fenceStart base) ∧ Waited (presenting 1 { p with cover := 4 }) (upTo 4) (upTo 3) false true 9 ∧
    ¬ Waited (presenting 1 p) (upTo 4) (upTo 3) false true 9 ∧ ¬ Waited (presenting 4 { p with cover := 4 }) (upTo 4) (upTo 4) false true 9 ∧
    ¬ Waited (presenting 1 line) (upTo 4) (upTo 3) false true 9 ∧
    Waited (presenting 1 bad) (upTo 4) (upTo 3) false true 9 ∧
    (presenting 1 bad).me.posted.find? (fun q => q.rejected && (upTo 3 q.cover || (q.wb && decide (1 ≤ 1)))) = some bad ∧
    (presenting 1 { line with rejected := true }).me.posted.find? (fun q => q.rejected && (upTo 3 q.cover || (q.wb && decide (1 ≤ 1)))) =
      some { line with rejected := true } := by
  (repeat' apply And.intro) <;> decide +kernel

theorem test_hyp_releaseSends :
    let f := releasing
    let u := withX two [(1, 0x40102000)]
    (∀ i ∈ ([.stRel, .stRelCmp] : List (Fields → Instr)), MemReady (i f) u) ∧ u.localTarget u.myTile (localAddr u f) 8 = .ok (1, 8192) ∧
    localAddr u f % 8 = 0 ∧ u.spillFull 1 = false ∧ Waited u (upTo 4) (upTo 3) false true (fenceStart u) ∧ L1Clean u := by decide +kernel

/-- The fences: presented anew or again. -/
def fenceDone (n : Nat) (s : State) : Bool := decide (Waited s (upTo n) (upTo n) true (decide (1 ≤ n)) (fenceStart s))

theorem test_hyp_fences :
    let s := withX base [(1, 8192)]
    (∀ i ∈ ([.fenceTile, .fenceClu, .fenceDie, .fenceDev, .fenceSys] : List (Fields → Instr)),
      Ready (i {}) s ∧ Ready (i {}) (presenting 1 unanswered) ∧ Ready (i {}) lined) ∧ CanonicalTiles s ∧ L1Clean s ∧
    (∀ n, n < 5 → (presenting n unanswered).me.fence = some n ∧ fenceDone n s = true) := by decide +kernel

/-- A fence of every scope waits for a store of its cover, not for one of a wider cover, and reports a rejection. -/
theorem test_hyp_fenceWaits : ∀ n, n < 5 →
    let p : Posted := { unanswered with cover := n }
    let bad : Posted := { p with rejected := true }
    fenceDone n (presenting n p) = false ∧ fenceDone n (presenting n { p with cover := n + 1 }) = true ∧
    fenceDone n (presenting n bad) = true ∧
    (presenting n bad).me.posted.find? (fun q => q.rejected && upTo n q.cover) = some bad := by decide +kernel

/-- `fence.clu` waits for a writeback of before it, not for a later one; a fence first presented with a dirty line. -/
theorem test_hyp_fenceLines :
    let line : Posted := { unanswered with cover := 3, wb := true }
    ¬ Waited (presenting 1 line) (upTo 1) (upTo 1) true true 9 ∧ Waited (presenting 1 { line with id := 9 }) (upTo 1) (upTo 1) true true 9 ∧
    lined.me.fence = none ∧ (∀ l ∈ (lined.tile lined.myTile).l1, SoundLine lined l ∧ l.dirty ≠ 0) ∧
    (lined.tile lined.myTile).l1 ≠ [] := by decide +kernel

theorem test_acquire_release_fence :
    let s := withStore (withX base [(1, 8192), (5, 7), (3, 9)]) 0 8192 8 9
    let f : Fields := { fld 6 with b := 0, c := 0, rm := 1 }
    let held (i : Instr) : Bool := after? i (s.setMe { s.me with posted := [{ id := 1, addr := 4, cover := 1 }], fence := some 1 }) fun t => t.me.pc == 0
    allTrue [after? (.ldAcq f) s (fun t => t.me.longs.map (fun o => (o.data.toNat, o.acquire)) == [(9, some 1)]),
      after? (.stRel f) s (fun t => readNat (t.tile 0).store 8192 8 == 7), after? (.stRelCmp { f with c := 3, s := true }) s (fun t => readNat (t.tile 0).store 8192 8 == 7),
      after? (.stRelCmp { f with c := 4, s := true }) s (fun t => readNat (t.tile 0).store 8192 8 == 9), held (.fenceClu {}), held (.stRel f),
      after? (.fenceTile {}) s (fun t => t.me.pc == 8), after? (.fenceClu {}) s (fun t => t.me.pc == 8), after? (.fenceDie {}) s (fun t => t.me.pc == 8),
      after? (.fenceDev {}) s (fun t => t.me.pc == 8), after? (.fenceSys {}) s (fun t => t.me.pc == 8)] = true := by decide +kernel

theorem test_hyp_timelines :
    let rec_ (n st : Nat) : TlRec := { num := n, state := st, addr := 77 }
    let s (st : Nat) : State := withX (base.setMe { base.me with tlc := { last := 2, recs := [rec_ 1 2, rec_ 2 st] } }) [(1, 2)]
    (∀ c ∈ [Counter.tlc, .tlm, .tle, .tlg], Ready (.tlRd c (fld 0)) (s 1) ∧ Ready (.tlWait c (fld 0)) (s 1) ∧ Ready (.tlTest c (fld 0)) (s 1)) ∧
    CanonicalTiles (s 1) ∧ (∃ x ∈ (s 1).me.tlc.recs, x.state = 1 ∧ x.num ≤ 2) ∧ (∀ x ∈ (s 2).me.tlc.recs, x.num ≤ 2 → x.state ≠ 1 ∧ (x.state = 3 → x.rep = true)) ∧
    ((s 3).me.tlc.recs.find? fun y => y.state == 3 && !y.rep && decide (y.num ≤ 2)) = some (rec_ 2 3) ∧ L1Clean (s 2) ∧
    ((s 1).me.tlc.recs.find? fun y => y.num == 2) = some (rec_ 2 1) ∧ (∀ x ∈ base.me.tlc.recs, x.num ≠ 2) := by decide +kernel

theorem test_timelines :
    let rec_ (st : Nat) : TlRec := { num := 2, state := st, addr := 77, flags := 4 }
    let s (st : Nat) : State := withX (base.setMe { base.me with tlc := { last := 2, recs := [rec_ st] } }) [(1, 2)]
    allTrue [gives (.tlRd .tlc (fld 0)) (s 1) 2, after? (.tlWait .tlc (fld 0)) (s 1) (fun t => t.me.pc == 0), after? (.tlWait .tlc (fld 0)) (s 2) (fun t => t.me.pc == 8),
      traps (.tlWait .tlc (fld 0)) (s 3) 9 2 77, gives (.tlTest .tlc (fld 0)) (s 2) 0x402, gives (.tlTest .tlc (fld 0)) (withX (s 2) [(1, 1)]) 2,
      gives (.tlTest .tlc (fld 0)) (withX (s 2) [(1, 3)]) 0, gives (.tlRd .tlm (fld 0)) (s 1) 0, gives (.tlRd .tle (fld 0)) (s 1) 0,
      gives (.tlRd .tlg (fld 0)) (s 1) 0] = true := by decide +kernel

/-- A copy of one row of 4 bytes from 8192 to 12288, fp32 to fp32, of strand 0 of tile 0. -/
def copyFields : Fields := { d := 3, a := 1, b := 2, c := 0, ext := .imm64 0x014A00000000 }
def copying (writing : Bool) (row : Nat) : State :=
  let s := withStore (withX base [(1, 8192), (2, 4), (3, 12288)]) 0 8192 4 0x3FC00000
  let c := { s.copyOf s.me copyFields with writing := writing, row := row, buf := if writing then [{ bits := 0x3FC00000 }] else [] }
  { s.setMe { s.me with copies := [c], tlc := { last := 1, recs := [{ num := 1, state := 1 }] } } with arg := { tile := 0, slot := 0 } }

theorem test_hyp_copies :
    let s := withX base [(1, 8192), (2, 4), (3, 12288)]
    CanonicalTiles s ∧ MemReady (.cp copyFields) s ∧ s.me.tlc.full = false ∧ (∀ n ∈ (s.copyOf s.me copyFields).dst.slots, slotOps (s.tile 0) n = 0) ∧
    s.unclaimed (s.copyOf s.me copyFields).dst.slots = none ∧ s.copyTrap (s.copyOf s.me copyFields) = none ∧ (s.tile 0).copyFrozen = none ∧
    (s.copyOf s.me copyFields).rl ≠ 0 ∧ ((withX s [(2, 0)]).copyOf (withX s [(2, 0)]).me copyFields).rl = 0 ∧
    8 * (s.copyOf (writeX s.me 2 3) copyFields).rl % fmtWidth (s.copyOf s.me copyFields).sf ≠ 0 ∧
    s.unclaimed (s.copyOf s.me { copyFields with ext := .imm64 0x054A00000000 }).dst.slots = some 3 ∧
    ({ last := 16, recs := (List.range 16).map fun n => { num := n, state := 1 } } : Timeline).full = true := by decide +kernel

theorem test_hyp_copyElements :
    (∀ w ∈ [false, true], ∀ c ∈ (copying w 0).me.copies, CopyRuns (copying w 0) c ∧ CanonicalTiles (copying w 0)) := by decide +kernel

theorem test_hyp_copyPlaces :
    (∀ w ∈ [false, true], ∀ c ∈ (copying w 0).me.copies, (copying w 0).badWords = [] ∧
      c.src = .store 8192 ∧ c.dst = .store 12288 ∧ 8 ≤ fmtWidth c.sf ∧ 8 ≤ fmtWidth c.df ∧ (copying w 0).olderTo 0 c.stamp (.tile 0) = false ∧ c.bank = none ∧ c.writing = w) ∧
    (∀ c ∈ (copying false 1).me.copies, (copying false 1).me.copyAt false = some c ∧ c.rows ≤ c.row) := by decide +kernel

/-- A copy through handle 1, as a source or a destination, whose page forbids the access; and one whose next element to write is lost. -/
def forbidden (dest : Bool) : State :=
  let s := handled base page
  let s := s.setTile 0 { s.tile 0 with tlb := [{ tag := 0, page := 1, bits := 16, pa := 0x20000, rd := dest, wr := !dest, log := false, d := false, leaf := 0 }] }
  let s := withX s [(1, if dest then 8192 else 0), (2, 4), (3, if dest then 0 else 12288)]
  let x : BitVec 64 := if dest then 0x0080014A00010000 else 0x0040014A00000001
  let c := { s.copyOf s.me { copyFields with ext := .imm64 x } with writing := dest, buf := if dest then [{ bits := 0x3FC00000 }] else [] }
  { s.setMe { s.me with copies := [c], tlc := { last := 1, recs := [{ num := 1, state := 1 }] } } with arg := { tile := 0, slot := 0 } }

theorem test_hyp_copyFaults :
    (∀ w ∈ [false, true], CanonicalTiles (forbidden w) ∧ (forbidden w).badWords = [] ∧ ∀ c ∈ (forbidden w).me.copies, CopyRuns (forbidden w) c ∧ c.writing = w) ∧
    (∀ c ∈ (forbidden false).me.copies, c.src = .handle 1 page 0 ∧ entrySpace page = 0 ∧ (forbidden false).translate 0 c.tag (entryVa page 0) true false = .fault) ∧
    (∀ c ∈ (forbidden true).me.copies, c.dst = .handle 1 page 0 ∧ (c.buf[c.elem]?).map (fun e => e.lost) = some false ∧
      (forbidden true).translate 0 c.tag (entryVa page 0) (fmtWidth c.df == 4) true = .fault) ∧
    (∀ p ∈ [(13, 10), (4, 10), (10, 4), (4, 2)], copyPair p.1 p.2 = true ∧ p.1 ≠ p.2) := by decide +kernel

theorem test_hyp_copyLost :
    let c := { base.copyOf base.me copyFields with writing := true, buf := [{ bits := 0, va := 9, lost := true }] }
    let s := { base.setMe { base.me with copies := [c] } with arg := { tile := 0, slot := 0 } }
    CopyRuns s c ∧ CanonicalTiles s ∧ s.badWords = [] ∧ c.buf[c.elem]? = some { bits := 0, va := 9, lost := true } := by decide +kernel

theorem test_copies :
    allTrue [after? (.cp copyFields) (withX base [(1, 8192), (2, 4), (3, 12288)]) (fun t => t.me.copies.length == 1 && t.me.tlc.last == 1 && t.me.pc == 16),
      after? .copyElement (copying false 0) (fun t => t.me.copies.map (fun c => c.buf.map (fun e => e.bits)) == [[0x3FC00000]]),
      after? .copyElement (copying true 0) (fun t => readNat (t.tile 0).store 12288 4 == 0x3FC00000),
      after? .copyComplete (copying false 1) (fun t => t.me.copies == [] && t.me.tlc.recs.map (fun x => x.state) == [2])] = true := by decide +kernel

/-- q0 an input stream of 4 elements from 8192, q1 an output stream with one element to write, then a flush. -/
def streaming (drains : List DrainItem) : State :=
  let q0 : Port := { isOpen := true, base := .store 8192, n0 := 4, n1 := 1, stride0 := 256 }
  let q1 : Port := { isOpen := true, out := true, base := .store 16384, n0 := 4, n1 := 1, stride0 := 256 }
  let s := withStore base 0 8192 4 55
  { s.setMe { s.me with ports := [(0, q0), (1, q1)], drains := drains, tlc := { last := 1, recs := [{ num := 1, state := 1 }] } } with arg := { tile := 0, slot := 0, op := 0 } }

theorem test_hyp_streamPorts :
    let f : Fields := { d := 32, a := 1 }
    let s := withX base [(1, 4096)]
    let item : Nat := 8192 + 256 * 2 ^ 64 + 4 * 2 ^ 128 + 2 ^ 144
    CanonicalTiles s ∧ 32 ≤ f.d.toNat ∧ MemReady (.qOpen f) s ∧ MemReady (.qClose f) s ∧ MemReady (.qFlush f) s ∧ s.me.tlc.full = false ∧
    (withStore s 0 4096 32 item).openTrap 0 4096 (readNat ((withStore s 0 4096 32 item).tile 0).store 4096 32) = none ∧ s.openTrap 0 4096 0 = some (6, 0, 4096) ∧
    (readX (withX base [(1, 4097)]).me 1).toNat % 32 ≠ 0 ∧ (readPort (streaming []).me 0).isOpen = true ∧ (readPort s.me 0).isOpen = false ∧
    (let u := streaming [.elem 1 (.store 16384) 0 0 7 0, .mark 1 1 true]
     CanonicalTiles u ∧ u.badWords = [] ∧ u.diverts 0 = false ∧ (u.tile 0).copyFrozen = none ∧ (readPort u.me 0).out = false ∧
     (readPort u.me 0).buf.length < 4 ∧ (readPort u.me 0).fetch < 4 ∧ u.olderTo 0 0 (.tile 0) = false ∧ u.me.drains = [.elem 1 (.store 16384) 0 0 7 0, .mark 1 1 true] ∧
     (streaming [.mark 1 1 true]).me.drains = [.mark 1 1 true] ∧ (∀ b ∈ u.me.drainBad, b.1 ≠ 1)) := by decide +kernel

/-- The input stream in device memory: its next element, of two lines, has no part yet. -/
theorem test_hyp_portParts :
    let q : Port := { isOpen := true, base := .handle 1 page 0, n0 := 4, n1 := 1, stride0 := 256 }
    let s := handled base page
    let s : State := { s.setMe { s.me with ports := [(0, q)] } with arg := { tile := 0, slot := 0, op := 0 } }
    CanonicalTiles s ∧ s.badWords = [] ∧ s.diverts 0 = false ∧ (s.tile 0).copyFrozen = none ∧ readPort s.me 0 = q ∧ entrySpace page = 0 ∧ q.gotBad = none ∧ s.retired = 0 ∧
    min (256 - 0) (128 - (entryVa page 0 + 0) % 128) = 128 ∧ s.translate 0 q.tag (entryVa page 0) true false = .page 0x20000 none ∧
    s.olderTo 0 q.stamp (.channel 0) = false := by decide +kernel

theorem test_stream_ports :
    let s := withStore (withX base [(1, 4096)]) 0 4096 32 (8192 + 256 * 2 ^ 64 + 4 * 2 ^ 128 + 2 ^ 144)
    allTrue [after? (.qOpen { d := 32, a := 1 }) s (fun t => (readPort t.me 0).isOpen && (readPort t.me 0).n0 == 4 && (readPort t.me 0).stride0 == 256),
      after? (.qClose { d := 33 }) (streaming []) (fun t => t.me.drains == [.mark 1 2 true] && readPort t.me 1 == {}),
      after? (.qFlush { d := 33 }) (streaming []) (fun t => t.me.drains == [.mark 1 2 true] && (readPort t.me 1).isOpen), traps (.qFlush { d := 34 }) base 7 0 34,
      after? .portRefillElement (streaming []) (fun t => (readPort t.me 0).buf.map (fun e => e.data.toNat) == [55]),
      after? .portDrainElement (streaming [.elem 1 (.store 16384) 0 0 7 0]) (fun t => readNat (t.tile 0).store 16384 256 == 7 && t.me.drains == []),
      after? .portDrainElement (streaming [.mark 1 1 true]) (fun t => t.me.tlc.recs.map (fun x => x.state) == [2])] = true := by decide +kernel

theorem test_hyp_trellisEncodes :
    let f : Fields := { a := 1, b := 2, imm10 := 2 }
    let s := (withX base [(1, 4096), (2, 8192)]).setVf 0 { viterbi := 1 }
    CanonicalTiles s ∧ Ready (.tEnc f) s ∧ (s.cluster 0).encoder.length < 64 ∧ s.me.tle.full = false ∧ s.encodeTrap 4096 8192 (blockBytes 2 1 + 8) = none ∧
    (4097 : Nat) % 4 ≠ 0 ∧ (8196 : Nat) % 8 ≠ 0 ∧
    64 ≤ ((s.setCluster 0 { encoder := List.replicate 64 ⟨0, 0, 1, 4096, 8192, 2, 1, true⟩ }).cluster 0).encoder.length := by decide +kernel

/-- Blocks below XB and beyond the scratch, of an engine that the VF does not own; and blocks below the race ring. -/
def encoding (ta da : Word) : State := withX base [(1, ta), (2, da)]
def ringed : State := ((encoding 4096 8192).setTile 0 { base.tile 0 with race := true }).setVf 0 { viterbi := 1 }

theorem test_hyp_encodeFaults :
    (∀ s ∈ [encoding 4092 8192, encoding 69632 8192, encoding 4096 4088, encoding 4096 69632, encoding 4096 8192],
      CanonicalTiles s ∧ Ready (.tEnc { a := 1, b := 2, imm10 := 2 }) s ∧ (readX s.me 1).toNat % 4 = 0 ∧ (readX s.me 2).toNat % 8 = 0) ∧
    (base.tile 0).race = false ∧ (base.tile 0).xb = 4096 ∧ (base.tile 0).scr = 65536 ∧ blockBytes 2 1 + 8 ≤ 4096 ∧
    (base.vf 0).viterbi.getLsbD (clusterOf base.myTile) = false := by decide +kernel

theorem test_hyp_encodeBelowRing :
    CanonicalTiles ringed ∧ Ready (.tEnc { a := 1, b := 2, imm10 := 2 }) ringed ∧ (ringed.tile 0).race = true ∧ 4096 + 1024 ≤ (ringed.tile 0).ringBase ∧
    8192 + (blockBytes 2 1 + 8) ≤ (ringed.tile 0).ringBase := by decide +kernel

theorem test_hyp_viterbiBlocks :
    let s := (withX base [(1, 4096), (2, 8192)]).setVf 0 { viterbi := 1 }
    (let e : EncOp := ⟨0, 0, 1, 4096, 8192, 2, 1, true⟩
     let u := s.setCluster 0 { encoder := [e] }
     CanonicalTiles u ∧ mapWf {} u.clusters = true ∧ u.badWords = [] ∧ (u.cluster u.arg.cluster).encoder = [e] ∧ (u.cluster u.arg.cluster).targets = none ∧
     (u.tile 0).preempt ≠ .saved ∧ (targetUnits 0).isSome = true ∧ targetUnits 0x7FC00000 = none) := by decide +kernel

theorem test_trellis_encodes :
    let s := (withX base [(1, 4096), (2, 8192)]).setVf 0 { viterbi := 1 }
    let e : EncOp := ⟨0, 0, 1, 4096, 8192, 2, 1, true⟩
    let r := { s.me with tle := { last := 1, recs := [{ num := 1, state := 1 }] } }
    allTrue [after? (.tEnc { a := 1, b := 2, imm10 := 2 }) s (fun t => (t.cluster 0).encoder == [e] && t.me.tle.last == 1),
      after? .viterbiBlockStart (s.setCluster 0 { encoder := [e] }) (fun t => ((t.cluster 0).targets.map fun l => l.length) == some 256),
      after? .viterbiBlockComplete ((s.setMe r).setCluster 0 { encoder := [e], targets := some (List.replicate 256 0x7FC00000) }) (fun t =>
        t.me.tle.recs.map (fun x => x.state) == [3] && t.me.status == 1 && (t.cluster 0).encoder == [])] = true := by decide +kernel

/-! Traps, strands, barriers, spans, control registers and system calls. -/

/-- The words of decode tests stored at the PC. -/
theorem test_hyp_stepRunsDecoded :
    let s := State.reset.withFetchWord 64 0xFF40200080061404
    let u : State := { s with cur := 0, cursor := 1 }
    startDue s = none ∧ s.agenda = [] ∧ nextInternal s = none ∧ nextStrand s = some 0 ∧ externalStep (.nop {}) = false ∧ u.me.run = .running ∧
    (u.tile u.myTile).preempt.runs = true ∧ (u.vf (u.launchOf u.myTile).vf).reset = none ∧ u.me.startedAt ≠ u.cycle + 1 ∧ u.me.broken = false ∧
    expiredLevel u.me u.dt = none ∧ hyTimedOut u (.add { d := 5, a := 6, s := true, fmt := 4, imm10 := 0x3FD }) = false ∧
    startDue { s with agenda := [(.nop {}, {})] } = none ∧ nextStrand { s with agenda := [(.nop {}, {})] } = some 0 ∧
    u.me.pc.toNat < (u.tile u.myTile).xb ∧
    badIn u.badWords (localPa u.myTile u.me.pc.toNat) ((lengthOf ((fetchBytes (u.tile u.myTile) u.me.pc.toNat).headD 0)).getD 4) = none ∧
    decodeAt u.me.pc.toNat (fetchBytes (u.tile u.myTile) u.me.pc.toNat) = .ok (.add { d := 5, a := 6, s := true, fmt := 4, imm10 := 0x3FD }) := by decide +kernel

/-- R80's example word in a step: x5 := x6 − 3, saturating in i32. -/
theorem test_step_runs :
    (match step ((State.reset.withFetchWord 64 0xFF40200080061404).setStrand 0
        { (State.reset.withFetchWord 64 0).strand 0 with x := [(6, 0xFFFFFFFF80000001)] }) with
      | .next t => readX t.me 5 == 0xFFFFFFFF80000000 && t.me.pc == 8
      | _ => false) = true := by decide +kernel

theorem test_hyp_slotsAndCycles :
    startDue base = none ∧ base.agenda = [] ∧ nextInternal base = none ∧ nextStrand base = some 0 ∧ base.mhz = 600 ∧
    endDue { base with cursor := 1 } = none ∧ startDue { base with cursor := 1 } = none ∧
    (∀ r ∈ [Run.parked, .frozen], nextStrand (base.setStrand 0 { base.me with run := r }) = some 0) ∧
    nextStrand (base.setStrand 0 { base.me with run := .waiting }) = some 0 ∧ base.me.broken = false ∧ base.me.depth = 0 ∧
    (base.strand 1).run = .free ∧ nextInternal { base with cursor := 1 } = none ∧ nextStrand { base with cursor := 1 } = none ∧
    regsPending (.mov (fld 0)) (base.setMe { base.me with longs := [{ id := 1, dest := .x 1 }] }).me = true := by decide +kernel

theorem test_slots_and_cycles :
    (match step { base with cursor := 1 } with
      | .next t => t.cycle == 9 && t.dt36 == 60
      | _ => false) = true := by decide +kernel

theorem test_hyp_fetchTraps :
    (((0x0F : Byte) :: []).headD 0).toNat % 4 = 3 ∧ (((0x04 : Byte) :: []).headD 0).toNat % 4 = 0 ∧ 24 < 28 % 32 ∧
    (((0x05 : Byte) :: []).headD 0).toNat % 4 = 1 ∧ 20 < 24 % 32 ∧ (((0x06 : Byte) :: []).headD 0).toNat % 4 = 2 ∧ 16 < 20 % 32 ∧
    (let s := base.setMe { base.me with pc := 4096 }
     (s.tile s.myTile).xb ≤ s.me.pc.toNat ∧ fetchAct s = .event .overlayFetch ∧ causeActive s.me.cause = false) ∧
    (let w (v : Nat) : State := State.reset.withFetchWord 64 v
     (w 0).me.pc.toNat < ((w 0).tile 0).xb ∧ (w 0).badWords = [] ∧ decodeAt 0 (fetchBytes ((w 3).tile 0) 0) = .error .unassigned ∧
     decodeAt 0 (fetchBytes ((w 0xBC).tile 0) 0) = .error .unassigned ∧ decodeAt 28 [0x60, 0, 0, 0, 0, 0, 0, 0, 0, 0, 0, 0, 0, 0, 0, 0] = .error .straddle ∧
     decodeAt 0 (fetchBytes ((w 0x10000060).tile 0) 0) = .error .field ∧ decodeAt 0 (fetchBytes ((w 4).tile 0) 0) = .error .format ∧
     fetchAct (w 3) = .event .illegalInstruction) := by decide +kernel

theorem test_fetch_traps :
    let s (v : Nat) : State := State.reset.withFetchWord 64 v
    let at_ (o : Host.Outcome State Fault Refusal) (code info : Nat) (pc : BitVec 32) : Bool := match o with
      | .next t => t.me.cause == causeOf info code && t.me.pc == pc && t.me.epc == 0
      | _ => false
    allTrue [at_ (step (s 3)) 1 3 64, at_ (step (s 0x10000060)) 1 0x10000060 64, at_ (step (s 4)) 2 4 128,
      after? .overlayFetch (base.setMe { base.me with pc := 4096, ovh := 256 }) (fun t => t.me.pc == 256 && t.me.cause == causeOf 0 4 && t.me.badaddr == 4096)] = true := by
  decide +kernel

theorem test_hyp_trapEntry :
    causeActive base.me.cause = false ∧ base.me.run = .running ∧
    (∀ code ∈ [1, 2, 3, 5, 6, 7, 8, 9, 10, 13, 14, 15, 16, 17, 20, 21], EntersAtTvb code) ∧ ¬ EntersAtTvb 4 ∧
    (0 : Nat) < 2 ^ 32 ∧ causeActive (causeOf 0 1) = true ∧ base.me.task = none := by decide +kernel

theorem test_trap_entry :
    allTrue [after? (.trap { imm10 := 0x3FF }) base (fun t => t.me.cause == causeOf 0xFFFFFFFF 20 && t.me.epc == 8 && t.me.pc == 1280 && t.me.badaddr == 0),
      after? (.eret {}) (base.setMe { base.me with epc := 64, cause := causeOf 7 20 }) (fun t => t.me.pc == 64 && t.me.cause == 0x700000014),
      after? .illegalInstruction ((State.reset.withFetchWord 64 3).setMe { base.me with cause := causeOf 0 5, epc := 12 }) (fun t =>
        t.me.run == .parked && t.me.epc == 12 && t.me.cause == causeOf 1 19)] = true := by decide +kernel

theorem test_hyp_strandLife :
    let s := withX two [(3, 64), (4, 66)]
    let f : Fields := { d := 5, a := 10, b := 12, c := 3 }
    CanonicalTiles s ∧ Ready (.fork f) s ∧ s.me.run = .running ∧ ((readX s.me 3).setWidth 32 : BitVec 32).toNat % 4 = 0 ∧
    ((readX s.me 4).setWidth 32 : BitVec 32).toNat % 4 ≠ 0 ∧ (s.strand 1).run = .free ∧ (s.strand 1).issuedAt ≠ s.cycle + 1 ∧
    (∀ k, k < 8 → ((List.range 8).foldl (fun u k => u.setStrand k { u.strand k with run := .running }) s).strand k ≠ {}) ∧
    longRoom s.me false = true ∧ Ready (.spawn f) s ∧ Ready (.lnGo f) s ∧ (s.launchOf 0).w ≤ (2 : Nat) ∧ (1 : Nat) < (s.launchOf 0).w ∧ (0 : Nat) < (s.launchOf 0).h ∧
    ((0 : Nat) % 2 ^ 1 = 0 ∧ (0 : Nat) + 2 ^ 1 ≤ (s.launchOf 0).w ∧ (0 : Nat) + 2 ^ 0 ≤ (s.launchOf 0).h ∧ ¬ ((1 : Nat) + 2 ^ 1 ≤ (s.launchOf 0).w)) := by decide +kernel

/-- A start message from strand 0 of tile 0 to tile 1, and a device-side launch of tile 1. -/
def starting (b : Body) : State :=
  { two.setMe { two.me with longs := [{ id := 5, dest := .x 1, answered := true, waiting := 1 }] } with
    net := [{ id := 3, src := 0, home := .tile 1, addr := 0, body := b }], arg := { message := 3 }, fresh := 9 }
def spawnBody : Body := .spawn 5 64 1 2 3 4 5 0 false
def lnGoBody : Body := .lnGo 5 (launchKey 0 1) 1 0 0 0 64 1 2 0 false

theorem test_hyp_startArrivals :
    (∀ b ∈ [spawnBody, lnGoBody], CanonicalTiles (starting b) ∧
      (starting b).message (starting b).arg.message = some { id := 3, src := 0, home := .tile 1, addr := 0, body := b } ∧ (starting b).slotPassed 1 = true ∧
      (∀ k, k < 8 → ((starting b).strand (8 + k)).run = .free ∧ ((starting b).strand (8 + k)).issuedAt ≠ (starting b).cycle + 1) ∧
      ((starting b).tile 1).preempt = .running ∧ (starting b).cycle % 8 = 0) ∧
    (two.launch (launchKey 0 1)).ox + 1 + 2 ^ 0 ≤ 32 ∧ (two.vf (two.launchOf 1).vf).frozen = false ∧ (two.tile 1).lnGo = none ∧
    (two.tile 1).lnGoAt ≠ two.cycle + 1 ∧ (two.tile 1).spawnAt ≠ two.cycle + 1 := by decide +kernel

/-- A target that is saved, reserved, started by a device-side launch in this cycle, or full; a device-side launch that waits to start. -/
def occupied (b : Body) (n : Nat) : State :=
  let s := starting b
  let t := s.tile 1
  if n = 0 then s.setTile 1 { t with preempt := .saved } else if n = 1 then s.setTile 1 { t with lnGo := some 7 }
  else if n = 2 then s.setTile 1 { t with lnGoAt := s.cycle + 1 } else if n = 3 then s.setTile 1 { t with lnGo := some 3 }
  else if n = 4 then { s with cycle := s.cycle + 3 } else { (List.range 8).foldl (fun s k => s.setStrand (8 + k) { run := .running }) s with cursor := 2 }

theorem test_hyp_startBounces :
    (∀ n ∈ [0, 1, 2, 5], CanonicalTiles (occupied spawnBody n) ∧ (occupied spawnBody n).slotPassed 1 = true) ∧
    ((occupied spawnBody 0).tile 1).preempt = .saved ∧ ((occupied spawnBody 1).tile 1).lnGo = some 7 ∧
    ((occupied spawnBody 2).tile 1).lnGoAt = (occupied spawnBody 2).cycle + 1 ∧ (∀ k, k < 8 → ((occupied spawnBody 5).strand (8 + k)).run ≠ .free) := by
  decide +kernel

/-- A device-side launch of a tile that is busy; that it has reserved; and that is idle, in a cycle that starts no strand. -/
theorem test_hyp_lnGoReservation :
    (∀ n ∈ [3, 4, 5], CanonicalTiles (occupied lnGoBody n) ∧ (occupied lnGoBody n).slotPassed 1 = true ∧ ((occupied lnGoBody n).tile 1).spawnAt ≠ (occupied lnGoBody n).cycle + 1) ∧
    ((occupied lnGoBody 3).tile 1).lnGo = some 3 ∧ (occupied lnGoBody 3).cycle % 8 = 0 ∧ (occupied lnGoBody 4).cycle % 8 ≠ 0 ∧ ((occupied lnGoBody 4).tile 1).lnGo = none ∧
    (∀ k, k < 8 → ((occupied lnGoBody 4).strand (8 + k)).run = .free ∧ ((occupied lnGoBody 4).strand (8 + k)).issuedAt ≠ (occupied lnGoBody 4).cycle + 1) ∧
    ((occupied lnGoBody 5).strand 8).run = .running ∧ ((occupied lnGoBody 5).tile 1).lnGo = none := by decide +kernel

theorem test_strand_life :
    let s := withX two [(3, 64), (10, 1), (11, 2), (12, 3), (13, 4)]
    let f : Fields := { d := 5, a := 10, b := 12, c := 3 }
    allTrue [after? (.fork f) s (fun t => readX t.me 5 == 1 && (t.strand 1).run == .running && (t.strand 1).pc == 64 && readX (t.strand 1) 1 == 1 && readX (t.strand 1) 2 == 3),
      traps (.fork f) (withX two [(3, 66)]) 5 0 66, after? (.spawn { f with c := 20, imm10 := 16 }) (withX s [(20, 1)]) (fun t => t.net.map (fun m => (m.home, m.body)) ==
        [(.tile 1, .spawn 0 64 1 2 3 4 0 0 false)]), traps (.spawn { f with c := 20 }) (withX s [(20, 2)]) 17 0 2,
      after? (.lnGo { f with a := 20, imm10 := 16 }) (withX s [(20, 1)]) (fun t => t.net.map (fun m => m.home) == [.tile 1]), traps (.lnGo { f with a := 20 }) (withX s [(20, 0x10001)]) 6 0 0x10001,
      after? .spawnArrival (starting spawnBody) (fun t => (t.strand 8).run == .running && readX (t.strand 8) 5 == 5 && t.me.longs.map (fun o => o.waiting) == [0]),
      after? .lnGoArrival (starting lnGoBody) (fun t => (t.strand 8).run == .running && readX (t.strand 8) 2 == 2 && t.me.longs.map (fun o => o.waiting) == [0]),
      after? .spawnArrival (occupied spawnBody 1) (fun t => (t.strand 8).run == .free && t.me.longs.map (fun o => o.data) == [1]),
      after? .lnGoArrival (occupied lnGoBody 4) (fun t => (t.strand 8).run == .free && (t.tile 1).lnGo == some 3)] = true := by
  decide +kernel

theorem test_hyp_halt :
    CanonicalTiles base ∧ Ready (.halt {}) base ∧ base.me.depth = 0 ∧ base.me.longs = [] ∧ base.me.posted = [] ∧ base.me.drains = [] ∧ base.me.drainBad = [] ∧
    base.me.task = none ∧ (base.setMe { base.me with depth := 1 }).me.depth = 1 ∧ (base.setMe { base.me with task := some 3 }).me.task = some 3 ∧
    (base.setMe { base.me with posted := [{ id := 1, addr := 9, cover := 3 }] }).me.posted ≠ [] ∧
    (base.setMe { base.me with drainBad := [(1, 9)] }).me.drainBad = [(1, 9)] ∧ (base.setMe { base.me with drainBad := [(1, 9)] }).me.posted = [] := by decide +kernel

theorem test_halt :
    let s (r : Strand) : State := base.setMe r
    allTrue [after? (.halt {}) base (fun t => t.me.run == .free), traps (.halt {}) (s { base.me with depth := 2 }) 16 2 0,
      after? (.halt {}) (s { base.me with posted := [{ id := 1, addr := 9, cover := 3 }] }) (fun t => t.me.pc == 0 && t.me.run == .running),
      traps (.halt {}) (s { base.me with posted := [{ id := 1, addr := 9, cover := 3, rejected := true }] }) 10 0 9,
      traps (.halt {}) (s { base.me with drainBad := [(1, 7)] }) 10 0 7] = true := by decide +kernel

/-- The barrier of two tiles with id 1: who has arrived. -/
def barrier (a b : Bool) : State :=
  let bit (x : Bool) : Map (BitVec 2) := if x then [(5, 2)] else []
  let s := two.setTile 0 { two.tile 0 with halyard := bit a }
  { s.setTile 1 { s.tile 1 with halyard := bit b } with arg := { tile := 0, lw := 1, lh := 0, id := 1 } }

theorem test_hyp_halyards :
    let f : Fields := { d := 5, a := 1, b := 2, imm10 := 1 }
    CanonicalTiles (barrier true false) ∧ (∀ i ∈ ([.hyArrive, .hyWait, .hyTry] : List (Fields → Instr)), Ready (i f) two) ∧
    ((two.launchOf 0).lw < 2 ∧ 1 ≤ (two.launchOf 0).lw ∧ 0 ≤ (two.launchOf 0).lh) ∧ two.me.hyIssue = none ∧
    (mapGet 0 ((barrier true false).tile 0).halyard 5 : BitVec 2).getLsbD 1 = true ∧ (mapGet 0 ((barrier false false).tile 0).halyard 5 : BitVec 2).getLsbD 1 = false ∧
    two.dt.toNat + (readX two.me 2).toNat ≤ two.dt.toNat ∧ two.dt.toNat < two.dt.toNat + (readX (withX two [(2, 7)]).me 2).toNat ∧
    (let w := State.reset.withFetchWord 64 0x0080000000811768
     let w := (withX w [(1, 1)]).setMe { (withX w [(1, 1)]).me with hyIssue := some 0 }
     fetchAct w = .run (.hyWait { d := 5, a := 1, b := 2, imm10 := 2 }) ∧ w.me.hyIssue = some 0) ∧
    ((barrier true true).tile 0).launch.isSome = true ∧ (two.launchOf 0).ox + (two.launchOf 0).w ≤ 32 ∧ (two.launchOf 0).ox ≤ tileX 0 ∧
    tileX 0 < (two.launchOf 0).ox + (two.launchOf 0).w ∧ 3 < ({ f with imm10 := 5 } : Fields).imm10.toNat ∧
    (∀ i ∈ ([.hyArrive, .hyWait, .hyTry] : List (Fields → Instr)), Ready (i { f with imm10 := 5 }) two) := by decide +kernel

/-- A `hy.wait` that waits since time 0: its phase completed; not completed, in time or past its limit. -/
theorem test_hyp_halyardHeld :
    let f : Fields := { d := 5, a := 1, b := 2, imm10 := 1 }
    let s (passed : Bool) (limit : Word) : State := (withX two [(1, 1), (2, limit)]).setMe { (withX two [(1, 1), (2, limit)]).me with hyIssue := some 0, hyKey := 5, hyPassed := passed }
    CanonicalTiles (s true 9) ∧ Ready (.hyWait f) (s true 9) ∧ (s true 9).me.hyIssue = some 0 ∧ (s true 9).me.hyPassed = true ∧
    CanonicalTiles (s false 9) ∧ Ready (.hyWait f) (s false 9) ∧ (s false 9).me.hyPassed = false ∧ (s false 9).dt.toNat < 9 ∧
    0 ≤ (s false 0).dt.toNat := by decide +kernel

theorem test_halyards :
    let f : Fields := { d := 5, a := 1, b := 2, imm10 := 1 }
    let x (s : State) (l : Word) : State := withX s [(1, 1), (2, l)]
    let bits (t : State) (n : Nat) : BitVec 2 := mapGet 0 (t.tile n).halyard 5
    allTrue [after? (.hyArrive f) (x (barrier false false) 0) (fun t => bits t 0 == 2 && bits t 1 == 0 && t.me.pc == 8), gives (.hyTry f) (x (barrier true false) 0) 0,
      gives (.hyTry f) (x (barrier false false) 0) 1, gives (.hyWait f) (x (barrier false false) 9) 0, gives (.hyWait f) (x (barrier true false) 0) 1,
      after? (.hyWait f) (x (barrier true false) 9) (fun t => t.me.hyIssue == some 0 && t.me.pc == 0), traps (.hyTry f) (withX two [(1, 2)]) 6 0 2,
      traps (.hyTry { f with imm10 := 5 }) (withX two [(1, 2)]) 1 0 0, traps (.hyArrive { f with imm10 := 5 }) two 1 0 0,
      after? .halyardPhaseComplete (barrier true true) (fun t => bits t 0 == 1 && bits t 1 == 1), after? .halyardPhaseComplete (barrier true false) (fun t => bits t 0 == 2)] = true := by
  decide +kernel

/-- One open span of minimum 10 and maximum 20 ns at time 0, and the time. -/
def spanned (ns : Nat) (r : Strand) : State :=
  { base.setMe { r with depth := 1, spans := [(0, ⟨0, 10, 20, 256, 30⟩)] } with dt36 := 36 * ns }

theorem test_hyp_spans :
    let f : Fields := { a := 1, b := 2, c := 3, imm10 := 4 }
    CanonicalTiles base ∧ mapWf {} base.me.spans = true ∧ Ready (.spanOpen f) base ∧ Ready (.spanClose {}) base ∧ base.me.depth < 4 ∧ base.me.depth = 0 ∧
    (base.tile 0).preempt = .running ∧ (base.setMe { base.me with depth := 4 }).me.depth = 4 ∧
    (readX (withX base [(1, 9), (2, 8)]).me 2).toNat < (readX (withX base [(1, 9), (2, 8)]).me 1).toNat ∧
    (base.setTile 0 { base.tile 0 with preempt := .deferring 5 }).me.depth = 0 ∧
    (spanned 9 base.me).me.depth = 0 + 1 ∧ (spanned 9 base.me).dt.toNat < 0 + 10 ∧ 0 + 10 ≤ (spanned 10 base.me).dt.toNat ∧
    (0 + 20 ≤ (spanned 20 base.me).dt.toNat ∧ 0 + 20 < 2 ^ 64 ∧ 0 < (spanned 20 base.me).me.depth ∧ (spanned 20 base.me).me.depth ≤ 4) ∧
    (spanned 20 base.me).me.hp.getLsbD 0 = false ∧ (spanned 20 { base.me with hp := 1 }).me.hp.getLsbD 0 = true ∧ (spanned 20 { base.me with broken := true }).me.broken = true ∧
    (spanned 20 base.me).me.task = none ∧ (0 : Nat) < 2 := by decide +kernel

theorem test_spans :
    let f : Fields := { a := 1, b := 2, c := 3, imm10 := 4 }
    let s := withX base [(1, 10), (2, 20), (3, 30)]
    allTrue [after? (.spanOpen f) s (fun t => t.me.depth == 1 && mapGet {} t.me.spans 0 == ⟨0, 10, 20, 16, 30⟩ && t.me.pc == 8), traps (.spanOpen f) (withX s [(1, 21)]) 6 0 21,
      traps (.spanOpen f) (s.setMe { s.me with depth := 4 }) 16 4 0, after? (.spanClose {}) (spanned 9 base.me) (fun t => t.me.pc == 0 && t.me.depth == 1),
      after? (.spanClose {}) (spanned 10 base.me) (fun t => t.me.pc == 8 && t.me.depth == 0), traps (.spanClose {}) base 16 0 0,
      after? .spanOverrun (spanned 20 base.me) (fun t => t.me.pc == 256 && t.me.cause == causeOf 0 11 && mapGet {} t.me.spans 0 == ⟨20, 0, 30, 256, 30⟩ && t.me.hp == 1),
      after? .spanHandlerPark (spanned 20 { base.me with hp := 1 }) (fun t => t.me.run == .parked && t.me.cause == causeOf 11 19),
      after? .spanEscalation ((spanned 20 base.me).setMe { base.me with depth := 2, hp := 2, spans := [(0, ⟨0, 10, 90, 256, 30⟩), (1, ⟨0, 10, 20, 512, 30⟩)] }) (fun t =>
        t.me.pc == 256 && t.me.depth == 1 && t.me.esc == 1),
      after? .spanBroken (spanned 5 { base.me with broken := true }) (fun t => t.me.pc == 256 && t.me.cause == causeOf 0 12)] = true := by decide +kernel

theorem test_hyp_controlRegistersAndSystemCalls :
    CanonicalTiles base ∧ (∀ n ∈ ([0, 9, 10, 33, 38] : List (BitVec 10)), Ready (.ctlRd { d := 5, imm10 := n }) base ∧ Ready (.ctlWr { a := 1, imm10 := n }) base) ∧
    6 ≤ (readX (withX base [(1, 0x700)]).me 1).toNat / 256 % 8 ∧ (readX (withX base [(1, 0x500)]).me 1).toNat / 256 % 8 < 6 ∧
    longRoom base.me false = true ∧ base.cur < 2 ^ 13 ∧
    (∀ i ∈ ([.sysCallEcho, .sysCallTablegen, .sysCallDefer, .sysCallOwned, .sysCallUnassigned, .sysCallPost] : List (Fields → Instr)), Ready (i (fld 0)) base) ∧
    base.mem.wf = true ∧ (BitVec.ofNat 64 (readNat base.mem 0 8) - BitVec.ofNat 64 (readNat base.mem 8 8)).toNat < 4096 ∧
    4096 ≤ (BitVec.ofNat 64 (readNat (writeBytes [] 1 [16]) 0 8) - BitVec.ofNat 64 (readNat (writeBytes [] 1 [16]) 8 8)).toNat := by decide +kernel

/-- R216's example of TILEID and FIELD. -/
theorem test_control_registers :
    let k := launchKey 0 7
    let l : Launch := { number := 7, ox := 16, oy := 8, lw := 4, lh := 3, xb := 4096, scr := 65536, started := true }
    let t := tileAt 21 14
    let s : State := { ((State.reset.setLaunch k l).setTile t { launch := some k, xb := 4096, scr := 65536 }).setStrand (t * 8 + 3) { run := .running, status := 0x11, epc := 4 } with cur := t * 8 + 3 }
    let rd (n : BitVec 10) : Instr := .ctlRd { d := 5, imm10 := n }
    let wr (n : BitVec 10) (v : Word) (p : Strand → Bool) : Bool := after? (.ctlWr { a := 1, imm10 := n }) (withX s [(1, v)]) fun t => p t.me
    allTrue [gives' (rd 35) s 0x00011D030E150605, gives' (rd 36) s 0x0000000700340810, gives' (rd 0) s 0x11, gives' (rd 6) s 4,
      wr 0 0x0000000000000701 (fun r => r.cause == causeOf 0 1), wr 0 0x501 (fun r => r.status == 0x510), wr 5 0xFFF (fun r => r.tvb == 0xFC0),
      wr 4 0xFFF (fun r => r.ovh == 0xFFC), wr 1 9 (fun r => r.seed == 9), wr 38 0x1FFFFFFFF (fun r => r.tbr == 0xFFFFFFFF)] = true := by decide +kernel

theorem test_system_calls :
    let s := withX base [(1, 0x55)]
    allTrue [starts (.sysCallEcho (fld 0)) s 0x55, starts (.sysCallTablegen (fld 0)) s 0, starts (.sysCallDefer (fld 0)) s 20000, starts (.sysCallOwned (fld 0)) s 0,
      starts (.sysCallUnassigned (fld 0)) s 0xFFFFFFFFFFFFFFFF,
      after? (.sysCallPost (fld 0)) s (fun t => readNat t.mem 0 8 == 1 && readNat t.mem 80 8 == 0x55 && readNat t.mem 71 1 == 9)] = true := by decide +kernel

/-! Homes, answers, tasks and hoists. -/

/-- A message from strand 8 (tile 1) on its way to a home. -/
def sent (h : Home) (b : Body) : Msg := { id := 3, src := 8, home := h, addr := 8192, body := b }
def sending (h : Home) (b : Body) : State :=
  let s := two.setStrand 8 { run := .running, longs := [{ id := 5, dest := .x 4, waiting := 1 }] }
  { s with net := [sent h b], arg := { message := 3 }, fresh := 9, cursor := 2 }

/-- The requests of every form. -/
def bodies : List Body :=
  [.read 5 0 8 0 1, .write 7 0 [1, 2], .writeCmp 7 [1, 2] [0, 0], .writeback 7 5 1, .atomic 5 0 6 3 0, .atomic 5 8 10 3 0, .atomic 5 9 6 3 0,
   .fill 5 0 512 [(0, 0, 8)]]

/-- `Served`, by evaluation. -/
def servedNow (s : State) (m : Msg) : Bool :=
  s.message s.arg.message == some m && s.mayServe m && s.refusal m (s.arg.refused || s.unsent m) == none && m.leaf == none && s.badWords == [] && m.cut == none &&
  match m.home with
  | .tile t => !s.diverts t && !(s.tile t).race
  | .channel _ => true
  | _ => false

theorem served_of_now {s : State} {m : Msg} (h : servedNow s m = true) : Served s m := by
  simp only [servedNow, Bool.and_eq_true, beq_iff_eq] at h
  obtain ⟨⟨⟨⟨⟨⟨h1, h2⟩, h3⟩, h4⟩, h5⟩, h6⟩, h7⟩ := h
  refine ⟨h1, h2, h6, fun c e => ?_, fun e => ?_, h3, h4, h5, fun t e => ?_⟩ <;> simp_all

theorem test_hyp_homeService :
    ∀ h ∈ [Home.tile 0, .channel 0], ∀ b ∈ bodies,
      Served (sending h b) (sent h b) ∧ Canonical (sending h b) ∧ (sending h b).diverts 1 = false ∧
      l1Find ((sending h b).tile 1) 0 (512 * 128) = none ∧ ((sending h b).tile 1).l1.length < ((sending h b).tile 1).l1Lines := by
  have now : ∀ h ∈ [Home.tile 0, .channel 0], ∀ b ∈ bodies, servedNow (sending h b) (sent h b) = true := by decide +kernel
  exact fun h hh b hb => ⟨served_of_now (now h hh b hb), (by decide +kernel : ∀ h ∈ [Home.tile 0, .channel 0], ∀ b ∈ bodies,
    Canonical (sending h b) ∧ (sending h b).diverts 1 = false ∧ l1Find ((sending h b).tile 1) 0 (512 * 128) = none ∧
    ((sending h b).tile 1).l1.length < ((sending h b).tile 1).l1Lines) h hh b hb⟩

/-- A fill of a line that the tile holds. -/
def refilling : State :=
  let s := sending (.channel 0) (.fill 5 0 512 [(0, 0, 8)])
  s.setTile 1 { s.tile 1 with l1 := [{ tag := 0, line := 512, home := .channel 0, pa := 8192, data := 0x99, valid := 0xFFFF, dirty := 0xFF, writer := 8 }] }

theorem test_hyp_homeFill :
    Served refilling (sent (.channel 0) (.fill 5 0 512 [(0, 0, 8)])) ∧ Canonical refilling ∧ (l1Find (refilling.tile 1) 0 (512 * 128)).isSome = true :=
  ⟨served_of_now (by decide +kernel), by decide +kernel⟩

/-- Two messages for one home. -/
def contending (m n : Msg) : State := { sending m.home m.body with net := [n, m], arg := { message := m.id } }

/-- What waits: behind an earlier request of its source; before the tile's own slot; a fill behind a writeback of its line; a source served
before while another's request waits; and a request that waits sees another source served. -/
theorem test_hyp_serviceOrder :
    let m := sent (.tile 0) (.write 7 0 [1])
    let fill : Msg := { sent (.channel 0) (.fill 5 0 512 []) with id := 4 }
    let wb : Msg := { sent (.channel 0) (.writeback 7 5 1) with src := 9 }
    let seen : Msg := { m with id := 2, src := 9, passed := [8] }
    let fresh : Msg := { m with id := 2, src := 9 }
    let behind := contending { m with id := 4 } m
    (behind.message behind.arg.message = some { m with id := 4 } ∧ behind.net.find? (fun n => n.src == 8 && n.home == .tile 0) = some m) ∧
    (({ sending m.home m.body with cursor := 0 } : State).strand (0 * 8 + 0)).run ≠ .free ∧
    wb ∈ (contending fill wb).net ∧ wb.src / 8 = fill.src / 8 ∧ wb.home = fill.home ∧ wb.id < fill.id ∧ wb.addr = fill.addr ∧
    wb ∈ (contending { wb with id := 4 } wb).net ∧
    seen ∈ (contending m seen).net ∧ (contending m seen).lineHeld seen = false ∧
    ((contending m fresh).mayServe m = true ∧ (contending m fresh).diverts 1 = false ∧ (contending m fresh).firstOf fresh = true ∧
      (contending m fresh).diverts 0 = false) := by decide +kernel

/-- Accesses that are refused: of a withdrawn page, of a retired channel, of a channel that the VF lost. -/
def refusedMsgs (b : Body) : List (State × Msg) :=
  let s := sending (.channel 0) b
  let m := sent (.channel 0) b
  [({ s with net := [{ m with withdrawn := true }] }, { m with withdrawn := true }), ({ s with retired := 1 }, m),
   ({ (s.setVf 0 { s.vf 0 with channels := 0 }) with net := [{ m with tag := some 0 }] }, { m with tag := some 0 })]

theorem test_hyp_refusals :
    ∀ b ∈ [Body.write 7 0 [1], .read 5 0 8 0 1, .atomic 5 0 6 3 0], ∀ q ∈ refusedMsgs b,
      Canonical q.1 ∧ q.1.message q.1.arg.message = some q.2 ∧ q.1.mayServe q.2 = true ∧ q.2.home = .channel 0 ∧
      (q.2.withdrawn = true ∨ q.1.retired.getLsbD 0 = true ∨ (q.2.tag = some 0 ∧ q.1.reaches (0 / 8) q.2.addr = false)) := by decide +kernel

/-- Accesses to a tile of another launch. -/
theorem test_hyp_refusalOfTile :
    ∀ b ∈ [Body.write 7 0 [1], .read 5 0 8 0 1, .atomic 5 0 6 3 0],
      let s := (sending (.tile 0) b).setTile 0 { two.tile 0 with launch := some 3 }
      Canonical s ∧ s.message s.arg.message = some (sent (.tile 0) b) ∧ s.mayServe (sent (.tile 0) b) = true ∧ s.diverts 0 = false ∧
      (s.tile 0).launch ≠ (s.tile 1).launch := by decide +kernel

/-- A store to a tile with a race ring. -/
def racing : State := (sending (.tile 0) (.write 7 1 [9])).setTile 0 { two.tile 0 with race := true }

theorem test_hyp_raceRing :
    let m := sent (.tile 0) (.write 7 1 [9])
    Canonical racing ∧ racing.message racing.arg.message = some m ∧ racing.mayServe m = true ∧ (racing.tile 0).launch = (racing.tile (m.src / 8)).launch ∧
    m.src / 8 ≠ 0 ∧ racing.diverts 0 = false ∧ (racing.tile 0).race = true ∧ m.src < 2 ^ 13 ∧ [9#8].length ∈ [1, 2, 4, 8] ∧ m.addr < 2 ^ 20 := by
  decide +kernel

/-- What comes for tile 0 while it is saved: a request, an acknowledgment and a result; with the spill queue empty or full. -/
def diverting (n : Nat) : State :=
  let s := (sending (.tile 0) (.write 7 1 [9])).setTile 0 { two.tile 0 with preempt := .saved, spill := List.replicate n (.result 0 0) }
  { s.setMe { s.me with longs := [{ id := 6, dest := .x 5 }] } with acks := [⟨3, 0, 7, false, false⟩], arg := { message := 3, tile := 0, slot := 0, op := 6 } }

theorem test_hyp_diversions : ∀ n ∈ [0, 2048],
    let s := diverting n
    Canonical s ∧ s.diverts 0 = true ∧ (s.tile 0).spill.length = n ∧
    s.message s.arg.message = some (sent (.tile 0) (.write 7 1 [9])) ∧ s.mayServe (sent (.tile 0) (.write 7 1 [9])) = true ∧
    (s.acks.find? (fun b => b.id == s.arg.message && b.task == false)).isSome = true ∧
    ((s.strand (argStrand s)).longs.find? (fun o => o.id == s.arg.op && o.waiting == 0 && (!o.answered && !o.atomic))).isSome = true ∧
    Spilled.result (s.arg.slot % 8) 6 ∉ (s.tile 0).spill := by decide +kernel

theorem test_home_service :
    let s (b : Body) : State := withStore (sending (.tile 0) b) 0 8192 8 0x99
    let stored (b : Body) (v : Nat) : Bool := after? .homeRequestService (s b) fun t => readNat (t.tile 0).store 8192 8 == v && t.net == [] && t.acks.map (fun a => a.post) == [7]
    allTrue [after? .homeRequestService (s (.read 5 0 8 0 1)) (fun t => (t.strand 8).longs.map (fun o => (o.waiting, o.data.toNat)) == [(0, 0x99)]),
      stored (.write 7 0 [1, 2]) 0x201, stored (.writeCmp 7 [1] [0x98]) 0x99, stored (.writeCmp 7 [1] [0x99]) 1, stored (.writeback 7 0x1234 2) 0x1299,
      after? .homeRequestService (s (.atomic 5 0 6 3 0)) (fun t => readNat (t.tile 0).store 8192 8 == 0x9C && (t.strand 8).longs.map (fun o => o.data.toNat) == [0x99]),
      after? .homeRequestService ({ sending (.channel 0) (.write 7 0 [1]) with retired := 1 }) (fun t => t.mem == [] && t.acks.map (fun a => a.rejected) == [true]),
      after? .homeRequestService racing (fun t => (t.tile 0).raceSeq == 1 && readNat (t.tile 0).store 65536 8 == 8192 + 2 ^ 44 + 2 ^ 61),
      after? .homeRequestService (diverting 0) (fun t => (t.tile 0).spill.length == 1 && t.net == [])] = true := by
  decide +kernel

/-- Strand 0 of tile 0 with an answered operation. -/
def returned (o : LongOp) : State := { base.setMe { base.me with longs := [o] } with arg := { tile := 0, slot := 0, op := o.id } }

theorem test_hyp_results :
    (∀ o ∈ ([{ id := 5, dest := .x 4, data := 7 }, { id := 5, dest := .xPair 4, data := 7, atomic := true }, { id := 5, dest := .v 4, data := 7 }, { id := 5, dest := .la },
        { id := 5, dest := .none, answered := true }, { id := 5, dest := .v 4, finish := .lanes 1 0 }, { id := 5, dest := .x 4, bad := some (3, 9) },
        { id := 5, dest := .x 4, acquire := some 1 }, { id := 5, dest := .x 4, members := [1, 2], finish := .scalar 10 },
        { id := 5, dest := .x 4, members := [1, 2], finish := .scalar 4 }] : List LongOp), CanonicalTiles (returned o) ∧ Returned (returned o) o) ∧
    (returned { id := 5, dest := .x 4 }).me.run = .running ∧ (returned { id := 5, dest := .x 4 }).me.task = none ∧ mapWf 0 base.trust.ring = true ∧
    (returned { id := 5, dest := .x 4 }).arg.tile < 1024 := by decide +kernel

theorem test_results :
    allTrue [after? .longResultWrite (returned { id := 5, dest := .x 4, data := 0x80, finish := .scalar 0, flags := 4 }) (fun t => readX t.me 4 == 0xFFFFFFFFFFFFFF80 && t.me.status == 4 && t.me.longs == []),
      after? .longResultWrite (returned { id := 5, dest := .v 4, data := 7 }) (fun t => readV t.me 4 == 7),
      after? .atomicAcknowledgment (returned { id := 5, dest := .xPair 4, data := 7 + (9 <<< 64), atomic := true }) (fun t => readX t.me 4 == 7 && readX t.me 5 == 9),
      after? .answerReturn (returned { id := 5, dest := .x 4, data := 7, answered := true }) (fun t => readX t.me 4 == 7),
      after? .longResultWrite (returned { id := 5, dest := .x 4, bad := some (3, 9) }) (fun t => t.me.run == .frozen && t.trust.seq == 1)] = true := by decide +kernel

def acked (rejected task : Bool) : State :=
  { base.setMe { base.me with posted := [{ id := 5, addr := 64, cover := 3 }] } with acks := [⟨2, 0, 5, rejected, task⟩], arg := { message := 2 } }

theorem test_hyp_acknowledgments :
    ∀ r ∈ [false, true], ∀ task ∈ [false, true], CanonicalTiles (acked r task) ∧
      (acked r task).acks.find? (fun b => b.id == (acked r task).arg.message && b.task == task) = some ⟨2, 0, 5, r, task⟩ ∧
      (acked r task).diverts 0 = false ∧ ((acked r task).strand 0).run ≠ .free ∧ (((acked r task).setMe { (acked r task).me with run := .free }).strand 0).run = .free := by
  decide +kernel

/-- Context 0 of VF 0: its root table at 256, a table of level 1 at 512 whose first leaf maps 1 GiB at 0, readable and writable. -/
def mapped (s : State) : State :=
  { s.setVf 0 { s.vf 0 with channels := 1 } with mem := writeBytes (writeBytes (writeBytes [] 0 [0, 1]) 256 [1, 2]) 512 [0xF] }

/-- Strands 0 and 1 of tile 0 miss on one page. -/
def missing (va : Nat) : State :=
  let s := base.setMe { base.me with walk := some { tag := 0, va := va, walker := some 0 } }
  { s.setStrand 1 { run := .running, walk := some { tag := 0, va := va + 8, walker := some 0 } } with arg := { tile := 0, slot := 0 } }

/-- How a walk ends: 0 at a leaf, 1 with a fault, 2 outside its VF's reach, 3 at an uncorrectable entry. -/
def endOf : WalkEnd → Nat
  | .leaf _ => 0
  | .fault => 1
  | .violation => 2
  | .lost _ _ => 3

/-- Ends of a walk: the cluster's cache has the page; a leaf; a fault; a table outside the VF's reach. -/
theorem test_hyp_walks :
    let s := missing 0x10000
    let u := mapped s
    let v := u.setVf 0 { u.vf 0 with channels := 2 }
    CanonicalTiles s ∧ mapWf {} s.clusters = true ∧ (s.strand (argStrand s)).walk = some { tag := 0, va := 0x10000, walker := some 0 } ∧
    (∀ v ∈ s.walksOf (dieOf s.arg.tile), v.walker = some 0 → 0 ≤ v.stamp) ∧
    (s.tlbHit (s.cluster 0).tlb 0 0x10000 = none ∧ endOf (s.walk 0 0x10000) = 1 ∧ endOf (u.walk 0 0x10000) = 0 ∧ endOf (v.walk 0 0x10000) = 2) ∧
    (s.strand 1).walk = some { tag := 0, va := 0x10008, walker := some 0 } ∧ (0x10008 / 65536 = 0x10000 / 65536) ∧ dieOf (1 / 8) = dieOf s.arg.tile ∧
    (s.strand 0).run = .running ∧ (s.strand 0).task = none := by decide +kernel

/-- The page in the cluster's cache. -/
theorem test_hyp_walkHeld :
    let e : TlbEntry := { tag := 0, page := 0, bits := 30, pa := 0, rd := true, wr := true, log := false, d := false, leaf := 512 }
    let s := (mapped (missing 0x10000)).setCluster 0 { tlb := [e] }
    CanonicalTiles s ∧ mapWf {} s.clusters = true ∧ s.tlbHit (s.cluster (clusterOf s.arg.tile)).tlb 0 0x10000 = some e := by decide +kernel

theorem test_acknowledgments :
    allTrue [after? .storeAcknowledgment (acked false false) (fun t => t.me.posted == [] && t.acks == []),
      after? .storeAcknowledgment (acked true false) (fun t => t.me.posted.map (fun p => p.rejected) == [true]),
      after? .taskMessageAcknowledgment (acked false true) (fun t => t.me.posted == []),
      after? .walkComplete ({ base.setMe { base.me with walk := some { tag := 0, va := 0x10000, walker := some 3 } } with arg := { tile := 0, slot := 0 } }) (fun t =>
        t.me.walk == some { tag := 0, va := 0x10000, failed := true, walker := some 3 })] = true := by decide +kernel

/-- A launch of 4 × 4 tiles with the task table of handle 1: 64 records in cluster 0. -/
def tasked : State :=
  let k := launchKey 0 1
  let s := base.setLaunch k { base.launch k with lw := 2, lh := 2, tasks := some 1 }
  { s with mem := writeBytes (writeBytes [] 0 (natToBytes 64 (4096 * 2 ^ 128 + 2 * 2 ^ 451))) 4128 (natToBytes 32 (entry 0 2048 0 false).toNat) }

theorem test_hyp_taskInstructions :
    let s := tasked
    let l := s.launchOf s.myTile
    let f : Fields := { d := 5, a := 1, b := 2 }
    CanonicalTiles s ∧ l.tasks ≠ none ∧ l.term ≠ .closed ∧ l.deadline = false ∧ l.clusterCount = 1 ∧ s.taskQ l = 64 ∧ s.me.task = none ∧ (base.launchOf 0).tasks = none ∧
    (∀ i ∈ ([.tkWait, .tkDone, .gainAdd, .gainMax, .gainSet, .depDec, .tkPush, .tkBatch] : List (Fields → Instr)), Ready (i f) s) ∧ longRoom s.me false = true ∧
    (¬ GainBad 0 ∧ ¬ GainBad 0x7F7FFFFF ∧ GainBad 0x7F800000 ∧ GainBad 0x80000001 ∧ ¬ GainBad 0x80000000) ∧
    ((63 : Nat) / 2 ^ 26 < l.clusterCount ∧ (63 : Nat) % 2 ^ 26 < s.taskQ l ∧ s.taskQ l ≤ (64 : Nat) % 2 ^ 26) ∧
    areaTrap (s.tile 0) 4096 (4 * 4096) 4096 = none ∧ (4096 : Nat) % 4 = 0 ∧ (0 : Nat) < 4096 ∧ l.term = .running := by decide +kernel

theorem test_task_instructions :
    let f : Fields := { d := 5, a := 1, b := 2 }
    let s := withX tasked [(1, 3), (2, 0x3F800000)]
    let posts (i : Instr) (s : State) (b : Body) : Bool := after? i s fun t => t.net.map (fun m => (m.home, m.body)) == [(.hoist 0, b)] && t.me.pc == 8
    allTrue [after? (.tkWait {}) s (fun t => t.me.run == .waiting), after? (.tkWait {}) base (fun t => readX t.me 1 == 0xFFFFFFFFFFFFFFFF && t.me.pc == 8),
      posts (.tkDone {}) (s.setMe { s.me with task := some 3 }) (.taskEnd (launchKey 0 1) 3), traps (.tkDone {}) s 21 0 0,
      posts (.tkPush f) s (.push 0 (launchKey 0 1) 3 0x3F800000), posts (.gainAdd f) s (.gain 0 (launchKey 0 1) 3 0 0x3F800000 0 0 0),
      posts (.gainMax f) s (.gain 0 (launchKey 0 1) 3 1 0x3F800000 0 0 0), posts (.gainSet f) s (.gain 0 (launchKey 0 1) 3 2 0x3F800000 0 0 0),
      posts (.depDec f) s (.depDec 0 (launchKey 0 1) 3), traps (.gainSet f) (withX s [(2, 0x7F800000)]) 13 0 0x7F800000, traps (.depDec f) (withX s [(1, 64)]) 6 0 64,
      traps (.tkPush f) (withX base [(1, 3)]) 7 0 3, after? (.tkBatch f) (withX s [(1, 4096), (2, 0)]) (fun t => t.me.longs.map (fun o => o.data.toNat) == [0]),
      traps (.tkBatch f) (withX s [(1, 4096), (2, 4097)]) 6 0 4097, traps (.tkBatch f) (withX s [(1, 8), (2, 1)]) 7 0 8] = true := by decide +kernel

/-- R194's example: the batch of a hoist with two queued records. -/
def queued (ts : List (Nat × Task)) : State := tasked.setCluster 0 { tasks := ts }

/-- The records mapped: the first of cost 5. -/
def priced (s : State) : State :=
  let u := mapped s
  { u with mem := writeBytes (writeBytes (writeBytes u.mem 0 (natToBytes 64 (256 + 4096 * 2 ^ 128 + 2 * 2 ^ 451))) 4128
      (natToBytes 32 (entry 65536 2048 0 false).toNat)) (65536 + 32 + 16) [5] }

theorem test_hyp_pops :
    let q : Nat × Task := (1, { state := .queued, key := 5 })
    let s := queued [q, (2, { state := .queued, key := 4 })]
    let u := priced s
    Canonical s ∧ q ∈ (s.cluster 0).level 0 ∧ (∀ p ∈ (s.cluster 0).level 0, p ≠ q → Before false q.2.key q.1 p.2.key p.1) ∧
    s.record (s.launchOf 0) 1 / 2 ^ 128 % 2 ^ 32 = 0 ∧ u.record (u.launchOf 0) 1 / 2 ^ 128 % 2 ^ 32 = 5 ∧ Canonical u ∧
    ((queued []).cluster 0).tasks = [] := by decide +kernel

theorem test_task_batch :
    let s := withX ((queued [(1, { state := .queued, key := 5 }), (2, { state := .queued, key := 4 })]).setMe { (queued []).me with tbr := 100 }) [(1, 8192), (2, 3)]
    after? (.tkBatch { d := 5, a := 1, b := 2 }) s (fun t => readNat (t.tile 0).store 8192 12 == 1 + 2 * 2 ^ 32 && t.me.longs.map (fun o => o.data.toNat) == [2] &&
      (t.cluster 0).tasks.map (fun p => p.2.state) == [.retired, .retired]) = true := by decide +kernel

/-- A task message from strand 0 of tile 0 to hoist 0. -/
def taskMsg (b : Body) : Msg := { id := 3, src := 0, home := .hoist 0, addr := 0, body := b }
def hoisting (ts : List (Nat × Task)) (b : Body) : State :=
  let s := queued ts
  { s.setMe { s.me with longs := [{ id := 5, dest := .x 4, answered := true, waiting := 1 }] } with net := [taskMsg b], arg := { message := 3 }, fresh := 9 }

theorem test_hyp_taskMessages :
    (∀ b ∈ [Body.push 5 (launchKey 0 1) 1 7, .gain 5 (launchKey 0 1) 1 0 7 0 0 0, .depDec 5 (launchKey 0 1) 1, .taskEnd (launchKey 0 1) 1],
      ∀ st ∈ [TaskState.idle, .queued, .lent, .running, .retired],
        (hoisting [(1, { state := st })] b).message (hoisting [(1, { state := st })] b).arg.message = some (taskMsg b) ∧ (hoisting [(1, { state := st })] b).firstOf (taskMsg b) = true ∧
        (hoisting [(1, { state := st })] b).snapped 0 = false) ∧
    Canonical (hoisting [(1, { state := .running, pushed := some 4, gain := 3 })] (.taskEnd (launchKey 0 1) 1)) ∧ (tasked.launch (launchKey 0 1)).term ≠ .closed ∧
    ¬ 4096 ≤ ((hoisting [] (.taskEnd 0 1)).cluster 0 |>.level 0).length := by decide +kernel

theorem test_task_messages :
    let k := launchKey 0 1
    let t1 (s : State) (i : Instr) (p : Task → Bool) : Bool := after? i s fun t => p ((t.cluster 0).task 1) && t.net == []
    allTrue [t1 (hoisting [] (.push 5 k 1 7)) .taskPushArrival (fun t => t.state == .queued && t.key == 7),
      t1 (hoisting [(1, { state := .running })] (.push 5 k 1 7)) .taskPushArrival (fun t => t.pushed == some 7),
      t1 (hoisting [(1, { state := .queued, key := 0x3F800000 })] (.gain 5 k 1 0 0x3F800000 0 0 0)) .gainUpdateArrival (fun t => t.key == 0x40000000),
      t1 (hoisting [(1, { state := .queued, key := 9 })] (.gain 5 k 1 1 7 0 0 0)) .gainUpdateArrival (fun t => t.key == 9),
      t1 (hoisting [(1, { state := .retired })] (.gain 5 k 1 2 7 0 0 0)) .gainUpdateArrival (fun t => t.state == .queued && t.key == 7),
      t1 (hoisting [] (.depDec 5 k 1)) .depDecArrival (fun t => t.state == .idle),
      t1 (hoisting [(1, { state := .running, pushed := some 4, gain := 3 })] (.taskEnd k 1)) .taskEndArrival (fun t => t.state == .queued && t.key == 4),
      t1 (hoisting [(1, { state := .running })] (.taskEnd k 1)) .taskEndArrival (fun t => t.state == .retired)] = true := by decide +kernel

/-- A strand of tile 0 waits; a record is queued. -/
def waitingFor (ts : List (Nat × Task)) : State := let s := queued ts; s.setMe { s.me with run := .waiting }

theorem test_hyp_dispatch :
    let q : Nat × Task := (1, { state := .queued, key := 5 })
    let s := waitingFor [q, (2, { state := .queued, key := 4 })]
    let k := launchKey 0 1
    Canonical s ∧ s.launchKeyOf (clusterTile s.arg.cluster 0) = k ∧ (s.launch k).tasks ≠ none ∧ (s.launch k).term = .running ∧ s.snapped 0 = false ∧
    (s.cluster 0).bad = false ∧ q ∈ (s.cluster 0).level 0 ∧ (∀ p ∈ (s.cluster 0).level 0, p ≠ q → Before (s.launch k).deadline q.2.key q.1 p.2.key p.1) ∧
    0 ∈ s.waiters 0 ∧ (∀ j ∈ s.waiters 0, j ≠ 0 → (s.strand 0).waitAt < (s.strand j).waitAt) := by decide +kernel

/-- A launch of two clusters; the other has published key 9, and nothing is queued here. -/
def poor : State :=
  let k := launchKey 0 1
  (((waitingFor []).setLaunch k { (waitingFor []).launch k with lw := 3 }).setCluster 1 { published := some (some 9) }).setCluster 0 {}

theorem test_hyp_stealRequest :
    let k := launchKey 0 1
    let l := poor.launch k
    Canonical poor ∧ poor.arg.cluster = 0 ∧ poor.launchKeyOf (clusterTile 0 0) = k ∧
    (1 < l.clusterCount ∧ l.cluster 1 = 1 ∧ (poor.cluster 1).published = some (some 9) ∧
      ∀ j, j < l.clusterCount → l.cluster j ≠ 0 → (poor.cluster (l.cluster j)).published ≠ some none ∧ 1 ≤ j) ∧
    l.tasks ≠ none ∧ l.term = .running ∧ poor.waiters 0 ≠ [] ∧ (poor.cluster 0).level 0 = [] ∧ (poor.cluster 0).stealing = false ∧
    (poor.cluster 0).refusedAt ≠ some (poor.cluster 0).pubAt := by decide +kernel

/-- Cluster 1 is the best victim, and the only one. -/
theorem test_hyp_bestVictim : BestVictim poor (poor.launch (launchKey 0 1)) 0 1 := by
  refine ⟨1, 9, by decide +kernel, by decide +kernel, by decide, by decide +kernel, fun j k' hj hc hp => ?_⟩
  have two : (poor.launch (launchKey 0 1)).clusterCount = 2 := by decide +kernel
  have zero : (poor.launch (launchKey 0 1)).cluster 0 = 0 := by decide +kernel
  have one : (poor.cluster ((poor.launch (launchKey 0 1)).cluster 1)).published = some (some 9) := by decide +kernel
  rw [two] at hj
  obtain rfl | rfl : j = 0 ∨ j = 1 := by omega
  · exact absurd zero hc
  · rw [one] at hp
    exact .inr ⟨by simpa using hp, le_refl 1⟩

/-- The messages of stealing, each served by a hoist with record 1 in a state. -/
def stealing (b : Body) (st : TaskState) : State :=
  { waitingFor [(1, { state := st, key := 5 })] with net := [taskMsg b], arg := { message := 3 } }

theorem test_hyp_stealMessages :
    let k := launchKey 0 1
    (∀ b ∈ [Body.stealRequest k 1, .stolen k 2 5 7, .stealAck k 1, .stealRefuse k 1, .stealNone k], TaskServed (stealing b .lent) (taskMsg b) 0 ∧ Canonical (stealing b .lent)) ∧
    ((stealing (.stealRequest k 1) .lent).cluster 0).level 0 = [] ∧ (((stealing (.stealAck k 1) .lent).cluster 0).task 1).state = .lent ∧
    firstQueued false (((stealing (.stealRequest k 1) .queued).cluster 0).level 0) = some (1, { state := .queued, key := 5 }) ∧
    TaskServed (stealing (.stealRequest k 1) .queued) (taskMsg (.stealRequest k 1)) 0 ∧
    ((stealing (.stolen k 2 5 7) .idle).firstWaiter 0 = some 0 ∧ base.firstWaiter 0 = none ∧ CanonicalRegs ((stealing (.stolen k 2 5 7) .idle).strand 0)) := by
  decide +kernel

theorem test_hyp_publicationAndLevels :
    let s := { waitingFor [(1, { state := .queued, key := 5 })] with cycle := 64 }
    let k := launchKey 0 1
    Canonical s ∧ s.cycle % 64 = 0 ∧ (s.launch k).tasks ≠ none ∧ (s.cluster 0).bad = false ∧ (s.cluster 0).pubAt ≠ s.cycle / 64 + 1 ∧
    ((s.cluster 0).level 0).length < 2048 ∧ ((waitingFor [(1, { state := .queued, level := 1 })]).cluster 0).level 1 ≠ [] := by decide +kernel

/-- A launch of tasks in a state of its termination, at cycle 128. -/
def ending (t : Term) (tol : Nat) (touched : Bool) (snaps : List Snapshot) : State :=
  let k := launchKey 0 1
  { (queued []).setLaunch k { (queued []).launch k with term := t, tolM := tol, touched := touched, snaps := snaps } with cycle := 128, arg := { launch := k } }

/-- Launches at an instant that no cycle passes by: a stall count at its limit, a known combine, a hoist that has not published or has no
snapshot. -/
theorem test_hyp_dueSteps :
    let k := launchKey 0 1
    let due (s : State) : Bool := mapWf {} s.launches && s.launches.any (fun p => p.1 == k && p.2.started && !p.2.ended) && s.agenda.isEmpty &&
      match step s with
      | .next t => t.cycle == s.cycle
      | _ => false
    let stalled := base.setLaunch k { base.launch k with stall := 2 ^ 20 }
    let late : State := { ending .running 0 false [] with cursor := 1 }
    (due stalled = true ∧ stalled.active k = true ∧ (stalled.launch k).stalled = false ∧ 2 ^ 20 ≤ (stalled.launch k).stall) ∧
    (due (ending .running 0 false [⟨0, 0, 0⟩]) = true ∧ ((ending .running 0 false [⟨0, 0, 0⟩]).launch k).knownEpoch 128 = some 0) ∧
    (due late = true ∧ 0 ∈ (late.launch k).clusters ∧ late.cycle % 64 = 0 ∧ (late.launch k).tasks ≠ none ∧ (late.launch k).term ≠ .closed ∧
      late.launchKeyOf (clusterTile 0 0) = k ∧ (late.cluster 0).bad = false ∧ (late.cluster 0).pubAt ≠ late.cycle / 64 + 1 ∧ (late.launch k).snaps = []) := by
  decide +kernel

theorem test_hyp_snapshot :
    let s : State := { ending .running 0 false [] with cursor := 1 }
    let l := s.launch (launchKey 0 1)
    Canonical s ∧ s.cycle % 64 = 0 ∧ nextStrand s = none ∧ (s.cluster 0).bad = false ∧ l.tasks ≠ none ∧ l.started = true ∧ l.term ≠ .closed ∧ l.snaps = [] := by
  decide +kernel

/-- A combine that is known: below the threshold or not; of a running launch, and of a stopped one, touched, not drained, or drained. -/
theorem test_hyp_combine :
    let k := launchKey 0 1
    let e0 : List Snapshot := [⟨0, 0, 0⟩]
    (∀ s ∈ [ending .running 1 false e0, ending .running 0 false e0, ending (.stopped (some 0)) 0 false e0, ending (.stopped (some 0)) 1 true e0,
        ending (.stopped (some 0)) 1 false e0], Canonical s ∧ (s.launch k).knownEpoch s.cycle = some 0 ∧ ((s.launch k).skipTo ≤ 0)) ∧
    (¬ (0 : LongWord).toNat < 0 * 2 ^ (0 + 200 : Int).toNat) ∧ (0 : LongWord).toNat < 1 * 2 ^ (0 + 200 : Int).toNat ∧
    (ending (.stopped (some 0)) 1 false e0).drainedTasks k = true ∧ (ending (.stopped none) 1 false []).drainedTasks k = true ∧
    ((ending (.stopped none) 1 false []).setCluster 0 { tasks := [(1, { state := .running })] }).drainedTasks k = false := by decide +kernel

/-- Heaps that close: with one record queued in the launch, or none; a strand of the field waits. -/
theorem test_hyp_closed :
    let q : Nat × Task := (1, { state := .queued, key := 5 })
    let s := waitingFor [q]
    let l := s.launch (launchKey 0 1)
    l.clusterCount = 1 ∧ l.cluster 0 = 0 ∧ (s.cluster 0).tasks = [q] ∧ ((waitingFor []).cluster 0).tasks = [] ∧
    0 < l.w ∧ 0 < l.h ∧ l.ox + l.w ≤ 32 ∧ tileAt (l.ox + 0) (l.oy + 0) = 0 ∧ (s.tile 0).preempt = .running ∧ (s.strand 0).run = .waiting ∧
    (s.strand 0).broken = false := by decide +kernel

theorem test_hoists :
    let k := launchKey 0 1
    let e0 : List Snapshot := [⟨0, 0, 0⟩]
    allTrue [after? .taskDispatch (waitingFor [(1, { state := .queued, key := 5 })]) (fun t => t.me.run == .running && readX t.me 1 == 1 && t.me.task == some 1 && ((t.cluster 0).task 1).state == .running),
      after? .keyPublication { waitingFor [(1, { state := .queued, key := 5 })] with cycle := 64 } (fun t => (t.cluster 0).published == some (some 5)),
      after? .stealRequest poor (fun t => t.net.map (fun m => (m.home, m.body)) == [(.hoist 1, .stealRequest k 0)]),
      after? .stealRequestArrival (stealing (.stealRequest k 1) .queued) (fun t => ((t.cluster 0).task 1).state == .lent && t.net.map (fun m => m.body) == [.stolen k 1 5 0]),
      after? .stealRequestArrival (stealing (.stealRequest k 1) .idle) (fun t => t.net.map (fun m => m.body) == [.stealNone k]),
      after? .stolenRecordArrival (stealing (.stolen k 2 5 (7 * 2 ^ 128)) .idle) (fun t => t.me.task == some 2 && readX t.me 2 == 7 && t.net.map (fun m => m.body) == [.stealAck k 2]),
      after? .stealAcknowledgment (stealing (.stealAck k 1) .lent) (fun t => ((t.cluster 0).task 1).state == .running),
      after? .stealRefusal (stealing (.stealRefuse k 1) .lent) (fun t => ((t.cluster 0).task 1).state == .queued),
      after? .stealNoneAnswer (stealing (.stealNone k) .idle) (fun t => (t.cluster 0).refusedAt == some 0),
      after? .heapLevelMove (waitingFor [(1, { state := .queued, level := 1 })]) (fun t => ((t.cluster 0).task 1).level == 0),
      after? .rsdSnapshot { ending .running 0 false [] with cursor := 1 } (fun t => (t.launch k).snaps == [⟨2, 0, 0⟩]),
      after? .rsdCombine (ending .running 1 false e0) (fun t => (t.launch k).term == .stopped none),
      after? .rsdCombine (ending .running 0 false e0) (fun t => (t.launch k).term == .running),
      after? .rsdCombine (ending (.stopped (some 0)) 1 false e0) (fun t => (t.launch k).term == .closed),
      after? .terminationDrain (ending (.stopped none) 1 true []) (fun t => (t.launch k).term == .stopped (some 2))] = true := by decide +kernel

/-! Launches, VFs, ports, links, trust. -/

/-- VF 0 owns cluster 0, its firmware runs, and one launch of one tile with XB 4096 and SCR 1024 stands in its queue, at (0, 0) or (1, 0)
with a width of 2. -/
def queueing (ox lw : Nat) : State :=
  let e := ox + lw * 2 ^ 32 + 1 * 2 ^ 174 + 4 * 2 ^ 181 + 0x20000 * 2 ^ 192 + 9 * 2 ^ 448
  let s := State.reset.setVf 0 { clusters := 1, lqtail := 1, evq := 4096 }
  { s with hostMem := writeBytes [] 0 (natToBytes 64 e), trust := { stage := 5 }, cycle := 8, mem := writeBytes [] 0x20000 [0x48, 3] }

theorem test_hyp_queueService :
    (queueing 0 0).nextServed = some (0, 1) ∧ (queueing 1 1).nextServed = some (0, 1) ∧ Canonical (queueing 0 0) ∧ Canonical (queueing 1 1) ∧
    (let s := queueing 0 0
     s.launchStatus { entryLaunch 0 (s.headEntry 0) with number := 1 } (s.headEntry 0 / 2 ^ 154 % 2 ^ 20) = 0) ∧
    (let s := queueing 1 1
     s.launchStatus { entryLaunch 0 (s.headEntry 0) with number := 1 } (s.headEntry 0 / 2 ^ 154 % 2 ^ 20) = 2) := by decide +kernel

/-- The round robin comes to VF 0; and with no launch queued no head can be taken. -/
theorem test_hyp_credits :
    (roundRobin (queueing 0 0) 96 (((queueing 0 0).served + 1) % 96) (fun u => ((queueing 0 0).vf u).deficit)).isSome = true ∧
    (∀ v, v < 96 → 0 < ((queueing 0 0).vf v).weight) ∧ (∀ v, v < 96 → 0 < (base.vf v).weight) ∧ (∀ v, v < 96 → base.headReady v = false) := by
  decide +kernel

/-- Launches that are accepted, and rejected for each reason. -/
theorem test_hyp_launchStatuses :
    let s := queueing 0 0
    let l := entryLaunch 0 (s.headEntry 0)
    let align (l : Launch) : Prop := l.ox % l.w = 0 ∧ l.oy % l.h = 0 ∧ l.ox + l.w ≤ 32 ∧ l.oy + l.h ≤ 32
    let owner (l : Launch) : Prop := (s.vf l.vf).reset = none ∧ ∀ t ∈ l.tiles, (s.vf l.vf).clusters.getLsbD (clusterOf t) = true
    align l ∧ owner l ∧ l.tasks = none ∧ l.scr = 1024 ∧ l.xb = 4096 ∧ l.race = false ∧ ¬ align { l with ox := 1, lw := 1 } ∧ ¬ owner { l with ox := 8 } ∧
    align { l with ox := 8 } := by decide +kernel

theorem test_hyp_launches :
    (∀ s ∈ [queueing 0 0, base], Canonical s) ∧ (9 : Nat) < 256 ∧
    (BitVec.ofNat 64 (readNat base.mem 0 8) - BitVec.ofNat 64 (readNat base.mem 8 8)).toNat < 4096 ∧
    4096 ≤ (BitVec.ofNat 64 (readNat (writeBytes [] 1 [16]) 0 8) - BitVec.ofNat 64 (readNat (writeBytes [] 1 [16]) 8 8)).toNat := by decide +kernel

/-- The launch of the base state: not started, ended in its strands, or stalled. -/
def launching (g : Launch → Launch) (r : Strand) : State :=
  let k := launchKey 0 1
  { (base.setLaunch k (g (base.launch k))).setMe r with arg := { launch := k } }

theorem test_hyp_launchStart :
    let k := launchKey 0 1
    let a := launching (fun l => { l with started := false }) {}
    Canonical a ∧ a.active k = true ∧ (a.launch k).started = false ∧ a.cycle % 8 = 0 ∧ (a.vf (a.launch k).vf).frozen = false ∧
    (∀ i ∈ (a.launch k).strands, (a.strand i).posted = []) ∧ (a.launch k).ox + (a.launch k).w ≤ 32 ∧
    ({ a with cycle := 3 } : State).cycle % 8 ≠ 0 ∧ ((a.setVf 0 { a.vf 0 with frozen := true }).vf 0).frozen = true := by decide +kernel

/-- A launch whose work is done; one with a strand that runs; one with a store unanswered; one with a stall count at its limit. -/
theorem test_hyp_launchEnds :
    let k := launchKey 0 1
    let b := launching id {}
    let c := launching (fun l => { l with stall := 2 ^ 20 }) { base.me with longs := [] }
    let d := launching id { posted := [{ id := 1, addr := 4, cover := 1 }] }
    Canonical b ∧ b.active k = true ∧ (b.launch k).started = true ∧ (∀ i ∈ (b.launch k).strands, (b.strand i).run.ended = true) ∧ WorkDone b (b.launch k) ∧
    (∀ t ∈ (b.launch k).tiles, ∀ x ∈ (b.tile t).l1, x.dirty = 0) ∧ (∀ t ∈ (b.launch k).tiles, (b.cluster (clusterOf t)).retiring = false) ∧
    (b.launch k).tasks = none ∧ (∀ t ∈ (b.launch k).tiles, (b.tile t).launch = some k) ∧
    (Canonical c ∧ c.active k = true ∧ (c.launch k).started = true ∧ (c.launch k).stalled = false ∧ 2 ^ 20 ≤ (c.launch k).stall ∧ c.me.run = .running ∧ 0 ∈ (c.launch k).strands) ∧
    ¬ WorkDone d (d.launch k) ∧ d.active k = true := by
  (repeat' apply And.intro) <;> decide +kernel

/-- A launch of tasks that ends with one task queued; and one whose L1 has a dirty line. -/
theorem test_hyp_launchEndsQueued :
    let k := launchKey 0 1
    let q : Nat × Task := (1, { state := .queued, key := 5 })
    let b : State := { (queued [q]).setMe {} with arg := { launch := k } }
    let l := b.launch k
    let d : State := { lined.setMe {} with arg := { launch := k } }
    Canonical b ∧ b.active k = true ∧ l.started = true ∧ (∀ i ∈ l.strands, (b.strand i).run.ended = true) ∧ WorkDone b l ∧ l.tasks ≠ none ∧
    l.term ≠ .closed ∧ l.clusterCount = 1 ∧ (b.cluster (l.cluster 0)).tasks = [q] ∧
    (∀ t ∈ l.tiles, ∀ x ∈ (b.tile t).l1, x.dirty = 0) ∧ (∀ t ∈ l.tiles, (b.cluster (clusterOf t)).retiring = false) ∧
    (Canonical d ∧ d.active k = true ∧ (d.launch k).started = true ∧ (∀ i ∈ (d.launch k).strands, (d.strand i).run.ended = true) ∧ WorkDone d (d.launch k) ∧
      (∃ t ∈ (d.launch k).tiles, ∃ x ∈ (d.tile t).l1, x.dirty ≠ 0) ∧ (∀ t ∈ (d.launch k).tiles, ∀ x ∈ (d.tile t).l1, x.bad = 0)) := by
  (repeat' apply And.intro) <;> decide +kernel

theorem test_launches :
    let k := launchKey 0 1
    allTrue [after? .launchQueueService (queueing 0 0) (fun t => (t.tile 0).launch == some k && (t.tile 0).xb == 4096 && readNat (t.tile 0).store 0 2 == 0x348 && (t.strand 0).seed == 9 &&
        (t.strand 1).srcnt == 0x0000100000000000),
      after? .launchQueueService (queueing 1 1) (fun t => (t.vf 0).lqhead == 1 && readNat t.mem (4096 + 64 + 7) 1 == 1 && readNat t.mem (4096 + 64 + 2) 1 == 2),
      after? .launchStart (launching (fun l => { l with started := false, entry := 64 }) {}) (fun t => (t.launch k).started && (t.strand 0).pc == 64 && (t.strand 0).run == .running),
      after? .launchEnd (launching id {}) (fun t => (t.launch k).ended && readNat t.mem 71 1 == 1),
      after? .fieldStall (launching (fun l => { l with stall := 2 ^ 20 }) base.me) (fun t => t.me.run == .parked && t.me.cause == causeOf 0 18 && (t.launch k).stalled)] = true := by
  decide +kernel

/-- VF 0, which owns cluster 0, writes CMDA; tile 0 stands somewhere in pre-emption. -/
def commanding (v : Word) (p : Preempt) : State :=
  { (base.setVf 0 { clusters := 1 }).setTile 0 { base.tile 0 with preempt := p } with trust := { stage := 5 }, arg := { vf := 0, value := v } }

theorem test_hyp_preemption :
    (∀ p ∈ [Preempt.running, .deferring 0, .expired, .saving, .saved], Canonical (commanding 5 p)) ∧
    Commanding (commanding 5 .running) 5 ∧ Commanding (commanding 6 .saved) 6 ∧ ((commanding 5 .running).vf 0).clusters.getLsbD (clusterOf 0) = true ∧
    (commanding 5 .running).tileHeld 0 = true ∧ ((commanding 5 .running).launchOf 0).vf = 0 ∧ ((commanding 5 .running).launchOf 0).started = true ∧
    (0 : Word).toNat ≤ (commanding 5 (.deferring 0)).dt.toNat ∧ (commanding 5 (.deferring 9)).dt.toNat < (9 : Word).toNat ∧
    ((commanding 6 .saved).tile 0).spill = [] ∧ ((commanding 6 .saved).setMe { base.me with run := .waiting }).me.run = .waiting ∧
    (commanding 5 .running).me.run = .running ∧ ((commanding 6 .saved).launchOf 0).tasks = none := by decide +kernel

/-- Not owned, or of a launch that has not started. -/
theorem test_hyp_preemptionRejected :
    let s := (commanding 5 .running).setVf 0 { (commanding 5 .running).vf 0 with clusters := 0 }
    let u := (commanding 5 .running).setLaunch (launchKey 0 1) { (commanding 5 .running).launchOf 0 with started := false }
    Commanding s 5 ∧ (s.vf 0).clusters.getLsbD (clusterOf 0) = false ∧ Commanding u 5 ∧ (u.launchOf 0).started = false ∧
    Commanding (commanding 6 .running) 6 ∧ ((commanding 6 .running).tile 0).preempt ≠ .saved := by decide +kernel

/-- The save instant: the limit has passed, or no strand has an open level. -/
theorem test_hyp_saveInstant : SaveInstant (commanding 5 .expired) 0 ∧ SaveInstant (commanding 5 (.deferring 9)) 0 ∧ ¬ SaveInstant (commanding 5 .running) 0 := by
  refine ⟨⟨by decide +kernel, .inl (by decide +kernel)⟩, ⟨by decide +kernel, .inr ⟨9, by decide +kernel, by decide +kernel⟩⟩, fun h => ?_⟩
  have running : ((commanding 5 .running).tile 0).preempt = .running := by decide +kernel
  rcases h with ⟨_, h | ⟨_, h, _⟩⟩ <;> rw [running] at h <;> cases h

/-- A tile being saved that has drained, with a dirty line or none; and one with a near copy left. -/
theorem test_hyp_saving :
    let d := lined.setTile 0 { lined.tile 0 with preempt := .saving }
    let c := (commanding 5 .saving).setMe { base.me with copies := [base.copyOf base.me { ext := .imm64 0 }] }
    Drained (commanding 5 .saving) 0 ∧ (∀ x ∈ ((commanding 5 .saving).tile 0).l1, SoundLine (commanding 5 .saving) x) ∧ Canonical d ∧
    Drained d 0 ∧ (d.tile 0).preempt = .saving ∧ (∀ x ∈ (d.tile 0).l1, SoundLine d x ∧ x.dirty ≠ 0) ∧ ¬ Drained c 0 ∧ (c.tile 0).preempt = .saving := by
  have drained : ∀ s : State, (∀ j, j < 8 → (s.strand (0 * 8 + j)).drains = [] ∧ ∀ c ∈ (s.strand (0 * 8 + j)).copies, c.far = true) →
      (s.cluster (clusterOf 0)).targets = none → Drained s 0 := fun s a b => ⟨a, .inl b⟩
  refine ⟨drained _ (by decide +kernel) (by decide +kernel), by decide +kernel, by decide +kernel, drained _ (by decide +kernel) (by decide +kernel),
    by decide +kernel, by decide +kernel, fun h => ?_, by decide +kernel⟩
  have far : ∀ c ∈ (((commanding 5 .saving).setMe { base.me with copies := [base.copyOf base.me { ext := .imm64 0 }] }).strand (0 * 8 + 0)).copies, c.far = true :=
    (h.1 0 (by decide)).2
  revert far
  decide +kernel

/-- A restored tile whose launch's heaps have closed, with a waiting strand. -/
theorem test_hyp_restoreClosed :
    let k := launchKey 0 1
    let s := (commanding 6 .saved).setLaunch k { (commanding 6 .saved).launch k with tasks := some 1, term := .closed }
    let u := s.setMe { s.me with run := .waiting }
    Canonical u ∧ Commanding u 6 ∧ (u.launchOf 0).tasks ≠ none ∧ (u.launchOf 0).term = .closed ∧ (u.tile 0).spill = [] ∧ u.me.run = .waiting ∧
    u.me.broken = false ∧ (u.tile 0).preempt = .saved ∧ (u.vf 0).clusters.getLsbD (clusterOf 0) = true ∧ u.tileHeld 0 = true := by decide +kernel

/-- What is delivered to tile 0 after its restore. -/
theorem test_hyp_redelivery :
    let o : LongOp := { id := 5, dest := .x 4, data := 7 }
    let m : Msg := sent (.tile 0) (.write 7 0 [1, 2])
    Canonical two ∧ (two.tile 0).preempt = .running ∧ ((returned o).strand 0).longs.find? (fun o => o.id == 5) = some o ∧ o.finish = .value ∧
    m.leaf = none ∧ (two.tile 0).launch = (two.tile (m.src / 8)).launch ∧ (two.tile 0).race = false := by decide +kernel

/-- One record of a serving table of VF 5's tenant, in each state of its task; and a record of another tenant. -/
theorem test_hyp_serving :
    let s (st : TaskState) := queued [(1, { state := st, key := 5 })]
    let l := tasked.launchOf 0
    ∀ st ∈ [TaskState.idle, .queued, .lent, .running, .retired], Canonical (s st) ∧ (((s st).cluster 0).task 1).state = st ∧
      (s st).record l (makeId (l.fc (clusterTile 0 0)) 1) / 2 ^ 224 % 2 ^ 7 = 0 := by decide +kernel

theorem test_hyp_vfReset :
    let s (w : Option VfReset) : State := { base.setVf 0 { reset := w } with arg := { vf := 0 }, trust := { stage := 5 } }
    base.trust.stage < 5 ∧ (∀ w ∈ [none, some ⟨0, false⟩, some ⟨0, true⟩, some ⟨9, false⟩], Canonical (s w) ∧ 5 ≤ (s w).trust.stage ∧ ((s w).vf 0).reset = w) ∧ (0 : Word).toNat ≤ (s none).dt.toNat ∧
    (s none).dt.toNat < (9 : Word).toNat ∧ (0, base.tile 0) ∈ (s (some ⟨0, false⟩)).tiles ∧
    ((s (some ⟨0, false⟩)).tile 0).launch = some (launchKey 0 1) ∧ launchKey 0 1 / 2 ^ 32 = 0 := by decide +kernel

theorem test_preemption_and_reset :
    let vf (w : Option VfReset) : State := { base.setVf 0 { reset := w } with arg := { vf := 0 }, trust := { stage := 5 } }
    allTrue [after? .preempt (commanding 5 .running) (fun t => (t.tile 0).preempt == .deferring 20000 && (t.vf 0).command.isSome),
      after? .preemptionDeferralExpiry ((commanding 5 (.deferring 0)).setMe { base.me with depth := 1 }) (fun t => (t.tile 0).preempt == .expired && t.me.broken),
      after? .tileSave (commanding 5 .expired) (fun t => (t.tile 0).preempt == .saving),
      after? .tileSave (withStore (commanding 5 .saving) 0 8192 2 0x77) (fun t => (t.tile 0).preempt == .saved && readNat t.mem 8192 2 == 0x77 && readNat t.mem 71 1 == 6),
      after? .restore (commanding 6 .saved) (fun t => (t.tile 0).preempt == .running),
      after? .vfReset (vf none) (fun t => (t.vf 0).reset == some ⟨100000, false⟩), after? .vfResetDrainExpiry (vf (some ⟨0, false⟩)) (fun t => t.launches == [] && t.tile 0 == {} && t.me == {}),
      after? .vfResetComplete (vf (some ⟨0, true⟩)) (fun t => (t.vf 0).reset == none && (t.vf 0).flrDone && readNat t.mem 71 1 == 7)] = true := by decide +kernel

/-- A held pool element of strand 0 of tile 0. -/
def holding (v : Word) : State :=
  let c := { base.copyOf base.me { ext := .imm64 0 } with held := some 64, writing := true }
  (commanding v .running).setMe { base.me with copies := [c], tlc := { last := 1, recs := [{ num := 1, state := 1 }] } }

theorem test_hyp_commands :
    (∀ n ∈ [0, 1, 2, 3, 4, 5, 6, 7, 15], Commanding (commanding (BitVec.ofNat 64 n) .running) n) ∧
    ∀ s ∈ [commanding 0 .running, commanding 1 .running, commanding 2 .running, commanding 7 .running, holding 3], Canonical s := by decide +kernel

theorem test_hyp_commandWrites :
    (∀ n ∈ [3, 4], Commanding (holding (BitVec.ofNat 64 n)) n) ∧ ((holding 3).vf 0).clusters.getLsbD (clusterOf 0) = true ∧
    ((holding 3).heldCopy 0).isSome = true ∧ (∀ p ∈ (holding 4).heldCopy 0, p.2.held = some 64 ∧ p.2.writing = true) ∧
    (commanding 3 .running).heldCopy 0 = none ∧
    (let s := (holding 4).setMe { (holding 4).me with copies := (holding 4).me.copies.map fun c => { c with writing := false } }
     Commanding s 4 ∧ ∀ p ∈ s.heldCopy 0, p.2.held = some 64 ∧ p.2.writing = false) := by decide +kernel

/-- A command that runs; one of a frozen VF, and before stage 5. -/
def busy (op : Nat) : State := (commanding 1 .running).setVf 0 { command := some { op := op, tile := 0, ctx := 0 } }

theorem test_hyp_commandStates :
    (∀ op ∈ [1, 2, 3, 4, 5, 6], ((busy op).vf 0).command = some { op := op, tile := 0, ctx := 0 } ∧ Canonical (busy op)) ∧
    (∀ m ∈ (busy 2).net, m.id ∉ ([] : List Nat)) ∧ ((busy 5).tile 0).preempt = .running ∧
    (∀ j, j < 8 → ∀ x ∈ ((busy 3).strand (0 * 8 + j)).copies, x.resumed = false ∧ x.refused = false) ∧
    5 ≤ (busy 1).trust.stage ∧ ((busy 1).vf 0).frozen = false ∧ base.trust.stage < 5 ∧
    ((commanding 1 .running).setVf 0 { frozen := true } |>.vf 0).frozen = true := by decide +kernel

/-- Commands that are not complete: messages left, an element to be tried again, a tile that has not been saved. -/
theorem test_hyp_commandWaits :
    let s := (busy 2).setVf 0 { command := some { op := 2, tile := 0, ctx := 0, wait := [3] } }
    let u := (busy 3).setMe { base.me with copies := [{ base.copyOf base.me { ext := .imm64 0 } with resumed := true }] }
    (¬ ∀ m ∈ ({ s with net := [sent (.channel 0) (.write 7 0 [1])] } : State).net, m.id ∉ [3]) ∧
    (¬ ∀ j, j < 8 → ∀ x ∈ (u.strand (0 * 8 + j)).copies, x.resumed = false ∧ x.refused = false) ∧
    (((busy 5).setTile 0 { (busy 5).tile 0 with preempt := .expired }).tile 0).preempt = .expired := by decide +kernel

/-- What a translation invalidation finds: an entry of the range, a walk, a line and a message. -/
theorem test_hyp_invalidation :
    let e : TlbEntry := { tag := 0, page := 0, bits := 30, pa := 0, rd := true, wr := true, log := false, d := false, leaf := 512 }
    let s := (commanding 2 .running).setVf 0 { clusters := 1, cmdb := 0x10000, cmdc := 1 }
    let range : InvRange := ⟨0, ((s.vf 0).cmdb).toNat, ((s.vf 0).cmdc).toNat⟩
    let u := s.setTile 0 { s.tile 0 with tlb := [e] }
    Commanding s 2 ∧ range.meets e.tag (e.page * 2 ^ e.bits) (2 ^ e.bits) = true ∧ e ∈ (u.tile 0).tlb ∧ e.page = 0x9000 / 2 ^ e.bits ∧
    range.meets 0 0x9000 128 = false ∧ range.meets 0 0x10000 1 = true ∧ range.meets 8 0x10000 1 = false := by decide +kernel

theorem test_commands :
    let h : HcEntry := ⟨1, 1, 0, false⟩
    let tlb (tag : Nat) : TlbEntry := { tag := tag, page := 1, bits := 16, pa := 0, rd := true, wr := true, log := false, d := false, leaf := 0 }
    let s (v : Word) : State :=
      let u := (commanding v .running).setVf 0 { clusters := 1, cmdb := 0x10000, cmdc := 1 }
      (u.setCluster 0 { handles := [h, { h with tag := 0 }] }).setTile 0 { u.tile 0 with tlb := [tlb 0, tlb 1] }
    allTrue [after? .handleInvalidation (s 1) (fun t => (t.cluster 0).handles == [h] && (t.vf 0).command.isSome),
      after? .translationInvalidation (s 2) (fun t => (t.tile 0).tlb.map (fun e => e.tag) == [1]),
      after? .resume (holding 3) (fun t => t.me.copies.map (fun c => (c.held, c.resumed)) == [(none, true)]),
      after? .refuse (holding 4) (fun t => t.me.copies == [] && t.me.tlc.recs.map (fun x => (x.state, x.addr)) == [(3, 64)]),
      after? .commandUndefinedOp (commanding 7 .running) (fun t => (t.vf 0).cmdErr), after? .handleInvalidation (busy 1) (fun t => (t.vf 0).cmdLost),
      after? .commandComplete (busy 1) (fun t => (t.vf 0).command == none)] = true := by decide +kernel

/-- A host access of VF 0. -/
def hostAccess (o n : Nat) (v : Word) (d : Option (List Byte)) : State :=
  let s := mapped base
  { s.setVf 0 { s.vf 0 with lqhead := 3, lqtail := 3, evq := 0x1234, fabric := 1 } with
    trust := { stage := 5 }, arg := { vf := 0, offset := o, size := n, value := v, data := d } }

theorem test_hyp_hostPorts :
    (∀ d ∈ [none, some (natToBytes 8 7)], Canonical (hostAccess 32 8 7 d)) ∧ ((hostAccess 32 8 7 none).vf 0).frozen = false ∧
    HostSide (hostAccess 32 8 7 none) 0 ∧ HostSide { hostAccess 32 8 7 none with portB := .upstream } 1 ∧ ¬ HostSide (hostAccess 32 8 7 none) 1 ∧
    (hostAccess 32 8 7 none).badWords = [] ∧ (hostAccess 32 8 7 none).retired = 0 ∧ ¬ ((hostAccess 32 4 7 none).arg.size = 8) ∧
    5 ≤ (hostAccess 32 8 7 none).trust.stage ∧ ((259 : BitVec 32) - 3).toNat ≤ 256 ∧ 256 < ((260 : BitVec 32) - 3).toNat ∧
    (((hostAccess 32 8 7 none).setVf 0 { frozen := true }).vf 0).frozen = true := by decide +kernel

theorem test_hyp_outside :
    let s := hostAccess 64 8 7 none
    let e : TlbEntry := ⟨0, 0, 30, 0, true, true, false, false, 512, false⟩
    (∀ j, j < 8 → s.walk (0 * 8 + (s.vf 0).wctx.toNat % 8) (64 + j) = .leaf e ∧ (64 + j) % 2 ^ e.bits = 64 % 2 ^ e.bits + j) ∧ e.log = false ∧ e.rd = true ∧
    e.wr = true ∧ (∀ j, j < 8 → s.walk (0 * 8 + s.arg.ctx % 8) (64 + j) = .leaf e) ∧
    (s.link 0).down = false ∧ (s.link 0).frozen = false ∧ (s.vf 0).fabric.getLsbD 0 = true ∧ (natToBytes 8 7).length = 8 ∧
    (s.vf 0).fabric.getLsbD 1 = false ∧ ((s.setLink 0 { down := true }).link 0).down = true := by decide +kernel

/-- A page that may be read and not written, and one that may be written and not read. -/
theorem test_hyp_outsideRights :
    let s (b : Byte) : State := { hostAccess 64 8 7 none with mem := writeBytes (hostAccess 64 8 7 none).mem 512 [b] }
    let e (rd wr : Bool) : TlbEntry := ⟨0, 0, 30, 0, rd, wr, false, false, 512, false⟩
    (∀ j, j < 8 → (s 7).walk 0 (64 + j) = .leaf (e true false) ∧ (s 11).walk 0 (64 + j) = .leaf (e false true)) ∧
    (∀ b ∈ [7, 11], Canonical (s b)) := by decide +kernel

theorem test_host_ports :
    let asked (r : RemoteOp) (o n : Nat) (d : Option (List Byte)) : State := { hostAccess o n 0 d with arg := { (hostAccess o n 0 d).arg with remote := r } }
    allTrue [after? .bar0RegisterWrite (hostAccess 32 8 0 none) (fun t => t.hostReads == [natToBytes 8 0x1234]),
      after? .bar0RegisterWrite (hostAccess 48 8 7 (some (natToBytes 8 7))) (fun t => (t.vf 0).ien == 1),
      after? .bar0RegisterWrite (hostAccess 32 4 7 none) (fun t => t.hostReads == [[255, 255, 255, 255]]),
      after? .lqtailWrite (hostAccess 16 8 259 (some [])) (fun t => (t.vf 0).lqtail == 259), after? .lqtailWrite (hostAccess 16 8 260 (some [])) (fun t => (t.vf 0).lqtail == 3),
      after? .bar2Access (hostAccess 512 1 0 none) (fun t => t.hostReads == [[0xF]]), after? .bar2Access (hostAccess 1024 2 0 (some [5, 6])) (fun t => readNat t.mem 1024 2 == 0x605),
      after? .fabricRequestArrival (hostAccess 512 1 0 none) (fun t => (t.link 0).answers == [some ([0xF], 0)]),
      after? .fabricRequestArrival (hostAccess 1024 2 0 (some [5, 6])) (fun t => readNat t.mem 1024 2 == 0x605),
      after? .fabricRequestArrival (asked (.compare [1, 0]) 1024 2 (some [5, 6])) (fun t => readNat t.mem 1024 2 == 0),
      after? .fabricRequestArrival (asked (.atomic 0 6 3 0) 512 8 none) (fun t => readNat t.mem 512 8 == 0x12 && (t.link 0).answers == [some (natToBytes 8 0xF, 0)])] = true := by
  decide +kernel

/-- The machine at a clock with throttle requests, asked for a clock. -/
def throttled (mhz : Nat) (ts : List Throttle) (ask : Nat) : State := { base with mhz := mhz, throttles := ts, arg := { mhz := ask } }

/-- A request that waits or is ready, by its hardness or since no span is open; and a request for a higher clock. -/
theorem test_hyp_clock :
    let t : Throttle := ⟨0, 360, 0, false⟩
    let s := throttled 600 [t] 0
    let u := s.setMe { base.me with depth := 1 }
    (((480 : Nat) = 600 ∨ (480 : Nat) = 480 ∨ (480 : Nat) = 360) ∧ 480 < (throttled 600 [] 480).mhz) ∧ ¬ 600 < (throttled 600 [] 600).mhz ∧
    s.cursor = 0 ∧ s.throttles = [t] ∧ t ∉ ([] : List Throttle) ∧ t.mhz < 600 ∧ (∀ p ∈ s.strands, p.2.depth = 0) ∧
    ¬ (∀ p ∈ u.strands, p.2.run ≠ .free → p.2.depth = 0) ∧ (throttled 480 [] 600).throttles = [] ∧
    (throttled 480 [] 600).mhz < 600 ∧ ({ s with cursor := 1 } : State).cursor ≠ 0 := by decide +kernel

/-- A flit for port 0, which fails to send or not. -/
def flit (t : Flit) (p : LinkPort) : State := { base.setLink 0 p with arg := { port := 0, flit := t } }

set_option maxRecDepth 20000 in
theorem test_hyp_links :
    let p : LinkPort := {}
    (∀ s ∈ [flit ⟨0, 0, 0⟩ p, flit ⟨0, 0, 0⟩ { failures := 9 }, flit ⟨0, 0, 0⟩ { sendFails := 9, out := [(0, 3)] }], Canonical s) ∧
    p.down = false ∧ p.frozen = false ∧ p.nak = false ∧ 9 ≤ ({ p with failures := 9 } : LinkPort).failures ∧ p.failures < 9 ∧ p.sendFails < 9 ∧
    p.retired = false ∧ ({ p with retired := true } : LinkPort).retired = true ∧ base.trust.dead = false ∧
    (0 : BitVec 64) = crcBytes (natToBytes 8 0 ++ natToBytes 240 0) ∧ (1 : BitVec 64) ≠ crcBytes (natToBytes 8 0 ++ natToBytes 240 0) ∧
    (1 : BitVec 64).setWidth 8 ≠ p.expect ∧ (0 : BitVec 64).setWidth 8 = p.expect := by decide +kernel

/-- VF 0 owns the ports 0 and 1: a message to device 3 takes port 1, and port 0 while port 1 is down. -/
def twoPorts : State := base.setVf 0 { fabric := 3 }

theorem test_hyp_ports :
    let m : Msg := { sent (.fabric 3) (.write 7 0 [1]) with src := 0 }
    Canonical twoPorts ∧ m.home = .fabric 3 ∧ (twoPorts.launchOf (m.src / 8)).vf = 0 ∧ TakesPort twoPorts 0 3 1 ∧
    TakesPort (twoPorts.setLink 1 { down := true }) 0 3 0 ∧ ∀ q, ¬ TakesPort base 0 3 q := by
  refine ⟨by decide +kernel, rfl, by decide +kernel, ⟨0, by decide +kernel, by decide +kernel, ⟨1, by decide +kernel⟩, fun j h => absurd h (by omega)⟩,
    ⟨1, by decide +kernel, by decide +kernel, ⟨0, by decide +kernel⟩, fun j h => ?_⟩, fun q => ?_⟩
  · obtain rfl : j = 0 := by omega
    rintro ⟨p, h, down, -⟩
    have first : p = 1 := by
      have e : ((List.range 96).filter fun p => ((twoPorts.setLink 1 { down := true }).vf 0).fabric.getLsbD p)[(3 + 0) %
        ((List.range 96).filter fun p => ((twoPorts.setLink 1 { down := true }).vf 0).fabric.getLsbD p).length]? = some 1 := by decide +kernel
      exact (Option.some.inj (e.symm.trans h)).symm
    subst first
    revert down
    decide +kernel
  · rintro ⟨i, h, -⟩
    have none : ((List.range 96).filter fun p => (base.vf 0).fabric.getLsbD p).length = 0 := by decide +kernel
    rw [none] at h
    omega

/-- A far copy in flight when the pool's link goes down. -/
theorem test_hyp_pool :
    let c : CopyOp := { base.copyOf base.me { ext := .imm64 0 } with far := true, rows := 1, src := .handle 0 (entry 0x200000000000 1 1 false) 0 }
    let s := base.setMe { base.me with copies := [c] }
    Canonical s ∧ s.diverts (0 / 8) = false ∧ (s.strand 0).copyAt true = some c ∧ c.held = none ∧ c.row < c.rows ∧ c.poolPlace ≠ none ∧ s.arg.up = false ∧
    ({ s with arg := { up := true } } : State).arg.up = true ∧ (base.poolWith { vf := 0, clusters := 0, banks := 0, channels := 0, viterbi := 0, fabric := 0, pooled := 2, minima := [], defer := 0, weight := 1, targets := [], groups := [], contexts := [] }).getLsbD 1 = true := by
  decide +kernel

set_option maxRecDepth 20000 in
theorem test_clock_and_links :
    let mhz (s : State) (i : Instr) (v : Nat) : Bool := after? i s fun t => t.mhz == v
    allTrue [after? .softThrottleRequest (throttled 600 [] 480) (fun t => t.throttles == [⟨0, 480, 0, false⟩]), after? .criticalTemperature (throttled 600 [] 480) (fun t => t.throttles == [⟨0, 480, 0, true⟩]),
      after? .hardThrottle { throttled 600 [⟨0, 480, 0, false⟩] 0 with dt36 := 36000000 } (fun t => t.throttles == [⟨0, 480, 1000000, true⟩]),
      mhz (throttled 600 [⟨0, 480, 0, false⟩] 0) .throttleStep 480, mhz ((throttled 600 [⟨0, 480, 0, false⟩] 0).setMe { base.me with depth := 1 }) .throttleStep 600,
      mhz (throttled 480 [] 600) .throttleStep 600, after? .flitReceive (flit ⟨0, 0, 0⟩ {}) (fun t => (t.link 0).expect == 1 && (t.link 0).delivered == [0]),
      after? .flitReceive (flit ⟨0, 0, 1⟩ {}) (fun t => (t.link 0).nak && (t.link 0).failures == 1), after? .fabricPortDown (flit ⟨0, 0, 0⟩ { failures := 9 }) (fun t => (t.link 0).down),
      after? .fabricPortRetrain (flit ⟨0, 0, 0⟩ { down := true, failures := 9, expect := 4 }) (fun t => t.link 0 == {}),
      after? .poolOccupancyPublication { base.setVf 3 {} with pooled := 2, arg := { busy := [(3, 1), (3, 2)] } } (fun t => (t.vf 3).halfRate == [1]),
      after? .poolLinkDown base (fun t => t.me == base.me && t.poolDown),
      after? .fabricPortDown (flit ⟨0, 0, 0⟩ { sendFails := 9 }) (fun t => (t.link 0).down)] = true := by decide +kernel

/-- The machine with a state of its trust, asked for something. -/
def trusting (t : Trust) (a : Args) : State := { base with trust := t, arg := a }

/-- Nothing in flash is an image: a machine in recovery, one that waits for firmware, and what they are offered. -/
theorem test_hyp_boot :
    ¬ Accepted {} 1 [] ∧ ¬ Accepted {} 2 [1] ∧ ({ stage := 3 } : Trust).recovery = false ∧
    ({ stage := 3 } : Trust).retryAt.toNat ≤ (trusting { stage := 3 } { image := [1] }).dt.toNat ∧ (trusting { stage := 3 } { image := [1] }).arg.image ≠ [] ∧
    ({ stage := 2, recovery := true } : Trust).recovery = true ∧ ({ stage := 3 } : Trust).dead = false ∧
    (trusting { stage := 3, retryAt := 9 } {}).dt.toNat < (9 : Word).toNat := by
  unfold Accepted; decide +kernel

/-- A trusted part with an empty body: all but the two signatures are as R347 asks. -/
def emptyImage : List Byte :=
  natToBytes 4 0x4956524B ++ natToBytes 4 1 ++ List.replicate 24 0 ++ sha384Bytes [] ++ List.replicate 2736 0

/-- An image whose acceptance rests on its signatures alone, which the keys of the part decide (log 11). -/
theorem test_hyp_image : Accepted {} 1 emptyImage ↔
    ecdsaVerify (Config.ecdsaKey 0) (emptyImage.take 0x50) ((emptyImage.drop 0x50).take 96) = true ∧
    lmsVerify (Config.lmsKey 0) (emptyImage.take 0x50) ((emptyImage.drop 0xB0).take 2508) = true := by
  have slot : bytesToNat ((emptyImage.drop 0x18).take 4) = 0 := by decide +kernel
  have fields : bytesToNat ((emptyImage.drop 0).take 4) = 0x4956524B ∧ bytesToNat ((emptyImage.drop 4).take 4) = 1 ∧
      bytesToNat ((emptyImage.drop 8).take 8) = 0 ∧ bytesToNat ((emptyImage.drop 0x10).take 8) = 0 ∧
      (sha384 []).toNat = bytesToNat ((emptyImage.drop 0x20).take 48) := by decide +kernel
  unfold Accepted
  simp only [slot, fields]
  simp [mapGet, fields.2.2.2.2]

/-- Commits: a core that asks, one that may not; the last key slot and another. -/
theorem test_hyp_commits :
    Asking (trusting { stage := 5 } {}) ∧ ¬ Asking (trusting { stage := 5, frozenCores := 1 } {}) ∧ ¬ Asking (trusting { stage := 3 } {}) ∧
    ¬ Asking (trusting { stage := 5, dead := true } {}) ∧ mapWf 0 base.trust.fusedSvn = true ∧ mapWf (0 : BitVec 4) base.trust.revoked = true ∧
    (∀ k, k < 4 → k ≠ 0 → (mapGet (0 : BitVec 4) [(1, 0xE)] 1).getLsbD k = true) ∧ ¬ (∀ k, k < 4 → k ≠ 1 → (mapGet (0 : BitVec 4) [(1, 0xE)] 1).getLsbD k = true) := by
  decide +kernel

/-- A grant of cluster 3 to VF 2, with a pool of one channel. -/
def grant : Grant :=
  { vf := 2, clusters := 8, banks := 0, channels := 1, viterbi := 0, fabric := 0, pooled := 2, minima := (List.range 9).map fun n => (n, 1), defer := 5, weight := 16,
    targets := [], groups := [], contexts := [] }

theorem test_hyp_partition :
    let s := trusting { stage := 5 } { grant := some grant }
    Canonical s ∧ s.arg.grant = some grant ∧ s.grantOk grant = true ∧ s.grantOk { grant with weight := 0 } = false ∧ Asking s ∧
    meshReaches s.trust.meshDown (s.ownedWith grant) = true ∧ s.trust.meshDown = 0 := by decide +kernel

/-- Masters of every class, frozen, with and without a launch on their tile. -/
theorem test_hyp_freezes :
    let s := (base.setStrand 9 { run := .frozen }).setVf 0 { frozen := true, flrDone := true }
    Canonical s ∧ mapWf (0 : BitVec 256) base.trust.ring = true ∧ base.trust.frozenCores.getLsbD 0 = false ∧
    (trusting { frozenCores := 1 } {}).trust.frozenCores.getLsbD 0 = true ∧ base.arg.offset < 2 ^ 64 ∧ (s.strand (1 * 8 + 1)).run = .frozen ∧
    s.tileHeld 1 = false ∧ s.tileHeld 0 = true ∧ ((base.setMe { base.me with run := .frozen }).strand 0).run = .frozen ∧
    (s.vf 0).frozen = true ∧ (s.vf 0).flrDone = true ∧ (base.vf 0).flrDone = false ∧ base.trust.dead = false := by decide +kernel

theorem test_boot_and_trust :
    let five : Trust := { stage := 5, fwHeader := List.replicate 8 0 ++ [3, 0, 0, 0, 0, 0, 0, 0], revoked := [(1, 0xE)] }
    let retires : State := trusting {} { tests := [.channel 3, .link 2] }
    allTrue [after? .powerOnReset (trusting { secret := 7 } {}) (fun t => t.trust.stage == 2 && t.trust.recovery && t.trust.secret == 7 && t.tiles == []),
      after? .powerOnReset retires (fun t => t.retired == 8 && (t.link 2).retired && (t.link 2).down && t.trust.repair == [.channel 3, .link 2]),
      after? .fuseCommit (trusting five { commit := .raiseSvn 2 }) (fun t => mapGet 0 t.trust.fusedSvn 2 == 3),
      after? .fuseCommit (trusting five { commit := .revoke 1 0 }) (fun t => t.trust.revoked == [(1, 0xE)]),
      after? .fuseCommit (trusting five { commit := .revoke 2 1 }) (fun t => mapGet 0 t.trust.revoked 2 == 2),
      after? .partitionRequest (trusting { stage := 5 } { grant := some grant }) (fun t => (t.vf 2).clusters == 8 && (t.vf 2).tableGen == 1 && t.pooled == 2),
      after? .partitionRequest (trusting { stage := 5 } { grant := some { grant with weight := 0 } }) (fun t => t.vf 2 == {}),
      after? .managementWindowViolation (trusting { stage := 5 } { offset := 0x77 }) (fun t => t.trust.frozenCores == 1 && t.trust.seq == 1),
      after? .unfreezeRequest { base.setStrand 9 { run := .frozen } with arg := { master := .strand 1 1 } } (fun t => (t.strand 9).run == .parked),
      after? .unfreezeRequest { base.setMe { base.me with run := .frozen } with arg := { master := .strand 0 0 } } (fun t => t.me.run == .frozen)] = true := by decide +kernel

/-- FIPS 180-4: the digests of "abc"; and the double of the base point of P-384. -/
theorem test_sha384 : beNat (sha384Bytes [0x61, 0x62, 0x63]) =
    0xCB00753F45A35E8BB5A03D699AC65007272C32AB0EDED1631A8B605A43FF5BED8086072BA1E7CC2358BAECA134C825A7 := by decide +kernel
theorem test_sha256 : beNat (sha256Bytes [0x61, 0x62, 0x63]) = 0xBA7816BF8F01CFEA414140DE5DAE2223B00361A396177A9CB410FF61F20015AD := by decide +kernel
theorem test_pointMul : pointMul 384 2 curveG =
    some (0x08D999057BA3D2D969260045C55B97F089025959A6F434D651D207D19FB96E9E4FE0E86EBE0E64F85B96A9C75295DF61,
      0x8E80F1FA5B1B3CEDB7BFE8DFFD6DBA74B275D875BC6CC43E904E505F256AB4255FFD43E94D39E22D61501E700A940E80) := by decide +kernel

theorem test_hyp_management :
    let s (a : Args) : State := trusting { stage := 5 } a
    5 ≤ (s {}).trust.stage ∧ (s {}).trust.dead = false ∧ (trusting { stage := 3 } {}).trust.stage < 5 ∧ (s {}).arg.slot = 0 ∧ (s { id := 255 }).arg.id = 255 ∧
    (1 ≤ (s { id := 6 }).arg.id ∧ (s { id := 6 }).arg.id ≤ 6) ∧ Algorithm.ecdsaP384Sha384 ∈ (s { offered := [.ecdsaP384Sha384] }).arg.offered ∧
    Algorithm.ecdsaP384Sha384 ∉ (s {}).arg.offered ∧ (s { target := .scalar 0 0 1 }).arg.target = .scalar 0 0 1 ∧ (8 : Nat) % 8 = 0 ∧
    (s { target := .l1 0 0 3 }).arg.target = .l1 0 0 3 ∧ ((lined.tile 0).l1[0]?).isSome = true := by decide +kernel

/-- Visits of the scrubber to a word, an L1 line, cache entries, a hoist and the security core. -/
theorem test_hyp_scrubs :
    let v (u : ScrubUnit) (bad : Bool) : State := { lined with arg := { visit := ⟨true, 4, 5, bad, u⟩ } }
    (∀ u ∈ [ScrubUnit.word, .l1 0 0 3, .tileTlb 0 0, .clusterTlb 0 0, .handle 0 0, .hoist 0, .security], ∀ b ∈ [false, true],
      Canonical (v u b) ∧ (v u b).arg.visit.unit = u ∧ (v u b).arg.visit.uncorrectable = b) ∧
    mapWf [] base.trust.corrected = true ∧ mapWf [] base.trust.uncorrected = true ∧ mapWf 0 base.badWords = true ∧ (lined.tile 0).l1.length = 1 := by decide +kernel

/-- The finds of `n` uncorrectable words at time 0. -/
def finds (n : Nat) : List (Word × Scrub) := (List.range n).map fun i => (0, ⟨true, 0, i, true, .word⟩)

/-- Four uncorrectable words in 24 hours, in channel 3 and in a tile of cluster 5; and 16 retries of link 2 and of a mesh link. -/
def worn : State :=
  let s := trusting { stage := 5, uncorrected := [(placeKey false 3, finds 4), (placeKey true (clusterTile 5 0), finds 4)],
                      corrected := [(rowKey false 3 1, List.replicate 16 0)], meshRetries := [(0, List.replicate 16 0)] } {}
  s.setLink 2 { retries := List.replicate 16 0 }

theorem test_hyp_retirements :
    RetirementCase worn (.channel 3) ∧ RetirementCase worn (.cluster 5 false) ∧ RetirementCase worn (.cluster 0 true) ∧ RetirementCase worn (.link 2) ∧
    RetirementCase worn (.meshLink 0) ∧ ¬ RetirementCase worn (.meshLink 1) ∧ (RetirementCase worn (.row false 3 1) ∨ RetirementCase worn (.channel 3)) ∧ ¬ RetirementCase worn (.cluster 6 false) ∧
    ¬ RetirementCase worn (.link 3) :=
  ⟨.inl (by decide +kernel), .inr ⟨clusterTile 5 0, by decide +kernel, by decide +kernel⟩, .inl rfl, show 16 ≤ _ by decide +kernel,
    show 16 ≤ _ by decide +kernel, fun h => absurd (show 16 ≤ _ from h) (by decide +kernel), .inr (.inl (by decide +kernel)), fun h => by
      rcases h with h | h
      · cases h
      · revert h; decide +kernel, fun h => absurd (show 16 ≤ _ from h) (by decide +kernel)⟩

/-- While channel 3 has spares its worn row is replaced; with none left the channel is retired. -/
theorem test_hyp_wornRow : RetirementCase worn (.row false 3 1) ∨ (Config.spareRows 3 = 0 ∧ RetirementCase { worn with trust := { worn.trust with uncorrected := [] } } (.channel 3)) := by
  rcases Nat.eq_zero_or_pos (Config.spareRows 3) with h | h
  · exact .inr ⟨h, .inr ⟨h.le, 1, by decide +kernel, by decide +kernel⟩⟩
  · exact .inl ⟨rfl, ⟨by decide +kernel, by decide +kernel⟩, h⟩

theorem test_hyp_repairs :
    Canonical worn ∧ mapWf [] worn.trust.corrected = true ∧ 3 ≤ worn.trust.stage ∧ worn.trust.dead = false ∧ base.trust.stage < 3 ∧
    (∀ i ∈ clusterTiles 5, worn.tileHeld i = false) ∧ (∃ i ∈ clusterTiles 0, worn.tileHeld i = true) ∧ (worn.strand 0).run = .running ∧
    ((worn.setVf 1 { clusters := 32 }).clusterOwner 5) = some 1 := by decide +kernel

/-- The pool when it has gone, and when what is left of it holds the minima or not. -/
theorem test_hyp_poolShrink :
    let s : State := { base with pooled := 1 }
    let u := s.setVf 0 { s.vf 0 with minima := [(8, 200)] }
    Canonical base ∧ base.pooled = 0 ∧ (∀ v, v < 96 → mapWf 0 (u.vf v).minima = true) ∧
    ((List.range 96).map fun v => max 1 (mapGet 0 (s.vf v).minima 8)).sum ≤ 128 * ((List.range 384).filter fun c => s.pooled.getLsbD c).length ∧
    128 * ((List.range 384).filter fun c => u.pooled.getLsbD c).length < ((List.range 96).map fun v => max 1 (mapGet 0 (u.vf v).minima 8)).sum := by decide +kernel

theorem test_management_plane :
    let s (a : Args) : State := { withX base [(1, 9)] with trust := { stage := 5 }, arg := a }
    let replies (i : Instr) (r : Spdm) : Bool := after? i (s { id := 0x99, offered := [.ecdsaP384Sha384] }) fun t => t.trust.responses == [r]
    let third (s : State) : State := { s with trust := { s.trust with uncorrected := [(placeKey false 3, finds 3)] } }
    allTrue [replies .getVersion (.version [(1, 3)]), replies .negotiateAlgorithms (.algorithms (some .ecdsaP384Sha384)), replies .spdmUnsupportedRequest (.unsupported 0x99),
      after? .readback (s { target := .scalar 0 0 1 }) (fun t => t.trust.readback == [(9, false)]),
      after? .patrolScrub (s { visit := ⟨false, 4, 5, false, .word⟩ }) (fun t => t.trust.corrected.map (fun p => p.2) == [[0]]),
      after? .patrolScrub (s { visit := ⟨false, 4, 5, true, .word⟩ }) (fun t => t.badWords == [(5, 4)] && t.trust.scrubLog.length == 1),
      after? .errorThreshold { worn with arg := { failing := .channel 3 } } (fun t => t.retired == 8 && t.trust.repair == [.channel 3]),
      after? .errorThreshold { third worn with arg := { failing := .cluster 6 false } } (fun t => t == { third worn with arg := { failing := .cluster 6 false } }),
      after? .errorThreshold { worn with arg := { failing := .cluster 5 false } } (fun t => (t.cluster 5).retired),
      after? .errorThreshold { worn with arg := { failing := .cluster 0 true } } (fun t => (t.cluster 0).retiring && t.me.run == .frozen)] = true := by decide +kernel

/-- The answers that hold a signature or a chain. -/
theorem test_management_answers :
    let answers (i : Instr) (a : Args) : Nat := match exec i (trusting { stage := 5 } a) with
      | .next t => t.trust.responses.length
      | _ => 0
    answers .getDigests {} = 1 ∧ answers .getCertificate {} = 1 ∧ answers .challenge {} = 1 ∧ answers .getMeasurements { id := 255 } = 1 := by decide +kernel

/-! Witnesses of further clauses. -/

/-- The operand slot of `v.tdec` is not the strand's, or holds a spoilt scale, and its destination is an output port with four undrained elements. -/
def fullPort (s : State) : State :=
  let q : Port := { isOpen := true, out := true, base := .store 16384, n0 := 9, n1 := 1, stride0 := 256 }
  s.setMe { s.me with ports := [(1, q)], drains := List.replicate 4 (.elem 1 (.store 16384) 0 0 7 0) }

theorem test_hyp_decodeHeldByPort :
    let f : Fields := { d := 33, a := 0, b := 2, fmt := 10, imm10 := 2 }
    let s := fullPort (slotted.setTile 0 (setSlot (slotted.tile 0) 0 { owner := some 0, mem := writeBytes [] (streamBytes 2 1) [0xFF#8] }))
    CanonicalTiles s ∧ s.badWords = [] ∧ s.decodeHeld 0 = false ∧ s.decodeHeld 4 = false ∧
    (∀ n ∈ [(0 : BitVec 6), 4], Ready (.vTdec { f with a := n }) s ∧ checkPorts s.me [] (some f.d.toNat) = .hold) ∧
    (slotAt (s.tile 0) 4).owner ≠ some s.mySlot ∧ checkPorts slotted.me [] (some 5) ≠ .hold ∧
    after? (.vTdec f) s (fun t => t == s) = true ∧ after? (.vTdec { f with a := 4 }) s (fun t => t == s) = true ∧
    traps (.vTdec { f with d := 5, a := 4 }) s 15 0 4 = true ∧ traps (.vTdec { f with d := 5 }) s 14 0 64 = true := by decide +kernel

/-- R54, R55: in a stream of one bit the first window is 1, the last 2 with one bit a step; a window of zeros stands for 122. -/
theorem test_trellis_values :
    windowAt 1 1 1 0 = 1 ∧ windowAt 1 1 1 255 = 2 ∧ windowAt 1 3 2 127 = 8 ∧ windowValue 0 0 = 0x6D + 0x3C - 0x4A - 0x7F ∧
    scaledWeight 3 135 = .fin false 3 0 false ∧ scaledWeight 3 0 = .fin false 0 0 false := by decide +kernel

/-- The record of a pattern of `n` elements of a stride, in the local store. -/
def record (base stride n : Nat) : Nat := base + stride % 2 ^ 32 * 2 ^ 64 + n * 2 ^ 128 + 2 ^ 144

/-- R177: each check of `q.open`: the record's place, its form, its alignment, its bounds, its rights, the port; and of
the elements of a local pattern that crosses tiles the middle one alone is out of bounds. -/
theorem test_open_checks :
    let o (s : State) (a item : Nat) : Option TrapInfo := s.openTrap 0 a item
    let h (space n stride : Nat) : Option TrapInfo := o (handled base (entry 0x10000 0x1000 space false)) 4096 (record 0 stride n + 2 ^ 160 + 2 ^ 176)
    allTrue [o base 4097 0 == some (5, 0, 4097), o base 4064 0 == some (7, 0, 4064), o base 69632 0 == some (6, 0, 69632),
      o base 4096 (record 8192 256 4 + 2 ^ 178) == some (6, 0, 4096), o base 4096 (record 8192 256 0) == some (6, 0, 4096),
      o base 4096 (record 8192 256 4 + 2 ^ 160) == some (6, 0, 4096),
      o base 4096 (record 8194 256 4) == some (5, 0, 8194), o base 4096 (record 8192 6 4) == some (5, 0, 8198),
      o base 4096 (record 69376 256 2) == some (6, 0, 69632), o base 4096 (record 0 256 1) == some (7, 0, 0),
      h 0 17 256 == some (6, 0, 4096), h 1 4 256 == some (7, 0, 0), h 0 16 256 == none,
      o (ported base) 4096 (record 8192 256 4) == some (7, 0, 32), o base 4096 (record 8192 256 4) == none] = true := by decide +kernel

theorem test_open_middle :
    (two.openTrap 0 4096 (record 0x40001000 0x80000 3) == some (6, 0, 0x40081000)) = true ∧
    (two.openTrap 0 4096 (record 0x40001000 0x100000 2) == none) = true := by decide +kernel

/-- A frozen engine with a copy, a fetch and a drain to do; and an element to drain that its buffer has lost. -/
def frozenEngine (s : State) : State := s.setTile 0 { s.tile 0 with copyFrozen := some 77 }

theorem test_frozen_engine :
    let lost := streaming [.elem 1 (.store 16384) 0 0 7 0 true]
    CanonicalTiles (frozenEngine (copying false 0)) ∧ (frozenEngine (copying false 0)).diverts 0 = false ∧
    (∀ c ∈ (copying false 0).me.copies, (frozenEngine (copying false 0)).me.copyAt false = some c ∧ c.row < c.rows) ∧ (lost.tile 0).copyFrozen = none ∧
    after? .copyElement (frozenEngine (copying false 0)) (fun t => t.me.copies == [] && t.me.tlc.recs.map (fun x => (x.state, x.addr)) == [(3, 77)]) = true ∧
    after? .portRefillElement (frozenEngine (streaming [])) (fun t => (readPort t.me 0).buf.map (fun e => e.bad) == [some 77]) = true ∧
    after? .portDrainElement (frozenEngine (streaming [.elem 1 (.store 16384) 0 0 7 0])) (fun t => t.me.drains == [] && t.me.drainBad == [(1, 77)]) = true ∧
    after? .portDrainElement lost (fun t => (t.tile 0).copyFrozen == some 16384 && t.me.drainBad == [(1, 16384)] && t.trust.seq == 1) = true := by decide +kernel

/-- A store to a line whose page was withdrawn: the old bytes go out, to be rejected, and a line of the new page takes its place. -/
theorem test_withdrawn_line :
    let l : L1Line := { tag := 0, line := 512, home := .channel 0, pa := 0x40000, data := 0x99#1024, valid := 0xFFFF, dirty := 0xFF, writer := 0, withdrawn := true }
    let s := (withX lined [(5, 7)]).setTile 0 { lined.tile 0 with l1 := [l] }
    CanonicalTiles s ∧ l1Find (s.tile 0) 0 0x10000 = some l ∧ SoundLine s l ∧ MemReady (.st (viaHandle 6)) s ∧
    after? (.st (viaHandle 6)) s (fun t => (t.tile 0).l1.map (fun x => (x.pa, x.valid, x.dirty, x.withdrawn)) == [(0x20000, 0xFF, 0xFF, false)] &&
      t.net.map (fun m => (m.addr, m.withdrawn)) == [(0x40000, true)]) = true := by decide +kernel

/-- A line fill that comes home before a later writeback of its line has arrived: the home's bytes under those of the writeback. -/
theorem test_fill_under_writeback :
    let fill := sent (.channel 0) (.fill 5 0 512 [(0, 0, 8)])
    let wb : Msg := { sent (.channel 0) (.writeback 7 0x1234 0x3) with id := 4, src := 9 }
    let s : State := { contending fill wb with mem := writeBytes [] 8192 [0xAA, 0xBB, 0xCC] }
    servedNow s fill = true ∧ (wb ∈ s.net ∧ wb.id ≠ fill.id ∧ wb.src / 8 = fill.src / 8 ∧ wb.home = fill.home ∧ wb.addr = fill.addr) ∧
    l1Find (s.tile 1) 0 (512 * 128) = none ∧ (s.tile 1).l1.length < (s.tile 1).l1Lines ∧
    after? .homeRequestService s (fun t => (t.tile 1).l1.map (fun x => x.data % 0x1000000) == [0xCC1234]) = true := by decide +kernel

/-- A request still on its way when another is served does not count the service. -/
theorem test_late_request :
    let m := sent (.tile 0) (.write 7 0 [1])
    let n : Msg := { m with id := 2, src := 9 }
    let s (l : List Nat) : State := { contending m n with arg := { message := 3, late := l } }
    (∀ l ∈ [[], [2]], servedNow (s l) m = true ∧ (s l).firstOf n = true ∧ n.passed = []) ∧
    after? .homeRequestService (s []) (fun t => t.net.map (fun k => k.passed) == [[8]]) = true ∧
    after? .homeRequestService (s [2]) (fun t => t.net.map (fun k => k.passed) == [[]]) = true := by decide +kernel

/-- A rejected writeback of the strand that ran in the slot before: nothing is reported to the one that runs. -/
theorem test_past_writeback :
    let s : State := { acked true false with strands := (base.setMe { base.me with posted := [{ id := 5, addr := 64, cover := 3, wb := true, old := true }] }).strands }
    (s.strand 0).run ≠ .free ∧ (∃ p ∈ (s.strand 0).posted, p.id = 5 ∧ p.old = true) ∧ after? .storeAcknowledgment s (fun t => t.me.posted == []) = true := by decide +kernel

/-- A pop of a hoist with an uncorrectable word. -/
theorem test_bad_batch :
    let q := queued [(1, { state := .queued, key := 5 })]
    let s := withX (((q.setCluster 0 { q.cluster 0 with bad := true }).setVf 0 { q.vf 0 with clusters := 1 }).setMe { q.me with tbr := 100 }) [(1, 8192), (2, 3)]
    Ready (.tkBatch { d := 5, a := 1, b := 2 }) s ∧ (s.launchOf 0).term = .running ∧ (s.cluster (clusterOf s.myTile)).bad = true ∧
    after? (.tkBatch { d := 5, a := 1, b := 2 }) s (fun t => (t.vf 0).frozen) = true := by decide +kernel

/-- Every command with a tile of a cluster that the VF does not own. -/
theorem test_command_not_owned :
    let s (n : Nat) : State := (commanding (BitVec.ofNat 64 n) .running).setVf 0 { clusters := 2 }
    (∀ n ∈ [0, 1, 2, 3, 4, 5, 6, 7], Commanding (s n) n ∧ ((s n).vf 0).clusters.getLsbD (clusterOf 0) = false) ∧
    allTrue [after? .handleInvalidation (s 1) (fun t => (t.vf 0).cmdErr), after? .translationInvalidation (s 2) (fun t => (t.vf 0).cmdErr),
      after? .resume (s 3) (fun t => (t.vf 0).cmdErr), after? .refuse (s 4) (fun t => (t.vf 0).cmdErr)] = true := by decide +kernel

set_option maxRecDepth 20000 in
/-- A bad flit of a fabric port and one of a mesh link: the retry is counted. -/
theorem test_retries :
    let mesh : State := { flit ⟨0, 0, 1⟩ {} with arg := { port := 99, flit := ⟨0, 0, 1⟩ } }
    Canonical mesh ∧ mapWf [] mesh.trust.meshRetries = true ∧ 96 ≤ mesh.arg.port ∧
    after? .flitReceive mesh (fun t => t.trust.meshRetries == [(3, [0])] && t.links == mesh.links) = true ∧
    after? .flitReceive (flit ⟨0, 0, 1⟩ {}) (fun t => (t.link 0).retries == [0]) = true := by decide +kernel

/-- Readback: a port's element and cache entries with an uncorrectable word, and the violation ring for a core that may ask or may not. -/
theorem test_readback_targets :
    let p : Port := { isOpen := true, n0 := 4, n1 := 1, buf := [⟨0, 7, none, true⟩] }
    let e : TlbEntry := ⟨0, 0, 30, 0, true, true, false, false, 512, true⟩
    let s (stage : Nat) (t : ReadTarget) : State :=
      { ((base.setMe { base.me with ports := [(0, p)] }).setTile 0 { base.tile 0 with tlb := [e] }).setCluster 0 { tlb := [e], handles := [⟨0, 1, 0, true⟩] } with
        trust := { stage := stage, ring := [(2, 9)] }, arg := { target := t } }
    let read (t : ReadTarget) (q : Word × Bool → Bool) : Bool := after? .readback (s 5 t) fun u => u.trust.readback.map q == [true]
    Asking (s 5 (.pc 0 0)) ∧ ¬ Asking (s 4 (.pc 0 0)) ∧ (s 4 (.violation 2 0)).trust.dead = false ∧
    allTrue [read (.portBuffer 0 0 0 0 0) (· == (7, true)), read (.tileTlb 0 0 0) (fun r => r.2), read (.clusterTlb 0 0 0) (fun r => r.2),
      read (.handle 0 0 0) (fun r => r.2), read (.violation 2 0) (· == (9, false)),
      after? .readback (s 4 (.violation 2 0)) (fun u => u == s 4 (.violation 2 0))] = true := by decide +kernel

/-- Visits to an element of an input port and to one of an output port. -/
theorem test_scrubbed_ports :
    let v (u : ScrubUnit) (s : State) : State := { s with arg := { visit := ⟨true, 4, 5, true, u⟩ } }
    let a := v (.portElem 0 0 0 1) (ported base)
    let b := v (.drain 0 0 0) (streaming [.elem 1 (.store 16384) 0 0 7 0])
    Canonical a ∧ Canonical b ∧ mapWf {} a.me.ports = true ∧ (readPort a.me 0).isOpen = true ∧
    after? .patrolScrub a (fun t => (readPort t.me 0).buf.map (fun e => (e.index, e.spoilt)) == [(0, false), (1, true)]) = true ∧
    after? .patrolScrub b (fun t => t.me.drains == [.elem 1 (.store 16384) 0 0 7 0 true]) = true := by decide +kernel

/-- A failure of the security core, with no master frozen before: one strand, 1,024 engines, 96 VFs, 96 ports and 4 cores are. -/
theorem test_hyp_securityFailure :
    (∀ n, n < 96 → (base.vf n).frozen = false ∧ (base.link n).frozen = false) ∧ (∀ i, i < 1024 → (base.tile i).copyFrozen = none) ∧ base.trust.frozenCores = 0 ∧
    (base.strands.filter fun p => p.2.run == .running || p.2.run == .waiting).length = 1 := by decide +kernel

/-- A core that asks for a retirement: one that may, and one that is frozen. -/
theorem test_asked_retirement :
    let s (frozen : BitVec 4) : State := { worn with trust := { worn.trust with frozenCores := frozen }, arg := { failing := .channel 3, asked := true, id := 1 } }
    (s 0).arg.asked = true ∧ Asking (s 0) ∧ ¬ Asking (s 2) ∧ after? .errorThreshold (s 0) (fun t => t.retired == 8) = true ∧
    after? .errorThreshold (s 2) (fun t => t == s 2) = true := by decide +kernel

/-- A tile saved and read back: its store, a slot, a register and the PC return; a strand that was frozen meanwhile stays. -/
theorem test_save_area :
    let s := withX (withStore slotted 0 8192 4 0xABCD) [(3, 5)]
    let s := s.setTile 0 (setSlot (s.tile 0) 1 { slotAt (s.tile 0) 1 with mem := writeBytes [] 100 [9] })
    let u := (s.setMe { s.me with pc := 64 }).writeSaveArea 0
    let clear (r : Run) : State := (u.setTile 0 { u.tile 0 with store := [], slots := [] }).setMe { u.me with x := [], pc := 0, run := r }
    let v := (clear .running).readSaveArea 0
    Canonical s ∧ (∀ j, j < 8 → ∀ p ∈ (s.strand (0 * 8 + j)).x, p.1 < 64) ∧ (∀ c ∈ (s.tile 0).store, c.1 < 327680) ∧
    readNat (v.tile 0).store 8192 4 = 0xABCD ∧ (slotAt (v.tile 0) 1).mem = [(100, 9)] ∧ (slotAt (v.tile 0) 1).owner = some 0 ∧
    readX v.me 3 = 5 ∧ v.me.pc = 64 ∧ ((clear .frozen).readSaveArea 0).me = (clear .frozen).me := by decide +kernel

/-- A launch with a frozen strand ends after the security core has failed: the strand stays frozen. -/
theorem test_end_after_failure :
    let s (dead : Bool) : State := { launching id { run := .frozen } with trust := { dead := dead } }
    after? .launchEnd (s true) (fun t => t.me.run == .frozen) = true ∧ after? .launchEnd (s false) (fun t => t.me.run == .parked) = true := by decide +kernel

/-- R42: 2.5 to the nearest even integer, down, up, away and by two draws; a NaN, an infinity and what is out of range. -/
theorem test_float_to_int :
    let x : FVal := .fin true 5 (-1) false
    let g (mode r : Nat) : Int × Flags := floatToInt true 8 mode r x
    Exact x ∧ [g 0 0, g 1 0, g 2 0, g 3 0, g 4 0, g 5 (2 ^ 23 - 1), g 5 (2 ^ 23)] = [(-2, 16), (-2, 16), (-3, 16), (-2, 16), (-3, 16), (-3, 16), (-2, 16)] ∧
    floatToInt true 8 0 0 (.fin false 1 7 false) = (127, 1) ∧ floatToInt false 8 0 0 (.fin true 3 (-1) false) = (0, 1) := by
  refine ⟨rfl, ?_⟩; decide +kernel

/-- R44: 9/64 of the way from 1 to 1.125, a draw below it and one at it; and 456 of e4m3, a quarter of the way to 480. -/
theorem test_stochastic :
    let F := ffmt 13 false
    let d (m : Nat) (e : Int) (r : Nat) (S : Bool) := deliver F 5 S r (.fin false m e false)
    [d 521 (-9) (9 * 2 ^ 18 - 1) false, d 521 (-9) (9 * 2 ^ 18) false, d 57 3 (2 ^ 22 - 1) true, d 57 3 (2 ^ 22) true] =
      [(0x39, 16), (0x38, 16), (0x7E, 20), (0x7E, 16)] ∧ draw 0 0 0 = 0 := by decide +kernel

/-- Neighbours of e4m3 with a value between them, and a value between the greatest one and its overflow. -/
theorem test_hyp_stochastic :
    let F := ffmt 13 false
    let v (k : Nat) : ℚ := realOf (readFloat F k)
    let u (m : Nat) (e : Int) : ℚ := realOf (.fin false m e false)
    (0 ≤ v 0x38 ∧ v 0x38 ≤ |u 521 (-9)| ∧ |u 521 (-9)| < v 0x39) ∧ v F.maxFin < |u 57 3| ∧
    |u 57 3| < v F.maxFin + (v F.maxFin - v (F.maxFin - 1)) ∧ ∀ k, k < 2 ^ 8 → v k ≤ v 0x38 ∨ v 0x39 ≤ v k := by
  refine ⟨⟨by decide +kernel, by decide +kernel, by decide +kernel⟩, by decide +kernel, by decide +kernel, by decide +kernel⟩

/-- R51: in fp16 with base 0: 3 has exponent 1, 2^−24 is subnormal; an integer of 5 has logarithm 2. -/
theorem test_hist_bins :
    [histBin 11 false 0 0x4200, histBin 11 false 0 1, histBin 11 false 0 0x7C00, histBin 11 false 0 0x8000, histBin 11 false 0xFFF6 0x4200, histBin 4 false 0 5,
      histBin 11 false 100 0x4200] = [2, 62, 63, 0, 12, 3, 1] := by decide +kernel

/-- R123: the two zeros, the infinities, a negative value and 1. -/
theorem test_function_inputs :
    let zero (n : Bool) : FVal := .fin n 0 0 false
    (rcpVal (zero true) == (.inf true, flagDZ) && log2Val (zero false) == (.inf true, flagDZ) && exp2Val (.inf true) == zero false && sinVal (.inf false) == .nan &&
      tanhVal (.inf true) == .fin true 1 0 false && sigVal (zero true) == .fin false 1 (-1) false && log2Val (.fin true 1 0 false) == (.nan, 0) &&
      (log2Val (.fin false 1 0 false)).1.isZero && !(log2Val (.fin false 1 0 false)).1.isNeg) = true := by decide +kernel

/-- A line that came through a page of 1 GiB which the range meets, though the line itself does not; and one of another context. -/
theorem test_invalidated_lines :
    let l : L1Line := { tag := 0, line := 0x9000 / 128, home := .channel 0, pa := 0, data := 0, valid := 1, dirty := 1, writer := 0, page := 30 }
    let s := ((commanding 2 .running).setVf 0 { clusters := 1, cmdb := 0x10000, cmdc := 1 }).setTile 0 { (commanding 2 .running).tile 0 with l1 := [l, { l with tag := 8 }] }
    Canonical s ∧ Commanding s 2 ∧ (s.vf 0).clusters.getLsbD (clusterOf 0) = true ∧ PassedRemoved ⟨0, 0x10000, 1⟩ 0 (l.line * 128) l.page ∧
    ¬ PassedRemoved ⟨0, 0x10000, 1⟩ 8 (l.line * 128) l.page ∧
    after? .translationInvalidation s (fun t => (t.tile 0).l1.map (fun x => x.withdrawn) == [true, false]) = true := by decide +kernel

/-- A part of a port's element waits while a request of another strand that saw this one served is at the channel. -/
theorem test_engine_turn :
    let q : Port := { isOpen := true, base := .handle 1 page 0, n0 := 4, n1 := 1, stride0 := 256 }
    let h := handled base page
    let n : Msg := { sent (.channel 0) (.read 5 0 8 0 1) with src := 9, passed := [0] }
    let s (net : List Msg) : State := { h.setMe { h.me with ports := [(0, q)] } with net := net, arg := { tile := 0, slot := 0, op := 0 } }
    (s []).homeWaits 0 0 (.channel 0) = false ∧ (s [n]).homeWaits 0 0 (.channel 0) = true ∧ (s [n]).diverts 0 = false ∧
    after? .portRefillElement (s [n]) (fun t => t == s [n]) = true ∧ after? .portRefillElement (s []) (fun t => (readPort t.me 0).got.length == 128) = true := by decide +kernel

/-- The page of a walk lies within its VF's reach. -/
theorem test_hyp_walkReach :
    let u := mapped (missing 0x10000)
    u.reaches 0 (0 + 0x10008 % 2 ^ 30) = true ∧
    after? .walkComplete u (fun t => t.me.walk == none && (t.strand 1).walk == none && (t.tile 0).tlb.length == 1) = true := by decide +kernel

/-- An engine works past a held copy. -/
theorem test_copy_choice :
    let c := base.copyOf base.me { ext := .imm64 0 }
    let r : Strand := { copies := [{ c with num := 1, far := true, held := some 64 }, { c with num := 2, far := false }, { c with num := 3, far := true }] }
    (r.copyAt true).map (fun c => c.num) = some 3 ∧ (r.copyAt false).map (fun c => c.num) = some 2 := by decide +kernel

/-! The remaining hypotheses. -/

theorem test_hyp_encodings :
    Instr.WellFormed (.add { d := 5, a := 6, s := true, fmt := 4, imm10 := 0x3FD }) = true ∧ 16 ≤ (natToBytes 16 0xFF40200080061404).length ∧
    decode (natToBytes 16 0xFF40200080061404) = .ok (.add { d := 5, a := 6, s := true, fmt := 4, imm10 := 0x3FD }) := by decide +kernel

theorem test_hyp_exactArithmetic :
    Exact (.fin true 3 1 false) ∧ realOf (.fin true 3 1 false) < 0 ∧ Exact (.fin false 5 (-2) false) ∧ 0 < realOf (.fin false 5 (-2) false) ∧
    Exact (.fin true 0 0 false) ∧ realOf (.fin true 0 0 false) = 0 :=
  ⟨rfl, by decide +kernel, rfl, by decide +kernel, rfl, by decide +kernel⟩

/-- Values of e4m3 (greatest 448, 32 between its greatest two) and fp32 (whose greatest value has an odd mantissa): within the range, below
the normal ones, the tie above the greatest, and beyond; of both signs, in every mode. -/
theorem test_hyp_rounding :
    let F := ffmt 13 false
    let G := ffmt 10 false
    let most := realOf (readFloat F F.maxFin)
    let u (m : Nat) (e : Int) : ℚ := realOf (.fin false m e false)
    F ∈ floatFormats ∧ G ∈ floatFormats ∧ Exact (.fin false 15 5 false) ∧ Exact (readFloat F 0) ∧ Exact (readFloat F F.maxFin) ∧
    most = 448 ∧ most - realOf (readFloat F (F.maxFin - 1)) = 32 ∧ most + 32 ≤ |u 15 5| ∧ most < |u 29 4| ∧ most + 32 / 2 ≤ |u 29 4| ∧
    F.maxFin % 2 = 0 ∧ most + 32 / 2 < |u 59 3| ∧ |u 7 6| ≤ most ∧ |u 1 (-8)| < 2 ^ (1 - (F.bias : Int)) ∧
    G.maxFin % 2 = 1 ∧ realOf (readFloat G G.maxFin) + (realOf (readFloat G G.maxFin) - realOf (readFloat G (G.maxFin - 1))) / 2 = |u (2 ^ 25 - 1) 103| ∧
    0 < u 15 5 ∧ realOf (.fin true 15 5 false) < 0 := by
  refine ⟨by decide, by decide, rfl, rfl, rfl, ?_⟩
  (repeat' apply And.intro) <;> decide +kernel

/-- R33, R39 to R41: −19/16 in e4m3 is a tie of −1.125 and −1.25, −17/16 one of −1 and −1.125; 464 is one of 448 and 480. -/
theorem test_rounding :
    let d (mode m : Nat) (e : Int) := deliver (ffmt 13 false) mode false 0 (.fin true m e false)
    d 0 19 (-4) = (0xBA, 16) ∧ d 1 19 (-4) = (0xB9, 16) ∧ d 2 19 (-4) = (0xBA, 16) ∧ d 3 19 (-4) = (0xB9, 16) ∧
    d 0 17 (-4) = (0xB8, 16) ∧ d 4 17 (-4) = (0xB9, 16) ∧ d 0 29 4 = (0xFE, 16) := by decide +kernel

theorem test_hyp_registerFrame :
    CanonicalTiles base ∧ causeActive base.me.cause = false ∧ after? (.add (fld 4)) base (fun t => t.me.x == []) = true ∧ after? (.ctlRd { d := 5 }) base (fun _ => true) = true := by
  decide +kernel

theorem test_hyp_invariant :
    Inv State.reset ∧ Inv { State.reset with mem := writeBytes [] 8 [1, 0, 2], throttles := [⟨0, 480, 0, false⟩] } ∧
    (match step State.reset with
      | .next t => decide (Inv t)
      | _ => false) = true := by decide +kernel

/-! Witnesses of clauses on unaligned bases, walkers, parked strands and remote atomics. -/

/-- A hard throttle at the last cycle boundary within its 2 µs; and one that has time. -/
theorem test_hyp_hardThrottleDue :
    let s (n : Nat) : State := { throttled 600 [⟨0, 480, 0, true⟩] 0 with dt36 := n }
    let stays (s : State) : Bool := match step s with
      | .next t => t.cycle == s.cycle && t.mhz == 480
      | _ => false
    mapWf {} (s 71990).launches = true ∧ (s 71990).agenda = [] ∧ (s 71990).cursor = 0 ∧ 36 * (0 + 2000) < (s 71990).dt36 + 36000 / (s 71990).mhz ∧
    stays (s 71990) = true ∧ startDue (s 71990) = some (.throttleStep, {}) ∧ startDue (s 71900) = none := by decide +kernel

/-- Handle 1 with a base of 4 bytes below a page's end: an access of 8 bytes meets two pages. -/
def straddling : State :=
  let s := withX (handled base (entry 0x1FFFC 0x10000 0 false)) [(5, 0x1122334455667788)]
  s.setTile 0 { s.tile 0 with tlb := (s.tile 0).tlb ++ [{ tag := 0, page := 2, bits := 16, pa := 0x50000, rd := true, wr := true, log := false, d := false, leaf := 0 }] }

theorem test_hyp_straddling :
    let s := straddling
    let f := viaHandle 6
    let va := entryVa (s.entryOf 0 1) (handleOffset s f)
    CanonicalTiles s ∧ handleOf s f = some 1 ∧ handleOffset s f % 8 = 0 ∧ entryCached (s.entryOf 0 1) = false ∧ 65536 - va % 65536 < 8 ∧
    entrySpace (s.entryOf 0 1) = 0 ∧ va + 8 < 2 ^ 49 ∧ s.entryLost 0 1 = none ∧ MemReady (.ld f) s ∧ longRoom s.me false = true ∧
    s.translate 0 0 va true false = .page 0x2FFFC none ∧ s.translate 0 0 (va + 4) true false = .page 0x50000 none ∧
    entryTrap (s.vf 0) (s.entryOf 0 1) 0 8 .load = none ∧ s.translate 0 0 va false true = .page 0x2FFFC none ∧
    s.translate 0 0 (va + 4) false true = .page 0x50000 none ∧ MemReady (.st f) s ∧ entryTrap (s.vf 0) (s.entryOf 0 1) 0 8 .store = none := by decide +kernel

/-- One message that names both pages, for a store and for a load; none of `page`'s first bytes straddles. -/
theorem test_straddling :
    entryVa ((handled base page).entryOf 0 1) 0 % 65536 + 8 ≤ 65536 ∧
    (let onward : Option (Nat × Spot) := some (4, { home := .channel 0, addr := 0x50000, va := 0x20000 })
     after? (.st (viaHandle 6)) straddling (fun t => t.net.map (fun m => (m.addr, m.va, m.cut)) == [(0x2FFFC, 0x1FFFC, onward)] &&
       t.net.map (fun m => match m.body with | .write _ _ l => l | _ => []) == [[0x88, 0x77, 0x66, 0x55, 0x44, 0x33, 0x22, 0x11]] && t.me.posted.length == 1) = true ∧
     after? (.ld (viaHandle 6)) straddling (fun t => t.net.map (fun m => (m.addr, m.cut)) == [(0x2FFFC, onward)] && t.me.longs.map (fun o => o.waiting) == [1]) = true) := by
  decide +kernel

/-- A store across the end of an L1 line, through a base that is not aligned: four bytes in each line. -/
theorem test_straddled_line :
    let s := withX (handled base (entry 0x1007C 0x8000 0 true)) [(5, 0x1122334455667788)]
    CanonicalTiles s ∧ MemReady (.st (viaHandle 6)) s ∧
    after? (.st (viaHandle 6)) s (fun t => t.net == [] && (t.tile 0).l1.map (fun l => (l.line, l.dirty.toNat, l.pa)) ==
      [(512, 0xF * 2 ^ 124, 0x20000), (513, 0xF, 0x20080)]) = true := by decide +kernel

/-- Loads, stores and atomics under handle 1, none of which a check of the entry stops. -/
def handleForms : List (Fields → Instr) :=
  [.ld, .st, .atAdd, .atAnd, .atOr, .atXor, .atMin, .atMax, .atSwp, .atCas, .atFadd, .atCas2]

/-- Misses: nothing else walks; the cluster's cache has the page; another strand of the die walks it; walker 0 is busy with another page. -/
def missed : State := handled base (entry 0x20000 64 0 false)
def missedHeld : State :=
  missed.setCluster 0 { missed.cluster 0 with tlb := [{ tag := 0, page := 2, bits := 16, pa := 0, rd := true, wr := true, log := false, d := false, leaf := 0 }] }
def missedWith (va k : Nat) : State := missed.setStrand 9 { run := .running, walk := some { tag := 0, va := va, walker := some k, stamp := 2 } }

theorem test_hyp_walkers :
    let f := viaHandle 6
    ∀ u ∈ [missed, missedHeld, missedWith 0x20040 3, missedWith 0x90000 0], CanonicalTiles u ∧ u.me.walk = none ∧ handleOf u f = some 1 ∧
      handleOffset u f = 0 ∧ handleBase u f = 0 ∧ (∀ i ∈ handleForms, MemReady (i f) u) ∧ longRoom u.me false = true ∧ longRoom u.me true = true ∧
      entrySpace (u.entryOf 0 1) = 0 ∧ (∀ need ∈ [Need.load, .store, .atomic], ∀ z ∈ [8, 16], (entryTrap (u.vf 0) (u.entryOf 0 1) 0 z need).isNone = true) ∧
      u.translate 0 0 0x20000 true false = .miss ∧ u.translate 0 0 0x20000 false true = .miss ∧ u.translate 0 0 0x20000 true true = .miss := by
  decide +kernel

theorem test_walkers :
    let f := viaHandle 6
    let joining := missedWith 0x20040 3
    let busy := missedWith 0x90000 0
    (missed.tlbHit (missed.cluster 0).tlb 0 0x20000).isSome = false ∧ (missedHeld.tlbHit (missedHeld.cluster 0).tlb 0 0x20000).isSome = true ∧
    missed.walksOf 0 = [] ∧ joining.walksOf 0 = [{ tag := 0, va := 0x20040, walker := some 3, stamp := 2 }] ∧ joining.samePage 0 0x20040 0x20000 = true ∧
    busy.samePage 0 0x90000 0x20000 = false ∧
    allTrue [after? (.st f) missedHeld (fun t => t.me.walk.map (fun w => w.walker) == some none),
      after? (.atAdd f) joining (fun t => t.me.walk.map (fun w => (w.walker, w.stamp)) == some (some 3, 2)),
      after? (.ld f) busy (fun t => t.me.walk.map (fun w => w.walker) == some (some 1))] = true := by decide +kernel

/-- Faults under handle 1 of loads and of atomics: rights, spaces, translation. -/
theorem test_hyp_handleFaults :
    let f := viaHandle 6
    let g : Fields := { f with hi := false, c := 3, ext := .none }
    let s := handled base page
    let far := withX base [(3, 65536)]
    let unreadable := s.setTile 0 { s.tile 0 with tlb := [{ tag := 0, page := 1, bits := 16, pa := 0, rd := false, wr := false, log := false, d := false, leaf := 0 }] }
    (∀ u ∈ [s, unreadable, withX s [(1, 1)], withX s [(1, 0x10000)]], (∀ i ∈ handleForms, MemReady (i f) u) ∧ longRoom u.me false = true ∧ longRoom u.me true = true ∧
      handleOf u f = some 1) ∧
    (∀ i ∈ handleForms, MemReady (i g) far) ∧ 65536 ≤ (readX far.me 3).toNat ∧ handleBase far g % 16 = 0 ∧
    (handleBase (withX s [(1, 1)]) f % 8 ≠ 0 ∧ handleBase (withX s [(1, 1)]) f % 16 ≠ 0) ∧
    entryLen (s.entryOf 0 1) < handleBase (withX s [(1, 0x10000)]) f + 8 ∧ handleBase s f + 16 ≤ entryLen (s.entryOf 0 1) ∧
    entryRd (BitVec.ofNat 256 (0x10000 + 8 * 2 ^ 64 + 2 ^ 128 + 2 ^ 133)) = false ∧ entryRd (s.entryOf 0 1) = true ∧ entryWr (s.entryOf 0 1) = true ∧
    (∀ p ∈ [(true, false), (false, true), (true, true)], unreadable.translate 0 0 (entryVa (s.entryOf 0 1) 0) p.1 p.2 = .fault) := by decide +kernel

/-- Timeline 1 is still pending under the number 66, 64 numbers on; and 3 is. -/
theorem test_old_record :
    let s := withX (base.setMe { base.me with tlc := { last := 66, recs := [{ num := 1, state := 1 }, { num := 3, state := 1 }] } })
    (∀ c ∈ [Counter.tlc, .tlm, .tle, .tlg], Ready (.tlTest c (fld 0)) (s [(1, 1)])) ∧
    allTrue [gives (.tlTest .tlc (fld 0)) (s [(1, 1)]) 2, gives (.tlTest .tlc (fld 0)) (s [(1, 3)]) 1] = true := by decide +kernel

/-- A walk that is not its walker's first; and a miss in no queue, of a page that the cluster's cache held. -/
theorem test_hyp_walkQueue :
    let behind := (missing 0x10000).setMe { (missing 0x10000).me with walk := some { tag := 0, va := 0x10000, walker := some 0, stamp := 5 } }
    let behind := behind.setStrand 1 { behind.strand 1 with walk := some { tag := 0, va := 0x90000, walker := some 0, stamp := 2 } }
    let lost := (missing 0x10000).setMe { (missing 0x10000).me with walk := some { tag := 0, va := 0x10000 } }
    (∀ s ∈ [behind, lost], CanonicalTiles s ∧ s.tlbHit (s.cluster 0).tlb 0 0x10000 = none) ∧
    (∃ v ∈ behind.walksOf 0, v.walker = some 0 ∧ v.stamp < 5) ∧ after? .walkComplete behind (fun t => t == behind) = true ∧
    after? .walkComplete lost (fun t => t.me.walk.map (fun w => w.walker) == some (some 0)) = true := by decide +kernel

/-- A move of the levels of a heap with an uncorrectable word. -/
theorem test_bad_level :
    let s := waitingFor [(1, { state := .queued, level := 1 })]
    let u := (s.setCluster 0 { s.cluster 0 with bad := true }).setVf 0 { s.vf 0 with clusters := 1 }
    Canonical u ∧ (u.cluster u.arg.cluster).bad = true ∧ (s.cluster 0).bad = false ∧ (poor.cluster 0).bad = false ∧
    after? .heapLevelMove u (fun t => (t.vf 0).frozen && (t.cluster 0).tasks == (u.cluster 0).tasks) = true := by decide +kernel

/-- No heap of these states has an uncorrectable word. -/
theorem test_hyp_soundHeaps :
    (∀ c, c < 1 → ((ending (.stopped (some 0)) 1 false [⟨0, 0, 0⟩]).cluster c).bad = false) ∧ ((ending .running 0 false []).launch (launchKey 0 1)).clusterCount = 1 ∧
    ((queued [(1, { state := .queued, key := 5 })]).cluster 0).bad = false ∧ ∀ c, (base.cluster c).bad = false :=
  ⟨by decide +kernel, by decide +kernel, by decide +kernel, fun _ => rfl⟩

/-- A parked strand with an open level: it defers the save, and is marked at the limit. -/
theorem test_parked_level :
    let s (p : Preempt) : State := (commanding 5 p).setMe { base.me with run := .parked, depth := 1 }
    ¬ SaveInstant (s (.deferring 9)) 0 ∧ Canonical (s (.deferring 0)) ∧ (s (.deferring 0)).me.run ≠ .free ∧
    after? .preemptionDeferralExpiry (s (.deferring 0)) (fun t => t.me.broken && t.me.run == .parked) = true ∧
    (¬ ∀ p ∈ ((throttled 600 [⟨0, 360, 0, false⟩] 0).setMe { base.me with run := .parked, depth := 1 }).strands, p.2.run ≠ .free → p.2.depth = 0) ∧
    after? .throttleStep ((throttled 600 [⟨0, 480, 0, false⟩] 0).setMe { base.me with run := .parked, depth := 1 }) (fun t => t.mhz == 600) = true := by
  refine ⟨fun h => ?_, by decide +kernel, by decide +kernel, by decide +kernel, by decide +kernel, by decide +kernel⟩
  rcases h with ⟨_, h | ⟨d, _, h⟩⟩
  · revert h; decide +kernel
  · have := h 0 (by decide)
    revert this
    decide +kernel

/-- Far copies of a tile that is saved, and of one that runs, when the pool's link goes down. -/
theorem test_hyp_poolOfSaved :
    let c : CopyOp := { base.copyOf base.me { ext := .imm64 0 } with far := true, rows := 1, src := .handle 0 (entry 0x200000000000 1 1 false) 0 }
    let s (p : Preempt) : State := (base.setMe { base.me with copies := [c] }).setTile 0 { base.tile 0 with preempt := p }
    Canonical (s .saved) ∧ (s .saved).diverts (0 / 8) = true ∧ (s .running).diverts (0 / 8) = false ∧ c.poolPlace ≠ none ∧ c.row < c.rows ∧
    after? .poolLinkDown (s .saved) (fun t => t.me == (s .saved).me) = true := by decide +kernel

/-- A core that runs, and one that does not, at an access outside the window. -/
theorem test_window_of_stopped_core :
    let s (t : Trust) : State := trusting t { offset := 0x77 }
    Asking (s { stage := 5 }) ∧ (∀ t ∈ [({ stage := 3 } : Trust), { stage := 5, frozenCores := 1 }, { stage := 2, recovery := true }], ¬ Asking (s t) ∧
      after? .managementWindowViolation (s t) (fun u => u == s t) = true) := by decide +kernel

/-- A trap in a handler of a strand with a current task: it parks, and the task's end is reported. -/
theorem test_parks_with_task :
    let s := ((State.reset.withFetchWord 64 3).setMe { base.me with cause := causeOf 0 5, epc := 12, task := some 3 })
    causeActive s.me.cause = true ∧ s.me.task = some 3 ∧
    after? .illegalInstruction s (fun t => t.me.run == .parked && t.me.task == none && t.net.map (fun m => m.body) == [.taskEnd (launchKey 0 1) 3]) = true := by
  decide +kernel

/-- A core's claim of a fatal fault: nothing, where the tiles have not the words; the hardware's own retires the cluster. -/
theorem test_claimed_fatal :
    let s (asked : Bool) (n : Nat) : State := { worn with arg := { failing := .cluster n true, asked := asked } }
    Asking (s true 6) ∧ ¬ RetirementCase worn (.cluster 6 false) ∧ RetirementCase worn (.cluster 5 false) ∧ RetirementCase worn (.cluster 6 true) ∧
    after? .errorThreshold (s true 6) (fun t => t == s true 6) = true ∧ after? .errorThreshold (s true 5) (fun t => (t.cluster 5).retired) = true ∧
    after? .errorThreshold (s false 6) (fun t => (t.cluster 6).retired) = true := by
  refine ⟨by decide +kernel, fun h => ?_, .inr ⟨clusterTile 5 0, by decide +kernel, by decide +kernel⟩, .inl rfl, by decide +kernel, by decide +kernel, by decide +kernel⟩
  rcases h with h | h
  · cases h
  · revert h; decide +kernel

/-- The atomics. -/
def atomicForms : List (Fields → Instr) := [.atAdd, .atAnd, .atOr, .atXor, .atMin, .atMax, .atSwp, .atCas, .atFadd, .atCas2]

/-- Atomics of another tile's store: aligned, misaligned, and of a tile whose spill queue is full. -/
theorem test_hyp_remoteAtomics :
    let u := withX two [(1, 0x40102000)]
    let f := { fld 6 with b := 6, c := 8 }
    let full := u.setTile 1 { u.tile 1 with spill := List.replicate 2048 (Spilled.result 0 0), preempt := .saved }
    (∀ s ∈ [u, full], CanonicalTiles s ∧ longRoom s.me true = true ∧ (∀ i ∈ atomicForms, MemReady (i f) s) ∧
      (∀ z ∈ [8, 16], s.localTarget s.myTile (localBase s f) z = .ok (1, 8192) ∧ localBase s f % z = 0)) ∧
    u.spillFull 1 = false ∧ full.spillFull 1 = true ∧ localBase (withX u [(1, 0x40102001)]) f % 8 ≠ 0 ∧ localBase (withX u [(1, 0x40102008)]) f % 16 ≠ 0 := by
  decide +kernel

/-- Atomics through handle 1: of device memory, of another device, and of a line in the L1. -/
theorem test_hyp_handleAtomics :
    let f := { viaHandle 6 with b := 6, c := 8 }
    let far := (handled base (entry 0 64 2 false)).setVf 0 { fabric := 1, targets := mapPut 0 [] 0 0x300000001 }
    (∀ s ∈ [handled base page, lined, far], CanonicalTiles s ∧ longRoom s.me true = true ∧ (∀ i ∈ atomicForms, MemReady (i f) s) ∧ handleOf s f = some 1 ∧
      handleBase s f = 0 ∧ (∀ z ∈ [8, 16], entryVa (s.entryOf 0 1) 0 % 65536 + z ≤ 65536 ∧ entryTrap (s.vf 0) (s.entryOf 0 1) 0 z .atomic = none)) ∧
    (∀ s ∈ [handled base page, lined], entrySpace (s.entryOf 0 1) = 0 ∧ s.translate 0 0 0x10000 true true = .page 0x20000 none) ∧
    entryCached ((handled base page).entryOf 0 1) = false ∧ entryCached (lined.entryOf 0 1) = true ∧ 0 < (lined.tile 0).l1Lines ∧
    (∀ y ∈ (lined.tile 0).l1, SoundLine lined y) ∧ (∀ x ∈ (lined.tile 0).l1, x.tag = 0 ∧ x.line = 0x10000 / 128 ∧ x.dirty ≠ 0) ∧
    entrySpace (far.entryOf 0 1) = 2 ∧ entryCached (far.entryOf 0 1) = false ∧ far.linkId.toNat ≠ 3 := by decide +kernel

theorem test_remote_atomics :
    let f := { viaHandle 6 with b := 6, c := 8 }
    let s (u : State) : State := withX u [(6, 3), (8, 9), (9, 4)]
    allTrue [after? (.atMax f) (s (handled base page)) (fun t => t.net.map (fun m => (m.home, m.addr)) == [(.channel 0, 0x20000)] &&
        t.net.map (fun m => match m.body with | .atomic _ sub c b d => (sub, c, b, d) | _ => (0, 0, 0, 0)) == [(5, 6, 3, 9)]),
      after? (.atCas2 { f with d := 4 }) (s lined) (fun t => (t.tile 0).l1 == [] && t.net.map (fun m => m.addr) == [0x20000, 0x20000] &&
        t.net.map (fun m => match m.body with | .atomic _ sub _ b d => (sub, b, d) | .writeback _ _ m => (99, m.toNat, 0) | _ => (0, 0, 0)) ==
          [(99, 0xFF, 0), (9, 3, 9 + 4 * 2 ^ 64)])] = true := by decide +kernel

/-- R35: a lone active element that is a NaN with a payload and a sign becomes the default NaN with NV. -/
theorem test_lone_nan :
    let s := withV base [(1, packV 32 [0xFFC00001]), (5, splat 32 9)]
    let s := s.setMe (writeK s.me 1 1)
    let f := { fld 10 with k := 1 }
    let nan (i : Instr) : Bool := after? i s fun t => elemAt 32 (readV t.me 5) 0 == 0x7FC00000 && t.me.status == 1
    (readFloat (ffmt 10 false) 0xFFC00001).isNan = true ∧ elemActive 32 (laneMask s.me f) 0 = true ∧ elemActive 32 (laneMask s.me f) 1 = false ∧
    allTrue [nan (.vRedAdd f), nan (.vRedMin f), nan (.vScanAdd f), nan (.vScanMax f)] = true := by decide +kernel

/-- R40: a copy that neither rounds nor saturates takes RM and S only as 0. -/
theorem test_ill_formed_copies :
    allTrue [checks (.cp { rm := 1, ext := .imm64 0x014A00000000 }) == (true, false, true), checks (.cp { s := true, ext := .imm64 0x014A00000000 }) == (true, false, true),
      checks (.cp { ext := .imm64 0x014A00000000 }) == (true, true, true)] = true := by decide

/-- Two writebacks of one line by two strands of a tile: the older one first. -/
theorem test_writebacks_in_order :
    let old : Msg := { sent (.channel 0) (.writeback 7 5 1) with src := 9 }
    let new : Msg := { sent (.channel 0) (.writeback 8 6 1) with id := 4 }
    (old.src / 8 = new.src / 8 ∧ old.id < new.id ∧ old.addr = new.addr) ∧ after? .homeRequestService (contending new old) (fun t => t == contending new old) = true ∧
    after? .homeRequestService (contending old new) (fun t => t.net.map (fun m => m.id) == [4]) = true := by decide +kernel

/-- Strands with long timelines, failures to be reported and an open port; what a save notes of a strand, taken out of it; and what it is noted as. -/
def longTimeline : Timeline :=
  let record_ (n st : Nat) (rep : Bool) : TlRec := { num := n, state := st, addr := BitVec.ofNat 64 (9 * n), flags := 3, rep := rep }
  { last := 70, recs := [record_ 2 3 false, record_ 6 3 false] ++ (List.range 64).map fun i => record_ (7 + i) (if i = 9 then 3 else 2) (i == 3) }
def openPort (a : Nat) : Port := { isOpen := true, base := .store a, n0 := 4, n1 := 1, stride0 := -256, next := 2, fetch := 3 }
def noting : State :=
  let s := base.setMe { base.me with tlc := longTimeline, tle := { last := 1, recs := [{ num := 1, state := 2 }] }, ports := [(0, openPort 8192)] }
  s.setStrand 1 { tlm := longTimeline, broken := true, ports := [(1, openPort 64)] }
def unnoted (r : Strand) : Strand :=
  { r with tlc := {}, tlm := {}, tle := {}, broken := false, ports := r.ports.map fun p => (p.1, { isOpen := true, base := .store 0 }) }
def sameNotes (r t : Strand) : Bool :=
  r.tlc == t.tlc.clean && r.tlm == t.tlm.clean && r.tle == t.tle.clean && r.tlg == t.tlg.clean && r.broken == t.broken && r.ports == t.ports

/-- The notes give back the timelines, the broken mark, and the patterns and positions of the ports. -/
theorem test_notes :
    let rs := (strandsOf 0).map noting.strand
    let back := restoreNotes (rs.map unnoted) (noting.saveNotes 0)
    back.length = 8 ∧ allTrue ((back.zip rs).map fun p => sameNotes p.1 p.2) = true ∧ longTimeline.written = true ∧
    bitsOf (rs.flatMap Strand.note) < 8 * notesSize := by decide +kernel

/-- A strand with TLC and TLE as long as R181 and R183 let them be, TLM, whose operations do not fail, at its 64 records, and TLG, which no instruction
advances (R342): eight of them have room. -/
theorem test_full_notes :
    let t (n : Nat) : Timeline := { last := 200, recs := (List.range n).map (fun i => { num := 100 + i, state := 3 }) ++ (List.range 64).map fun i => { num := 137 + i, state := 2 } }
    let r : Strand := { tlc := t 16, tlm := t 0, tle := t 16 }
    (t 16).written = true ∧ 8 * bitsOf r.note + 2 ≤ 8 * notesSize := by decide +kernel

/-! Uncorrectable data that a rule's consumer meets (R358): one bad word, by its address / 8. -/

def marked (s : State) (w : Nat) : State := { s with badWords := [(w, 1)] }

/-- The look-up of a handle: of an entry in the handle cache, of one in memory, and with a bad word of the context's descriptor; for accesses, a copy's
source and a port's pattern. -/
theorem test_hyp_entries :
    let f := viaHandle 6
    let lost := marked base 2
    let far := { handled base (entry 0 64 2 false) with arg := {} }
    let g : Fields := { copyFields with ext := .imm64 0x0040014A00000001 }
    let x := withX base [(2, 4), (3, 12288)]
    let item : Nat := 8192 + 256 * 2 ^ 64 + 4 * 2 ^ 128 + 2 ^ 144 + 2 ^ 160 + 2 ^ 176
    let s := withStore (withX base [(1, 4096)]) 0 4096 32 item
    (∀ u ∈ [handled base page, handled base cachedPage, missed, missedHeld, lined, far, straddling], SoundEntry u 1) ∧ SoundEntry base 1 ∧
    lost.entryLost 0 1 = some (1, 16) ∧ (∀ i ∈ handleForms, MemReady (i f) lost) ∧ handleOf lost f = some 1 ∧ longRoom lost.me true = true ∧
    longRoom lost.me false = true ∧
    (MemReady (.cp g) (marked x 2) ∧ CanonicalTiles (marked x 2) ∧ (marked x 2).me.tlc.full = false ∧
      (marked x 2).unclaimed ((marked x 2).copyOf (marked x 2).me g).dst.slots = none ∧
      ((marked x 2).copyOf (marked x 2).me g).src.lost (marked x 2) 0 = some (1, 16) ∧ (x.copyOf x.me g).src.lost x 0 = none ∧ (x.copyOf x.me g).dst.lost x 0 = none) ∧
    (MemReady (.qOpen { d := 32, a := 1 }) (marked s 2) ∧ areaTrap (s.tile 0) 4096 32 0 = none ∧ (readNat (s.tile 0).store 4096 32).testBit 176 = true ∧
      readNat (s.tile 0).store 4096 32 / 2 ^ 160 % 2 ^ 16 = 1 ∧ (marked s 2).entryLost 0 1 = some (1, 16) ∧ SoundEntry s 1) := by decide +kernel

theorem test_entries :
    let froze (i : Instr) (s : State) : Bool := after? i s fun t => t.me.run == .frozen && t.net == []
    let s := withStore (withX base [(1, 4096)]) 0 4096 32 (8192 + 256 * 2 ^ 64 + 4 * 2 ^ 128 + 2 ^ 144 + 2 ^ 160 + 2 ^ 176)
    allTrue ((handleForms.map fun i => froze (i (viaHandle 6)) (marked base 2)) ++
      [froze (.cp { copyFields with ext := .imm64 0x0040014A00000001 }) (marked (withX base [(2, 4), (3, 12288)]) 2),
       froze (.qOpen { d := 32, a := 1 }) (marked s 2)]) = true := by decide +kernel

/-- A release with a comparison over a bad word, of the own store and at another tile. -/
theorem test_hyp_badCompare :
    let s := marked (withX base [(1, 8192)]) (localPa 0 8192 / 8)
    let f := releasing
    let b : Body := .writeCmp 7 [1, 2] [0, 0]
    let u := marked (sending (.tile 0) b) (localPa 0 8192 / 8)
    CanonicalTiles s ∧ MemReady (.stRelCmp f) s ∧ L1Clean s ∧ s.me.run.ended = false ∧ s.localTarget s.myTile (localAddr s f) 8 = .ok (s.myTile, 8192) ∧
    localAddr s f % 8 = 0 ∧ badIn s.badWords (localPa s.myTile 8192) 8 = some 1 ∧
    (Canonical u ∧ u.message u.arg.message = some (sent (.tile 0) b) ∧ u.mayServe (sent (.tile 0) b) = true ∧ u.diverts 0 = false ∧
      (u.tile 0).launch = (u.tile 1).launch ∧ (u.strand 8).run.ended = false ∧ badFrom u.badWords (localPa 0 8192) 2 = some (1, localPa 0 8192)) ∧
    after? (.stRelCmp f) s (fun t => t.me.run == .frozen) = true ∧ after? .homeRequestService u (fun t => (t.strand 8).run == .frozen) = true := by
  decide +kernel

/-- A message that goes on at another page after two bytes: a store and a load. -/
theorem test_hyp_cutService :
    let cut : Option (Nat × Spot) := some (2, { home := .channel 0, addr := 0x50000 })
    let s (b : Body) : State := { sending (.channel 0) b with net := [{ sent (.channel 0) b with cut := cut }], mem := writeBytes (writeBytes [] 8192 [1, 2, 3]) 0x50000 [4, 5] }
    let m (b : Body) : Msg := { sent (.channel 0) b with cut := cut }
    (∀ b ∈ [Body.read 5 0 4 0 1, .write 7 0 [6, 7, 8, 9]], Canonical (s b) ∧ (s b).message (s b).arg.message = some (m b) ∧ (s b).mayServe (m b) = true ∧
      (s b).refusal (m b) false = none ∧ (s b).arg.refused = false ∧ (m b).leaf = none ∧ (s b).badWords = []) ∧ (8192 + 2 ≤ 0x50000) ∧
    after? .homeRequestService (s (.read 5 0 4 0 1)) (fun t => (t.strand 8).longs.map (fun o => o.data.toNat) == [0x05040201]) = true ∧
    after? .homeRequestService (s (.write 7 0 [6, 7, 8, 9])) (fun t => readNat t.mem 8192 3 == 0x030706 && readNat t.mem 0x50000 2 == 0x0908) = true := by
  decide +kernel

/-- The race ring's other entries: a vector store, a comparison that writes and one that does not, atomics. -/
theorem test_hyp_raceEntries :
    let s (b : Body) : State := { racing with net := [sent (.tile 0) b] }
    (∀ b ∈ [Body.write 7 2 (List.replicate 256 9), .writeCmp 7 [1, 2] [0, 0], .writeCmp 7 [1, 2] [0, 9], .atomic 5 0 6 3 0, .atomic 5 9 6 3 0],
      Canonical (s b) ∧ (s b).message (s b).arg.message = some (sent (.tile 0) b) ∧ (s b).mayServe (sent (.tile 0) b) = true ∧ (s b).badWords = [] ∧
      (s b).diverts 0 = false ∧ ((s b).tile 0).race = true) ∧
    readBytes (racing.tile 0).store 8192 2 = [0, 0] ∧
    (let logs (b : Body) (kind z : Nat) : Bool := after? .homeRequestService (s b) fun t =>
       readNat (t.tile 0).store ((racing.tile 0).ringBase) 8 == 8192 + 2 ^ 44 + z * 2 ^ 57 + kind * 2 ^ 61
     allTrue [logs (.write 7 2 (List.replicate 256 9)) 2 8, logs (.writeCmp 7 [1, 2] [0, 0]) 4 1, logs (.writeCmp 7 [1, 2] [0, 9]) 5 1, logs (.atomic 5 0 6 3 0) 6 3,
       logs (.atomic 5 9 6 3 0) 6 4]) = true := by decide +kernel

/-- The walk of a copy's element, first in its walker's queue; and the ends of it: a leaf, a fault, a table outside the VF's reach, a bad entry. -/
def engineMiss : State :=
  let c := { base.copyOf base.me { ext := .imm64 0 } with walk := some { tag := 0, va := 0x10000, walker := some 0 } }
  { base.setMe { base.me with copies := [c] } with arg := { tile := 0, slot := 0, far := true } }

theorem test_hyp_engineWalks :
    let s := engineMiss
    let u := mapped s
    let v := u.setVf 0 { u.vf 0 with channels := 2 }
    (∀ x ∈ [s, u, v, marked u 0], CanonicalTiles x ∧ mapWf {} x.clusters = true ∧ x.arg.far = true ∧
      (x.strand (argStrand x)).engineWalks[x.arg.op]? = some { tag := 0, va := 0x10000, walker := some 0 } ∧
      ∀ w ∈ x.walksOf (dieOf x.arg.tile), w.walker = some 0 → 0 ≤ w.stamp) ∧
    [s, u, v, marked u 0].map (fun x => endOf (x.walk 0 0x10000)) = [1, 0, 2, 3] ∧
    endOf ((marked (mapped (missing 0x10000)) 0).walk 0 0x10000) = 3 ∧
    after? .walkComplete u (fun t => t.me.copies.map (fun c => c.walk) == [none] && (t.tile 0).tlb.map (fun e => e.bits) == [30]) = true ∧
    after? .walkComplete s (fun t => t.me.copies.map (fun c => c.walk.map fun w => w.failed) == [some true]) = true := by decide +kernel

/-- A copy of 64-bit elements whose source crosses into the next page, through a base that is not aligned; and one whose page no cache holds. -/
def crossing (s : State) : State :=
  let s := withX s [(1, 0), (2, 8), (3, 12288)]
  let c := { s.copyOf s.me { copyFields with ext := .imm64 0x0040000000000001 } with sf := 16, df := 16 }
  { s.setMe { s.me with copies := [c], tlc := { last := 1, recs := [{ num := 1, state := 1 }] } } with
    mem := writeBytes (writeBytes [] 0x2FFFC [1, 2, 3, 4]) 0x50000 [5, 6, 7, 8], arg := { tile := 0, slot := 0 } }

theorem test_hyp_copyCrossing :
    let s := crossing straddling
    let u := crossing missed
    let e := entry 0x1FFFC 0x10000 0 false
    (∀ x ∈ [s, u], CanonicalTiles x ∧ x.badWords = [] ∧ x.retired = 0 ∧ ∀ c ∈ x.me.copies, CopyRuns x c ∧ c.writing = false ∧ c.walk = none ∧ fmtWidth c.sf = 64) ∧
    (∀ c ∈ s.me.copies, c.src = .handle 1 e 0 ∧ entryVa e 0 = 0x1FFFC ∧ s.translate 0 c.tag 0x1FFFC true false = .page 0x2FFFC none ∧
      s.translate 0 c.tag 0x20000 true false = .page 0x50000 none ∧ s.olderTo 0 c.stamp (.channel 0) = false ∧ s.homeWaits 0 (c.tag / 8) (.channel 0) = false) ∧
    (∀ c ∈ u.me.copies, c.src = .handle 1 (entry 0x20000 64 0 false) 0 ∧ u.tlbHit (u.tile 0).tlb c.tag 0x20000 = none ∧
      u.tlbHit (u.cluster 0).tlb c.tag 0x20000 = none) ∧
    after? .copyElement s (fun t => t.me.copies.map (fun c => c.buf.map fun e => (e.bits, e.va)) == [[(0x0807060504030201, 0x1FFFC)]]) = true ∧
    after? .copyElement u (fun t => t.me.copies.map (fun c => c.walk.map fun w => w.va) == [some 0x20000]) = true := by decide +kernel

/-- A post and an event over an event queue with a bad index. -/
theorem test_hyp_eventLost :
    (marked base 0).lostAt 0 16 ≠ none ∧ base.lostAt 0 16 = none ∧ base.lostChannel 64 = false ∧ base.lostChannel 16 = false ∧ Ready (.sysCallPost (fld 0)) (marked base 0) ∧
    starts (.sysCallPost (fld 0)) (marked base 0) 1 = true := by decide +kernel

/-- The record of task 1 at 65,568, mapped: its parts are sound, and each meets a bad word of its own. -/
def badPart (s : State) (pos : Nat) : State := marked (priced s) ((65568 + pos) / 8)

theorem test_hyp_records :
    let l := tasked.launchOf 0
    let q : Nat × Task := (1, { state := .queued, key := 5 })
    let s := queued [q]
    (∀ p ∈ [(16, 8), (8, 24), (0, 8), (8, 8), (24, 8)], (priced s).recordLost l 1 p.1 p.2 = none ∧ (badPart s p.1).recordLost l 1 p.1 p.2 = some (1, 65568 + p.1)) ∧
    (∀ p ∈ [0, 8, 16, 24], Canonical (badPart s p)) ∧ makeId (l.fc (clusterTile 0 0)) 1 = 1 ∧
    ((s.cluster 0).level 0).length < 4096 ∧ (s.cluster 0).level 1 = [] ∧ (s.cluster 0).level 2 = [] ∧
    (∃ e, (priced s).walk l.tag ((priced s).recordVa l 1) = .leaf e ∧ e.log = false ∧
      (priced s).lostChannel (e.pa + (priced s).recordVa l 1 % 2 ^ e.bits) = false) := by
  refine ⟨by decide +kernel, by decide +kernel, by decide +kernel, by decide +kernel, by decide +kernel, by decide +kernel,
    ⟨0, 0, 30, 0, true, true, false, false, 512, false⟩, by decide +kernel⟩

/-- States whose record of task 1 has a bad word, in a hoist of VF 0's cluster: for a batch, for messages, and for dispatch. -/
def ownedBad (s : State) (pos : Nat) : State := let u := badPart s pos; u.setVf 0 { u.vf 0 with clusters := 1 }
def badBatch : State := ownedBad (withX ((queued [(1, { state := .queued, key := 5 })]).setMe { base.me with tbr := 100 }) [(1, 8192), (2, 3)]) 16
def badMessages : List (Instr × State × Body) :=
  let k := launchKey 0 1
  let gain : Body := .gain 5 k 1 0 7 0 0 0
  [(.gainUpdateArrival, ownedBad (hoisting [] gain) 0, gain), (.gainUpdateArrival, ownedBad (hoisting [(1, { state := .retired })] gain) 0, gain),
   (.depDecArrival, ownedBad (hoisting [] (.depDec 5 k 1)) 8, .depDec 5 k 1),
   (.stealRequestArrival, ownedBad (stealing (.stealRequest k 1) .queued) 16, .stealRequest k 1)]
def badDispatch : State := ownedBad (waitingFor [(1, { state := .queued, key := 5 })]) 8

theorem test_hyp_recordsLost :
    Ready (.tkBatch { d := 5, a := 1, b := 2 }) badBatch ∧ (badBatch.popBatch (badBatch.launchOf 0) 0 3 100).2.2 = some (1, 65584) ∧
    (∀ p ∈ badMessages, Canonical p.2.1 ∧ TaskServed p.2.1 (taskMsg p.2.2) 0) ∧
    (Canonical badDispatch ∧ 0 ∈ badDispatch.waiters 0 ∧ (badDispatch.cluster 0).level 0 ≠ []) := by
  refine ⟨by decide +kernel, by decide +kernel, by decide +kernel, by decide +kernel⟩

/-- Nothing moves, and the VF of the cluster is frozen. -/
theorem test_records_lost :
    let froze (i : Instr) (s : State) : Bool := after? i s fun t => (t.vf 0).frozen && (t.cluster 0).tasks == (s.cluster 0).tasks && readNat t.mem 65568 32 == readNat s.mem 65568 32
    allTrue ([froze (.tkBatch { d := 5, a := 1, b := 2 }) badBatch, froze .taskDispatch badDispatch] ++ badMessages.map fun p => froze p.1 p.2.1) = true := by
  decide +kernel

/-- What a push to an idle task leaves in KEY of its record. -/
theorem test_pushed_key :
    let s := { priced (hoisting [] (.push 5 (launchKey 0 1) 1 7)) with arg := { message := 3 } }
    after? .taskPushArrival s (fun t => readNat t.mem 65568 8 == 7 && (t.vf 0).frozen == false) = true := by decide +kernel

/-- A head launch whose image is bad, and one whose image is sound. -/
theorem test_hyp_headLost :
    let s := marked (queueing 0 0) (0x20000 / 8)
    headLost (queueing 0 0) 0 = none ∧ headLost (queueing 1 1) 0 = none ∧ headLost s 0 = some (1, 0x20000) ∧ Canonical s ∧ s.nextServed = some (0, 1) ∧
    after? .launchQueueService s (fun t => (t.vf 0).frozen && (t.vf 0).lqhead == 0) = true := by decide +kernel

/-- Save areas: sound; with a bad word in the descriptor, or in the area. -/
theorem test_hyp_saveLost :
    let a := marked (commanding 5 .saving) 5
    let b := marked (commanding 6 .saved) 100
    (commanding 5 .saving).saveLost 0 false = none ∧ (commanding 6 .saved).saveLost 0 true = none ∧ (commanding 5 .saving).lostChannel 0 = false ∧
    a.saveLost 0 false = some (1, 40) ∧ b.saveLost 0 true = some (1, 800) ∧ Commanding b 6 ∧ (b.vf 0).clusters.getLsbD (clusterOf 0) = true ∧ b.tileHeld 0 = true ∧
    (b.launchOf 0).vf = 0 ∧ after? .tileSave a (fun t => (t.vf 0).frozen) = true ∧
    after? .restore b (fun t => (t.vf 0).frozen && (t.tile 0).preempt == .saved) = true := by decide +kernel

/-- Ports that carry nothing: down, frozen, or after nine failures in either direction. -/
theorem test_hyp_carries :
    Carries {} ∧ ¬ Carries { down := true } ∧ ¬ Carries { frozen := true } ∧ ¬ Carries { failures := 9 } ∧ ¬ Carries { sendFails := 9 } ∧
    Carries { failures := 8, sendFails := 8 } := by decide

/-- The port that a message takes, by evaluation: the `i`-th after the first choice. -/
theorem takes_of {s : State} {v d q : Nat} (i : Nat)
    (h : let ports := (List.range 96).filter fun p => (s.vf v).fabric.getLsbD p
      i < ports.length ∧ ports[(d + i) % ports.length]? = some q ∧ Carries (s.link q) ∧
      ∀ j, j < i → ∀ p ∈ ports[(d + j) % ports.length]?, ¬ Carries (s.link p)) : TakesPort s v d q :=
  ⟨i, h.1, h.2.1, ⟨q, h.2.1, h.2.2.1⟩, fun j hj => fun ⟨p, hp, c⟩ => h.2.2.2 j hj p hp c⟩

/-- Two messages of strand 0 to device 3, neither in a port yet. -/
def outgoing (earlier : Bool) : State :=
  let m : Msg := { sent (.fabric 3) (.write 7 0 [1]) with src := 0 }
  { twoPorts with net := (if earlier then [{ m with id := 2 }] else []) ++ [m], arg := { message := 3 } }

/-- A message in its turn, and one behind an earlier one of its strand; one that waits while its pair's messages are still in another port. -/
theorem test_hyp_turns :
    let m : Msg := { sent (.fabric 3) (.write 7 0 [1]) with src := 0 }
    let later := (outgoing true).setLink 0 { out := [(0, 2)], sendSeq := 1 }
    TakesPort (outgoing false) 0 3 1 ∧ TakesPort (outgoing true) 0 3 1 ∧ TakesPort later 0 3 1 ∧
    (∀ s ∈ [outgoing false, outgoing true, later], s.message s.arg.message = some m ∧ Canonical s ∧ (s.launchOf (m.src / 8)).vf = 0 ∧
      ¬ ∃ p ∈ s.links, ∃ o ∈ p.2.out, o.2 = m.id) ∧
    after? .homeRequestService (outgoing false) (fun t => (t.link 1).out == [(0, 3)] && (t.link 1).sendSeq == 1) = true ∧
    after? .homeRequestService (outgoing true) (fun t => t == outgoing true) = true ∧ after? .homeRequestService later (fun t => t == later) = true := by
  exact ⟨takes_of 0 (by decide +kernel), takes_of 0 (by decide +kernel), takes_of 0 (by decide +kernel), by decide +kernel⟩

/-- Port 1 goes down with a message still to send, which goes to port 0; or is refused where the VF has no other. -/
theorem test_hyp_portDown :
    let s (owned : BitVec 96) : State :=
      { ((outgoing false).setVf 0 { fabric := owned }).setLink 1 { failures := 9, out := [(0, 3)], sendSeq := 1 } with arg := { port := 1 } }
    let gone (owned : BitVec 96) : State := (s owned).setLink 1 { failures := 9, down := true, sendSeq := 1 }
    TakesPort (gone 3) 0 3 0 ∧ (∀ q, ¬ TakesPort (gone 2) 0 3 q) ∧ (∀ q ∈ (gone 2).links, ∀ o ∈ q.2.out, o.2 ≠ 3) ∧
    (Canonical (s 3) ∧ Canonical (s 2) ∧ 9 ≤ ((s 3).link 1).failures ∧ ((s 3).link 1).out = [(0, 3)]) ∧
    after? .fabricPortDown (s 3) (fun t => (t.link 0).out == [(0, 3)] && (t.link 1).out == [] && (t.link 1).down) = true ∧
    after? .fabricPortDown (s 2) (fun t => t.net.map (fun m => m.home) == [.fabric 65536]) = true := by
  refine ⟨takes_of 1 (by decide +kernel), ?_, by decide +kernel⟩
  rintro q ⟨i, h, -, ⟨p, hp, c⟩, -⟩
  have ports : ((List.range 96).filter fun p => (((((outgoing false).setVf 0 { fabric := 2 }).setLink 1 { failures := 9, out := [(0, 3)], sendSeq := 1 }).setLink 1
      { failures := 9, down := true, sendSeq := 1 } |>.vf 0).fabric.getLsbD p)) = [1] := by decide +kernel
  have first : p = 1 := by
    have e := ports ▸ hp
    simpa [Nat.mod_one] using e.symm
  subst first
  revert c
  decide +kernel

/-- A request of another device at a port whose flit has failed nine times is not performed. -/
theorem test_hyp_outsideFailed :
    let s := (hostAccess 1024 2 0 (some [5, 6])).setLink 0 { failures := 9 }
    Canonical s ∧ ¬ Carries (s.link s.arg.port) ∧ after? .fabricRequestArrival s (fun t => t == s) = true := by decide +kernel

end Sys2Proof.Tests
end

section
/-! Proofs for file 05. Part 1: integers of a width, as residues modulo 2^w. -/

namespace Sys2Proof.Machine

theorem readInt_modEq (sg : Bool) (w v : Nat) : readInt sg w v ≡ v [ZMOD 2 ^ w] := by
  have low : ((v % 2 ^ w : Nat) : Int) ≡ v [ZMOD 2 ^ w] := by
    simpa using Int.mod_modEq (v : Int) (2 ^ w)
  unfold readInt
  dsimp only
  split
  · simpa using (Int.modEq_sub_modulus_iff (n := (2 : Int) ^ w)).2 low
  · exact low

/-- The two halves of a width. -/
theorem two_pow_halves {w : Nat} (hw : 0 < w) : 2 ^ w = 2 * 2 ^ (w - 1) := by
  rw [← Nat.pow_succ', Nat.succ_eq_add_one, Nat.sub_add_cancel hw]

/-- A value that a format reads is in the range of the format. -/
theorem readInt_range {w : Nat} (hw : 0 < w) (sg : Bool) (v : Nat) :
    intMin sg w ≤ readInt sg w v ∧ readInt sg w v ≤ intMax sg w := by
  have hv := Nat.mod_lt v (Nat.two_pow_pos w)
  have h2 := two_pow_halves hw
  simp only [readInt, intMin, intMax]
  generalize v % 2 ^ w = u at *
  generalize 2 ^ w = q, 2 ^ (w - 1) = p at *
  cases sg
  · simp only [Bool.false_and, Bool.false_eq_true, if_false]
    omega
  · simp only [Bool.true_and, decide_eq_true_eq, if_true]
    split <;> omega

/-- The range of a format holds no two integers of one residue. -/
theorem eq_of_modEq_of_range {sg : Bool} {w : Nat} (hw : 0 < w) {a b : Int} (h : a ≡ b [ZMOD 2 ^ w])
    (ha : intMin sg w ≤ a ∧ a ≤ intMax sg w) (hb : intMin sg w ≤ b ∧ b ≤ intMax sg w) : a = b := by
  have hd : ((2 ^ w : Nat) : Int) ∣ b - a := by exact_mod_cast h.dvd
  have h2 := two_pow_halves hw
  have span : |b - a| < ((2 ^ w : Nat) : Int) := by
    simp only [intMin, intMax] at ha hb
    rw [abs_lt]
    generalize 2 ^ w = q, 2 ^ (w - 1) = p at *
    cases sg <;> simp only [Bool.false_eq_true, if_false, if_true] at ha hb <;> omega
  exact (sub_eq_zero.1 (Int.eq_zero_of_abs_lt_dvd hd span)).symm

theorem wrapInt_modEq (w : Nat) (e : Int) : (wrapInt w e : Int) ≡ e [ZMOD 2 ^ w] := by
  unfold wrapInt
  rw [Int.toNat_of_nonneg (Int.emod_nonneg _ (by positivity))]
  exact_mod_cast Int.mod_modEq e (2 ^ w)

/-- Integers of one residue are read alike. -/
theorem readInt_congr {sg : Bool} {w u v : Nat} (h : (u : Int) ≡ v [ZMOD 2 ^ w]) : readInt sg w u = readInt sg w v := by
  have : u % 2 ^ w = v % 2 ^ w := by exact_mod_cast h
  simp [readInt, this]

/-- An integer in the range of a format is read back from its low bits. -/
theorem readInt_wrapInt {sg : Bool} {w : Nat} (hw : 0 < w) {e : Int} (h : intMin sg w ≤ e ∧ e ≤ intMax sg w) :
    readInt sg w (wrapInt w e) = e :=
  eq_of_modEq_of_range hw ((readInt_modEq ..).trans (wrapInt_modEq ..)) (readInt_range hw ..) h

theorem wrapInt_eq_of_modEq {w v : Nat} {e : Int} (h : e ≡ v [ZMOD 2 ^ w]) : wrapInt w e = v % 2 ^ w := by
  have : e % ((2 ^ w : Nat) : Int) = ((v % 2 ^ w : Nat) : Int) := by push_cast; exact h
  rw [wrapInt, this, Int.toNat_natCast]

/-- The low bits of a value that a format reads are those it was read from. -/
theorem pattern_readInt (sg : Bool) (w v : Nat) : pattern w (readInt sg w v) = v % 2 ^ w :=
  wrapInt_eq_of_modEq (readInt_modEq sg w v)

theorem satInt_eq (sg : Bool) (w : Nat) (hw : 0 < w) (e : Int) : satInt sg w e = max (intMin sg w) (min (intMax sg w) e) := by
  have h := readInt_range hw sg 0
  unfold satInt
  split_ifs <;> omega

theorem readInt_true_toNat {w : Nat} (v : BitVec w) : readInt true w v.toNat = v.toInt := by
  rw [BitVec.toInt_eq_toNat_cond]
  simp only [readInt, Nat.mod_eq_of_lt v.isLt, Bool.true_and, decide_eq_true_eq]
  split <;> split <;> omega

theorem readInt_false_toNat {w : Nat} (v : BitVec w) : readInt false w v.toNat = v.toNat := by
  simp [readInt, Nat.mod_eq_of_lt v.isLt]

/-- Reading the low bits of a number. -/
theorem readInt_ofNat (sg : Bool) (w v : Nat) : readInt sg w v = readInt sg w (BitVec.ofNat w v).toNat := by
  simp [readInt]

theorem extend64_true (w v : Nat) : extend64 true w v = (BitVec.ofNat w v).signExtend 64 := by
  rw [extend64, readInt_ofNat, readInt_true_toNat, BitVec.signExtend]

theorem extend64_false (w v : Nat) : extend64 false w v = (BitVec.ofNat w v).setWidth 64 := by
  rw [extend64, readInt_ofNat, readInt_false_toNat, BitVec.ofInt_natCast, BitVec.ofNat_toNat]

/-- R99: the bits of an extended value. -/
theorem extend64_getLsbD (sg : Bool) {w j : Nat} (v : Nat) (hj : j < 64) :
    (extend64 sg w v).getLsbD j = if j < w then v.testBit j else sg && decide (0 < w) && v.testBit (w - 1) := by
  cases sg
  · rw [extend64_false, BitVec.getLsbD_setWidth, BitVec.getLsbD_ofNat]
    simp [hj]
  · rw [extend64_true, BitVec.getLsbD_signExtend, BitVec.msb_eq_getLsbD_last, BitVec.getLsbD_ofNat, BitVec.getLsbD_ofNat]
    by_cases h : j < w <;> simp [h, hj]

end Sys2Proof.Machine
end

section
/-! Part 2: the formats of the scalar integer instructions (R99), and what `deliverInt` delivers in them. -/

namespace Sys2Proof.Machine

open Sys2Proof.Claims

variable {f : Fields}

theorem fmtWidth_scalar (hf : ScalarIntFmt f) : fmtWidth f.fmt.toNat = opWidth f.fmt := by
  rcases hf with h | h | h | h <;> rw [h] <;> decide

/-- The operating widths. -/
theorem opWidth_cases (fmt : BitVec 5) : opWidth fmt = 32 ∨ opWidth fmt = 64 := by
  unfold opWidth
  split <;> simp

theorem opWidth_pos (fmt : BitVec 5) : 0 < opWidth fmt := by
  have := opWidth_cases fmt
  omega

/-- An operating width divides the register: residues modulo 2^64 have one low part. -/
theorem two_pow_opWidth_dvd (fmt : BitVec 5) : (2 : Int) ^ opWidth fmt ∣ 2 ^ 64 := by
  rcases opWidth_cases fmt with h | h
  · rw [h]
    decide
  · rw [h]

/-- `fitted` is the model's extension of the low bits. -/
theorem extend64_toNat (hf : ScalarIntFmt f) (v : Word) :
    extend64 (fmtSigned f.fmt.toNat) (opWidth f.fmt) v.toNat = fitted f.fmt v := by
  have low : BitVec.ofNat 32 v.toNat = v.setWidth 32 := BitVec.ofNat_toNat 32 v
  have whole : BitVec.ofNat 64 v.toNat = v := by simp
  rcases hf with h | h | h | h <;> rw [h]
  · exact (extend64_true 32 _).trans (by rw [low]; rfl)
  · exact (extend64_false 32 _).trans (by rw [low]; rfl)
  · exact (extend64_true 64 _).trans (by rw [whole, BitVec.signExtend_eq]; rfl)
  · exact (extend64_false 64 _).trans (by rw [whole, BitVec.setWidth_eq]; rfl)

/-- `valueIn` is the model's reading of the low bits. -/
theorem readInt_toNat (hf : ScalarIntFmt f) (v : Word) :
    readInt (fmtSigned f.fmt.toNat) (opWidth f.fmt) v.toNat = valueIn f.fmt v := by
  have low (sg : Bool) : readInt sg 32 v.toNat = readInt sg 32 (v.setWidth 32).toNat := by
    rw [readInt_ofNat, BitVec.ofNat_toNat]
  rcases hf with h | h | h | h <;> rw [h]
  · exact (low true).trans ((readInt_true_toNat _).trans (BitVec.toInt_signExtend_of_le (by decide)).symm)
  · refine (low false).trans ((readInt_false_toNat _).trans ?_)
    exact congrArg Nat.cast (BitVec.toNat_setWidth_of_le (by decide)).symm
  · exact readInt_true_toNat v
  · exact readInt_false_toNat v

theorem readFmtInt_toNat (hf : ScalarIntFmt f) (v : Word) : readFmtInt f.fmt.toNat v.toNat = valueIn f.fmt v := by
  have h15 : f.fmt.toNat ≠ 15 := by rcases hf with h | h | h | h <;> rw [h] <;> decide
  rw [readFmtInt, if_neg h15, fmtWidth_scalar hf, readInt_toNat hf]

theorem least_eq (hf : ScalarIntFmt f) : least f.fmt = intMin (fmtSigned f.fmt.toNat) (opWidth f.fmt) := by
  rcases hf with h | h | h | h <;> rw [h] <;> decide

theorem greatest_eq (hf : ScalarIntFmt f) : greatest f.fmt = intMax (fmtSigned f.fmt.toNat) (opWidth f.fmt) := by
  rcases hf with h | h | h | h <;> rw [h] <;> decide

theorem valueIn_range (hf : ScalarIntFmt f) (v : Word) : least f.fmt ≤ valueIn f.fmt v ∧ valueIn f.fmt v ≤ greatest f.fmt := by
  rw [least_eq hf, greatest_eq hf, ← readInt_toNat hf]
  exact readInt_range (opWidth_pos _) ..

/-- R31: zero lies in every format. -/
theorem least_le_zero_le_greatest (hf : ScalarIntFmt f) : least f.fmt ≤ 0 ∧ 0 ≤ greatest f.fmt := by
  rcases hf with h | h | h | h <;> rw [h] <;> decide

/-! Residues modulo the operating width. -/

theorem valueIn_modEq (hf : ScalarIntFmt f) (v : Word) : valueIn f.fmt v ≡ v.toNat [ZMOD 2 ^ opWidth f.fmt] := by
  rw [← readInt_toNat hf]
  exact readInt_modEq ..

/-- A word's number is that of its operation's exact result, up to multiples of 2^64. -/
theorem toNat_ofInt_modEq (fmt : BitVec 5) (e : Int) : ((BitVec.ofInt 64 e).toNat : Int) ≡ e [ZMOD 2 ^ opWidth fmt] := by
  rw [BitVec.toNat_ofInt]
  exact (wrapInt_modEq 64 e).of_dvd (two_pow_opWidth_dvd fmt)

/-- An exact result with the residue of a word's exact integer. -/
theorem modEq_toNat {fmt : BitVec 5} {e e' : Int} {v : Word} (h : e ≡ e' [ZMOD 2 ^ opWidth fmt]) (hv : BitVec.ofInt 64 e' = v) :
    e ≡ v.toNat [ZMOD 2 ^ opWidth fmt] := by
  rw [← hv]
  exact h.trans (toNat_ofInt_modEq fmt e').symm

/-! What is delivered of an exact result (R32, R99). -/

/-- R32, R99: the `w`-bit result of an exact integer, in the register. -/
def delivered (f : Fields) (sat : Bool) (e : Int) : Word :=
  extend64 (fmtSigned f.fmt.toNat) (fmtWidth f.fmt.toNat) (deliverInt f.fmt.toNat sat e)

/-- Without saturation, the low bits of any word of the result's residue, extended. -/
theorem delivered_wrapped (hf : ScalarIntFmt f) {e : Int} {v : Word} (h : e ≡ v.toNat [ZMOD 2 ^ opWidth f.fmt]) :
    delivered f false e = fitted f.fmt v := by
  rw [delivered, deliverInt, fmtWidth_scalar hf, if_neg Bool.false_ne_true, ← extend64_toNat hf, extend64, extend64]
  exact congrArg _ (readInt_congr ((wrapInt_modEq ..).trans h))

/-- With saturation, the nearest value of the format. -/
theorem delivered_saturated (hf : ScalarIntFmt f) (e : Int) : delivered f true e = saturated f.fmt e := by
  have h0 := least_le_zero_le_greatest hf
  have near := satInt_eq (fmtSigned f.fmt.toNat) (opWidth f.fmt) (opWidth_pos _) e
  rw [← least_eq hf, ← greatest_eq hf] at near
  rw [delivered, deliverInt, fmtWidth_scalar hf, if_pos rfl, extend64, readInt_wrapInt (opWidth_pos _), near, saturated]
  rw [near, ← least_eq hf, ← greatest_eq hf]
  omega

theorem saturated_of_range {fmt : BitVec 5} {e : Int} (h : least fmt ≤ e ∧ e ≤ greatest fmt) : saturated fmt e = BitVec.ofInt 64 e := by
  rw [saturated, min_eq_right h.2, max_eq_right h.1]

/-- A result in the range of the format is delivered as it is, with saturation and without. -/
theorem delivered_of_range (hf : ScalarIntFmt f) (sat : Bool) {e : Int} (h : least f.fmt ≤ e ∧ e ≤ greatest f.fmt) :
    delivered f sat e = BitVec.ofInt 64 e := by
  cases sat
  · rw [least_eq hf, greatest_eq hf] at h
    rw [delivered, deliverInt, fmtWidth_scalar hf, if_neg Bool.false_ne_true, extend64, readInt_wrapInt (opWidth_pos _) h]
  · rw [delivered_saturated hf, saturated_of_range h]

end Sys2Proof.Machine
end

section
/-! Part 3: integer arithmetic and logic (R102). -/

namespace Sys2Proof.Machine

open Sys2Proof.Claims

variable {f : Fields} {s : State} {i : Instr} {e : Int → Int → Nat → Nat → Int}

/-- A short-class instruction that writes x[D]. -/
theorem writesX_of_shortOp {g : Strand → Strand} {v : Word} (hr : Ready i s) (hi : exec i s = shortOp i f s g)
    (hg : g s.me = writeX s.me f.d.toNat v) : WritesX i f s v := by
  rw [WritesX, hi, shortOp_of_ready g hr, hg]

/-- The exact result of a width operation on the operands at hand. -/
def exactOf (e : Int → Int → Nat → Nat → Int) (f : Fields) (r : Strand) : Int :=
  e (valueIn f.fmt (readX r f.a.toNat)) (valueIn f.fmt (operandB r f)) ((operandB r f).toNat % 64 % opWidth f.fmt) (opWidth f.fmt)

/-- A width operation delivers its exact result to x[D]. -/
theorem writesX_of_intOp (hf : ScalarIntFmt f) (hr : Ready i s) (hi : exec i s = intOp i f s e) :
    WritesX i f s (delivered f f.s (exactOf e f s.me)) := by
  refine writesX_of_shortOp hr hi ?_
  simp only [delivered, exactOf, readFmtInt_toNat hf, fmtWidth_scalar hf]

/-- With S = 0, the low bits of a word of the exact result's residue. -/
theorem intOp_wraps (hf : ScalarIntFmt f) (hs : f.s = false) (hr : Ready i s) (hi : exec i s = intOp i f s e) {v : Word}
    (h : exactOf e f s.me ≡ v.toNat [ZMOD 2 ^ opWidth f.fmt]) : WritesX i f s (fitted f.fmt v) := by
  rw [← delivered_wrapped hf h, ← hs]
  exact writesX_of_intOp hf hr hi

/-- With S = 1, the nearest value of the format. -/
theorem intOp_saturates (hf : ScalarIntFmt f) (hs : f.s = true) (hr : Ready i s) (hi : exec i s = intOp i f s e) :
    WritesX i f s (saturated f.fmt (exactOf e f s.me)) := by
  rw [← delivered_saturated hf, ← hs]
  exact writesX_of_intOp hf hr hi

/-! Residues of the exact results. -/

/-- The low bits of a value of the format, as logic and rotation read them. -/
theorem pattern_valueIn (hf : ScalarIntFmt f) (v : Word) : pattern (opWidth f.fmt) (valueIn f.fmt v) = v.toNat % 2 ^ opWidth f.fmt := by
  rw [← readInt_toNat hf]
  exact pattern_readInt ..

/-- A number with the low bits of a word. -/
theorem modEq_of_mod_eq {fmt : BitVec 5} {n : Nat} {v : Word} (h : n = v.toNat % 2 ^ opWidth fmt) :
    (n : Int) ≡ v.toNat [ZMOD 2 ^ opWidth fmt] := by
  subst h
  exact_mod_cast Int.mod_modEq (v.toNat : Int) ((2 ^ opWidth fmt : Nat) : Int)

theorem not_mod (fmt : BitVec 5) (v : Word) :
    2 ^ opWidth fmt - 1 - v.toNat % 2 ^ opWidth fmt = (~~~v).toNat % 2 ^ opWidth fmt := by
  rw [BitVec.toNat_not]
  have := v.isLt
  rcases opWidth_cases fmt with h | h <;> rw [h] <;> omega

theorem ofInt_toNat (v : Word) : BitVec.ofInt 64 (v.toNat : Int) = v := by
  rw [BitVec.ofInt_natCast, BitVec.ofNat_toNat, BitVec.setWidth_eq]

/-- R102: a w-bit pattern rotated left is `rotl` of it. -/
theorem toNat_rotateLeft_eq_rotl {w : Nat} (v : BitVec w) {n : Nat} (h : n < w) : (v.rotateLeft n).toNat = rotl w v.toNat n := by
  have split : 2 ^ w = 2 ^ (w - n) * 2 ^ n := by rw [← pow_add, Nat.sub_add_cancel h.le]
  have high : v.toNat / 2 ^ (w - n) < 2 ^ n := Nat.div_lt_of_lt_mul (split ▸ v.isLt)
  have low : v.toNat * 2 ^ n % 2 ^ w = 2 ^ n * (v.toNat % 2 ^ (w - n)) := by rw [split, Nat.mul_mod_mul_right, Nat.mul_comm]
  have fits : 2 ^ n * (v.toNat % 2 ^ (w - n)) + v.toNat / 2 ^ (w - n) < 2 ^ w := calc
    _ < 2 ^ n * (v.toNat % 2 ^ (w - n)) + 2 ^ n := Nat.add_lt_add_left high _
    _ = 2 ^ n * (v.toNat % 2 ^ (w - n) + 1) := (Nat.mul_succ ..).symm
    _ ≤ 2 ^ n * 2 ^ (w - n) := Nat.mul_le_mul_left _ (Nat.mod_lt _ (Nat.two_pow_pos _))
    _ = 2 ^ w := by rw [split, Nat.mul_comm]
  rw [BitVec.toNat_rotateLeft, Nat.mod_eq_of_lt h, Nat.shiftLeft_eq, Nat.shiftRight_eq_div_pow, rotl, ← Nat.mod_add_mod, low,
    Nat.mod_eq_of_lt fits, Nat.two_pow_add_eq_or_of_lt high]

/-- A shift right moves a value toward 0 or −1, so it stays in the format. -/
theorem shifted_range (hf : ScalarIntFmt f) (v : Word) (n : Nat) :
    least f.fmt ≤ valueIn f.fmt v / ((2 ^ n : Nat) : Int) ∧ valueIn f.fmt v / ((2 ^ n : Nat) : Int) ≤ greatest f.fmt := by
  obtain ⟨hl, hg⟩ := valueIn_range hf v
  obtain ⟨hl0, hg0⟩ := least_le_zero_le_greatest hf
  have hp : (0 : Int) < ((2 ^ n : Nat) : Int) := by positivity
  constructor
  · rw [Int.le_ediv_iff_mul_le hp]
    nlinarith
  · rcases le_total 0 (valueIn f.fmt v) with h | h
    · exact (Int.ediv_le_self _ h).trans hg
    · exact (Int.ediv_nonpos_of_nonpos_of_neg h hp).trans hg0

/-- A shift right is exact in the format. -/
theorem shr_writes (hf : ScalarIntFmt f) (hr : Ready (.shr f) s) : WritesX (.shr f) f s (BitVec.ofInt 64
    (valueIn f.fmt (readX s.me f.a.toNat) / ((2 ^ ((operandB s.me f).toNat % 64 % opWidth f.fmt) : Nat) : Int))) := by
  have h := writesX_of_intOp hf hr (exec_shr f s)
  rwa [exactOf, delivered_of_range hf f.s (shifted_range hf _ _)] at h

theorem shr_signed (hf : ScalarIntFmt f) (hg : f.fmt = 4 ∨ f.fmt = 6) (hr : Ready (.shr f) s) : WritesX (.shr f) f s
    ((fitted f.fmt (readX s.me f.a.toNat)).sshiftRight ((operandB s.me f).toNat % 64 % opWidth f.fmt)) := by
  have h := shr_writes hf hr
  rwa [valueIn, if_pos hg, ← Int.shiftRight_eq_div_pow, ← BitVec.toInt_sshiftRight, BitVec.ofInt_toInt] at h

theorem shr_unsigned (hf : ScalarIntFmt f) (hg : ¬ (f.fmt = 4 ∨ f.fmt = 6)) (hr : Ready (.shr f) s) : WritesX (.shr f) f s
    (fitted f.fmt (readX s.me f.a.toNat) >>> ((operandB s.me f).toNat % 64 % opWidth f.fmt)) := by
  have h := shr_writes hf hr
  rw [valueIn, if_neg hg, ← Int.natCast_ediv, BitVec.ofInt_natCast, ← Nat.shiftRight_eq_div_pow, ← BitVec.toNat_ushiftRight,
    BitVec.ofNat_toNat, BitVec.setWidth_eq] at h
  exact h

/-! The instructions without saturation. -/

section Wrapping

variable (hf : ScalarIntFmt f) (hs : f.s = false)
include hf hs

theorem add_wraps (hr : Ready (.add f) s) : WritesX (.add f) f s (fitted f.fmt (readX s.me f.a.toNat + operandB s.me f)) :=
  intOp_wraps hf hs hr (exec_add f s)
    (modEq_toNat ((valueIn_modEq hf _).add (valueIn_modEq hf _)) (by rw [BitVec.ofInt_add, ofInt_toNat, ofInt_toNat]))

theorem sub_wraps (hr : Ready (.sub f) s) : WritesX (.sub f) f s (fitted f.fmt (readX s.me f.a.toNat - operandB s.me f)) :=
  intOp_wraps hf hs hr (exec_sub f s)
    (modEq_toNat ((valueIn_modEq hf _).sub (valueIn_modEq hf _))
      (by rw [sub_eq_add_neg, BitVec.ofInt_add, BitVec.ofInt_neg, ofInt_toNat, ofInt_toNat, sub_eq_add_neg]))

theorem mul_wraps (hr : Ready (.mul f) s) : WritesX (.mul f) f s (fitted f.fmt (readX s.me f.a.toNat * operandB s.me f)) :=
  intOp_wraps hf hs hr (exec_mul f s)
    (modEq_toNat ((valueIn_modEq hf _).mul (valueIn_modEq hf _)) (by rw [BitVec.ofInt_mul, ofInt_toNat, ofInt_toNat]))

theorem mulh_wraps (hr : Ready (.mulh f) s) : WritesX (.mulh f) f s (fitted f.fmt (BitVec.ofInt 64
    (valueIn f.fmt (readX s.me f.a.toNat) * valueIn f.fmt (operandB s.me f) / 2 ^ opWidth f.fmt))) :=
  intOp_wraps hf hs hr (exec_mulh f s) (modEq_toNat (Int.ModEq.refl _) (by rw [exactOf, Nat.cast_pow, Nat.cast_ofNat]))

theorem min_wraps (hr : Ready (.min f) s) : WritesX (.min f) f s
    (if valueIn f.fmt (readX s.me f.a.toNat) < valueIn f.fmt (operandB s.me f) then fitted f.fmt (readX s.me f.a.toNat)
      else fitted f.fmt (operandB s.me f)) := by
  rw [← apply_ite (fitted f.fmt)]
  refine intOp_wraps hf hs hr (exec_min f s) ?_
  rw [exactOf]
  split <;> exact valueIn_modEq hf _

theorem max_wraps (hr : Ready (.max f) s) : WritesX (.max f) f s
    (if valueIn f.fmt (readX s.me f.a.toNat) < valueIn f.fmt (operandB s.me f) then fitted f.fmt (operandB s.me f)
      else fitted f.fmt (readX s.me f.a.toNat)) := by
  rw [← apply_ite (fitted f.fmt)]
  refine intOp_wraps hf hs hr (exec_max f s) ?_
  rw [exactOf]
  split <;> exact valueIn_modEq hf _

theorem and_wraps (hr : Ready (.and f) s) : WritesX (.and f) f s (fitted f.fmt (readX s.me f.a.toNat &&& operandB s.me f)) := by
  refine intOp_wraps hf hs hr (exec_and f s) (modEq_of_mod_eq ?_)
  rw [pattern_valueIn hf, pattern_valueIn hf, BitVec.toNat_and, Nat.and_mod_two_pow]

theorem or_wraps (hr : Ready (.or f) s) : WritesX (.or f) f s (fitted f.fmt (readX s.me f.a.toNat ||| operandB s.me f)) := by
  refine intOp_wraps hf hs hr (exec_or f s) (modEq_of_mod_eq ?_)
  rw [pattern_valueIn hf, pattern_valueIn hf, BitVec.toNat_or, Nat.or_mod_two_pow]

theorem xor_wraps (hr : Ready (.xor f) s) : WritesX (.xor f) f s (fitted f.fmt (readX s.me f.a.toNat ^^^ operandB s.me f)) := by
  refine intOp_wraps hf hs hr (exec_xor f s) (modEq_of_mod_eq ?_)
  rw [pattern_valueIn hf, pattern_valueIn hf, BitVec.toNat_xor, Nat.xor_mod_two_pow]

theorem andn_wraps (hr : Ready (.andn f) s) :
    WritesX (.andn f) f s (fitted f.fmt (readX s.me f.a.toNat &&& ~~~operandB s.me f)) := by
  refine intOp_wraps hf hs hr (exec_andn f s) (modEq_of_mod_eq ?_)
  rw [pattern_valueIn hf, pattern_valueIn hf, BitVec.toNat_and, Nat.and_mod_two_pow, not_mod]

theorem shl_wraps (hr : Ready (.shl f) s) :
    WritesX (.shl f) f s (fitted f.fmt (readX s.me f.a.toNat <<< ((operandB s.me f).toNat % 64 % opWidth f.fmt))) := by
  refine intOp_wraps hf hs hr (exec_shl f s) (modEq_toNat ((valueIn_modEq hf _).mul_right _) ?_)
  rw [← Nat.cast_mul, BitVec.ofInt_natCast, ← Nat.shiftLeft_eq]
  exact BitVec.eq_of_toNat_eq (by rw [BitVec.toNat_ofNat, BitVec.toNat_shiftLeft])

theorem rot_wraps (hr : Ready (.rot f) s) {v : Word}
    (hv : rotl (opWidth f.fmt) ((readX s.me f.a.toNat).toNat % 2 ^ opWidth f.fmt) ((operandB s.me f).toNat % 64 % opWidth f.fmt) =
      v.toNat % 2 ^ opWidth f.fmt) : WritesX (.rot f) f s (fitted f.fmt v) := by
  refine intOp_wraps hf hs hr (exec_rot f s) (modEq_of_mod_eq ?_)
  rw [pattern_valueIn hf, hv]

theorem rot_narrow (hg : f.fmt = 4 ∨ f.fmt = 5) (hr : Ready (.rot f) s) : WritesX (.rot f) f s
    (fitted f.fmt ((((readX s.me f.a.toNat).setWidth 32).rotateLeft ((operandB s.me f).toNat % 64 % opWidth f.fmt)).setWidth 64)) := by
  refine rot_wraps hf hs hr ?_
  have hw : opWidth f.fmt = 32 := if_pos hg
  rw [hw, ← BitVec.toNat_setWidth, ← toNat_rotateLeft_eq_rotl _ (Nat.mod_lt _ (by decide)), BitVec.toNat_setWidth_of_le (by decide),
    Nat.mod_eq_of_lt (BitVec.isLt _)]

theorem rot_wide (hg : f.fmt = 6 ∨ f.fmt = 7) (hr : Ready (.rot f) s) :
    WritesX (.rot f) f s ((readX s.me f.a.toNat).rotateLeft ((operandB s.me f).toNat % 64 % opWidth f.fmt)) := by
  have whole (v : Word) : fitted f.fmt v = v := by rcases hg with h | h <;> rw [h] <;> rfl
  have hw : opWidth f.fmt = 64 := by rcases hg with h | h <;> rw [h] <;> rfl
  rw [← whole (BitVec.rotateLeft ..)]
  refine rot_wraps hf hs hr ?_
  rw [hw, Nat.mod_eq_of_lt (BitVec.isLt _), Nat.mod_eq_of_lt (BitVec.isLt _), toNat_rotateLeft_eq_rotl _ (Nat.mod_lt _ (by decide))]

end Wrapping

theorem wrappingRules_holds : wrappingRules := fun _ _ hf hs =>
  ⟨add_wraps hf hs, sub_wraps hf hs, mul_wraps hf hs, mulh_wraps hf hs, min_wraps hf hs, max_wraps hf hs, and_wraps hf hs,
    or_wraps hf hs, xor_wraps hf hs, andn_wraps hf hs, shl_wraps hf hs, shr_signed hf, shr_unsigned hf, rot_narrow hf hs,
    rot_wide hf hs⟩

/-! The instructions with saturation. -/

theorem add_saturates (hf : ScalarIntFmt f) (hs : f.s = true) (hr : Ready (.add f) s) : WritesX (.add f) f s
    (saturated f.fmt (valueIn f.fmt (readX s.me f.a.toNat) + valueIn f.fmt (operandB s.me f))) := by
  have h := intOp_saturates hf hs hr (exec_add f s)
  rwa [exactOf] at h

theorem sub_saturates (hf : ScalarIntFmt f) (hs : f.s = true) (hr : Ready (.sub f) s) : WritesX (.sub f) f s
    (saturated f.fmt (valueIn f.fmt (readX s.me f.a.toNat) - valueIn f.fmt (operandB s.me f))) := by
  have h := intOp_saturates hf hs hr (exec_sub f s)
  rwa [exactOf] at h

theorem mul_saturates (hf : ScalarIntFmt f) (hs : f.s = true) (hr : Ready (.mul f) s) : WritesX (.mul f) f s
    (saturated f.fmt (valueIn f.fmt (readX s.me f.a.toNat) * valueIn f.fmt (operandB s.me f))) := by
  have h := intOp_saturates hf hs hr (exec_mul f s)
  rwa [exactOf] at h

theorem shl_saturates (hf : ScalarIntFmt f) (hs : f.s = true) (hr : Ready (.shl f) s) : WritesX (.shl f) f s
    (saturated f.fmt (valueIn f.fmt (readX s.me f.a.toNat) * 2 ^ ((operandB s.me f).toNat % 64 % opWidth f.fmt))) := by
  have h := intOp_saturates hf hs hr (exec_shl f s)
  rwa [exactOf, Nat.cast_pow, Nat.cast_ofNat] at h

/-- R98: an instruction whose form has no S is not well formed with S = 1. -/
theorem wellFormed_of_unused_s {sh : Shape} (hsh : i.shape = some sh) (hi : i.fields = some f) (hu : sh.s = .unused)
    (hs : f.s = true) : i.WellFormed = false := by
  simp [Instr.WellFormed, Instr.check5, hsh, hi, hu, hs, SUse.admits]

theorem unsaturated_forms (hs : f.s = true) :
    ∀ i : Instr, i ∈ [.mulh f, .min f, .max f, .and f, .or f, .xor f, .andn f, .shr f, .rot f] → i.WellFormed = false := by
  simp only [List.forall_mem_cons, List.not_mem_nil, false_implies, implies_true, and_true]
  refine ⟨?_, ?_, ?_, ?_, ?_, ?_, ?_, ?_, ?_⟩ <;> exact wellFormed_of_unused_s rfl rfl rfl hs

theorem saturatingRules_holds : saturatingRules := fun _ _ hf hs =>
  ⟨add_saturates hf hs, sub_saturates hf hs, mul_saturates hf hs, shl_saturates hf hs, unsaturated_forms hs⟩

/-- Settles O10: without saturation every result has the residue of the statement's word, with it every result is clamped. -/
theorem integerArithmetic : Obligations.IntegerArithmetic := ⟨wrappingRules_holds, saturatingRules_holds⟩

end Sys2Proof.Machine
end

section
/-! Part 4: division and remainder (R103). -/

namespace Sys2Proof.Machine

open Sys2Proof.Claims

variable {f : Fields} {s : State} {i : Instr}

/-- A long-class instruction that writes x[D], with its flags. -/
theorem startsX_of_longOp {r' : Strand} {v : Word} {fl : Flags} {g : Strand → Strand × VReg × Flags} (hr : Ready i s)
    (hl : longRoom s.me false = true) (hi : exec i s = longOp i f s (destX f) g)
    (hg : g s.me = (r', v.zeroExtend 2048, fl)) : StartsX i f s r' v fl := by
  rw [StartsX, hi, longOp_of_ready g hr hl, hg]

theorem div_starts (hf : ScalarIntFmt f) (hr : Ready (.div f) s) (hl : longRoom s.me false = true) :
    StartsX (.div f) f s s.me (delivered f f.s
      (quotRem f.fmt.toNat (valueIn f.fmt (readX s.me f.a.toNat)) (valueIn f.fmt (operandB s.me f))).1) 0 := by
  refine startsX_of_longOp hr hl (exec_div f s) ?_
  simp only [divValue, delivered, readFmtInt_toNat hf]

theorem rem_starts (hf : ScalarIntFmt f) (hr : Ready (.rem f) s) (hl : longRoom s.me false = true) :
    StartsX (.rem f) f s s.me (delivered f false
      (quotRem f.fmt.toNat (valueIn f.fmt (readX s.me f.a.toNat)) (valueIn f.fmt (operandB s.me f))).2) 0 := by
  refine startsX_of_longOp hr hl (exec_rem f s) ?_
  simp only [remValue, delivered, readFmtInt_toNat hf]

theorem quotRem_zero_fst (c : Nat) (a : Int) : (quotRem c a 0).1 = if fmtSigned c then -1 else intMax false (fmtWidth c) := rfl

theorem quotRem_zero_snd (c : Nat) (a : Int) : (quotRem c a 0).2 = a := rfl

theorem quotRem_of_ne {c : Nat} {a b : Int} (h : b ≠ 0) : quotRem c a b = (a.tdiv b, a - b * a.tdiv b) := if_neg h

/-- R103: the quotient by zero, −1 or the greatest natural, is all ones in every format, and no saturation moves it. -/
theorem quotient_by_zero (hf : ScalarIntFmt f) (sat : Bool) (a : Int) :
    delivered f sat (quotRem f.fmt.toNat a 0).1 = fitted f.fmt (BitVec.allOnes 64) := by
  rw [quotRem_zero_fst, delivered_of_range hf]
  · rcases hf with h | h | h | h <;> rw [h] <;> decide
  · rcases hf with h | h | h | h <;> rw [h] <;> decide

section Divisor

variable (hf : ScalarIntFmt f) (hl : longRoom s.me false = true)
include hf hl

theorem div_by_zero (hr : Ready (.div f) s) (h : valueIn f.fmt (operandB s.me f) = 0) :
    StartsX (.div f) f s s.me (fitted f.fmt (BitVec.allOnes 64)) 0 := by
  have := div_starts hf hr hl
  rwa [h, quotient_by_zero hf] at this

/-- R103: the quotient toward zero; the signed minimum over −1 alone leaves the range, and S decides about it. -/
theorem div_by_nonzero (hr : Ready (.div f) s) (h : valueIn f.fmt (operandB s.me f) ≠ 0) :
    StartsX (.div f) f s s.me
      (if f.s then saturated f.fmt ((valueIn f.fmt (readX s.me f.a.toNat)).tdiv (valueIn f.fmt (operandB s.me f)))
        else fitted f.fmt (BitVec.ofInt 64 ((valueIn f.fmt (readX s.me f.a.toNat)).tdiv (valueIn f.fmt (operandB s.me f))))) 0 := by
  have := div_starts hf hr hl
  rw [quotRem_of_ne h] at this
  cases hs : f.s
  · rwa [hs, delivered_wrapped hf (toNat_ofInt_modEq ..).symm] at this
  · rwa [hs, delivered_saturated hf] at this

theorem rem_by_zero (hr : Ready (.rem f) s) (h : valueIn f.fmt (operandB s.me f) = 0) :
    StartsX (.rem f) f s s.me (fitted f.fmt (readX s.me f.a.toNat)) 0 := by
  have := rem_starts hf hr hl
  rwa [h, quotRem_zero_snd, delivered_wrapped hf (valueIn_modEq hf _)] at this

theorem rem_by_nonzero (hr : Ready (.rem f) s) (h : valueIn f.fmt (operandB s.me f) ≠ 0) :
    StartsX (.rem f) f s s.me (fitted f.fmt (BitVec.ofInt 64 (valueIn f.fmt (readX s.me f.a.toNat) -
      valueIn f.fmt (operandB s.me f) *
        (valueIn f.fmt (readX s.me f.a.toNat)).tdiv (valueIn f.fmt (operandB s.me f))))) 0 := by
  have := rem_starts hf hr hl
  rwa [quotRem_of_ne h, delivered_wrapped hf (toNat_ofInt_modEq ..).symm] at this

end Divisor

/-- Settles O11: the quotient by zero is in range of every format, and everything else is a delivered integer. -/
theorem division : Obligations.Division := fun _ _ hf hl =>
  ⟨div_by_zero hf hl, div_by_nonzero hf hl, rem_by_zero hf hl, rem_by_nonzero hf hl⟩

end Sys2Proof.Machine
end

section
/-! Part 5: bit counts, sign extension and bit fields (R104, R105), bit by bit. -/

namespace Sys2Proof.Machine

open Sys2Proof.Claims

variable {f : Fields} {s : State} {i : Instr}

/-! The counts. -/

theorem onesIn_eq_length (w v : Nat) : onesIn w v = ((List.range w).filter v.testBit).length := by
  induction w generalizing v with
  | zero => rfl
  | succ w ih =>
    have low : v % 2 = if v.testBit 0 then 1 else 0 := by
      rcases Nat.mod_two_eq_zero_or_one v with h | h <;> simp [Nat.testBit_zero, h]
    have shift : v.testBit ∘ Nat.succ = (v / 2).testBit := by
      funext j
      exact Nat.testBit_succ v j
    rw [onesIn, ih, low, List.range_succ_eq_map, List.filter_cons, List.filter_map, shift]
    split <;> simp [Nat.add_comm]

theorem leadingZeros_le (w v : Nat) : leadingZeros w v ≤ w := by
  unfold leadingZeros
  split <;> omega

/-- R104: `clz` counts the zeros above the highest one. -/
theorem leadingZeros_spec {w v : Nat} (hv : v < 2 ^ w) :
    (∀ j, w - leadingZeros w v ≤ j → v.testBit j = false) ∧
    (leadingZeros w v < w → v.testBit (w - 1 - leadingZeros w v) = true) := by
  unfold leadingZeros
  split
  · next h => simp [h]
  · next h =>
    have top : Nat.log2 v < w := (Nat.log2_lt h).2 hv
    refine ⟨fun j hj => ?_, fun _ => ?_⟩
    · exact Nat.testBit_lt_two_pow ((Nat.log2_lt h).1 (by omega))
    · rw [show w - 1 - (w - 1 - Nat.log2 v) = Nat.log2 v by omega]
      exact Nat.testBit_log2 h

theorem trailingZeros_le (w v : Nat) : trailingZeros w v ≤ w := by
  induction w generalizing v with
  | zero => exact le_rfl
  | succ w ih =>
    have := ih (v / 2)
    rw [trailingZeros]
    split <;> omega

/-- R104: `ctz` counts the zeros below the lowest one. -/
theorem trailingZeros_spec (w v : Nat) :
    (∀ j, j < trailingZeros w v → v.testBit j = false) ∧
    (trailingZeros w v < w → v.testBit (trailingZeros w v) = true) := by
  induction w generalizing v with
  | zero => simp [trailingZeros]
  | succ w ih =>
    obtain ⟨below, one⟩ := ih (v / 2)
    rw [trailingZeros]
    split
    · next h => simp [Nat.testBit_zero, h]
    · next h =>
      rw [Nat.add_comm 1]
      refine ⟨fun j hj => ?_, fun hw => ?_⟩
      · cases j with
        | zero => simp [Nat.testBit_zero, h]
        | succ j => rw [Nat.testBit_succ]; exact below j (by omega)
      · rw [Nat.testBit_succ]
        exact one (by omega)

/-- A bit of the operating width, of the word's low part. -/
theorem testBit_low {w j : Nat} (b : Word) (h : j < w) : (b.toNat % 2 ^ w).testBit j = b.getLsbD j := by
  rw [Nat.testBit_mod_two_pow, BitVec.testBit_toNat, decide_eq_true h, Bool.true_and]

theorem writesX_of_bitCountOp {g : Nat → Nat → Nat} (hf : ScalarIntFmt f) (hr : Ready i s) (hi : exec i s = bitCountOp i f s g) :
    WritesX i f s (BitVec.ofNat 64 (g (opWidth f.fmt) ((operandB s.me f).toNat % 2 ^ opWidth f.fmt))) := by
  refine writesX_of_shortOp hr hi ?_
  simp only [fmtWidth_scalar hf]

theorem clz_writes (hf : ScalarIntFmt f) (hr : Ready (.clz f) s) :
    ∃ n, WritesX (.clz f) f s (BitVec.ofNat 64 n) ∧ n ≤ opWidth f.fmt ∧
      (∀ j, opWidth f.fmt - n ≤ j → j < opWidth f.fmt → (operandB s.me f).getLsbD j = false) ∧
      (n < opWidth f.fmt → (operandB s.me f).getLsbD (opWidth f.fmt - 1 - n) = true) := by
  obtain ⟨above, one⟩ := leadingZeros_spec (Nat.mod_lt (operandB s.me f).toNat (Nat.two_pow_pos (opWidth f.fmt)))
  refine ⟨_, writesX_of_bitCountOp hf hr (exec_clz f s), leadingZeros_le .., fun j hj hw => ?_, fun hn => ?_⟩
  · rw [← testBit_low _ hw, above j hj]
  · rw [← testBit_low (w := opWidth f.fmt) _ (by omega), one hn]

theorem ctz_writes (hf : ScalarIntFmt f) (hr : Ready (.ctz f) s) :
    ∃ n, WritesX (.ctz f) f s (BitVec.ofNat 64 n) ∧ n ≤ opWidth f.fmt ∧
      (∀ j, j < n → (operandB s.me f).getLsbD j = false) ∧ (n < opWidth f.fmt → (operandB s.me f).getLsbD n = true) := by
  obtain ⟨below, one⟩ := trailingZeros_spec (opWidth f.fmt) ((operandB s.me f).toNat % 2 ^ opWidth f.fmt)
  have hn := trailingZeros_le (opWidth f.fmt) ((operandB s.me f).toNat % 2 ^ opWidth f.fmt)
  refine ⟨_, writesX_of_bitCountOp hf hr (exec_ctz f s), hn, fun j hj => ?_, fun hw => ?_⟩
  · rw [← testBit_low _ (hj.trans_le hn), below j hj]
  · rw [← testBit_low _ hw, one hw]

/-- The one bits of the low part of a word are those of the word. -/
theorem onesIn_low (w : Nat) (b : Word) : onesIn w (b.toNat % 2 ^ w) = ((List.range w).filter fun j => b.getLsbD j).length := by
  rw [onesIn_eq_length]
  refine congrArg _ (List.filter_congr fun j hj => ?_)
  exact testBit_low b (List.mem_range.1 hj)

theorem popc_writes (hf : ScalarIntFmt f) (hr : Ready (.popc f) s) : WritesX (.popc f) f s
    (BitVec.ofNat 64 ((List.range (opWidth f.fmt)).filter fun j => (operandB s.me f).getLsbD j).length) := by
  rw [← onesIn_low]
  exact writesX_of_bitCountOp hf hr (exec_popc f s)

theorem fmtWidth_pos (c : Nat) : 0 < fmtWidth c := by
  unfold fmtWidth
  split_ifs <;> decide

theorem sext_writes (hr : Ready (.sext f) s) : ∃ v : Word, WritesX (.sext f) f s v ∧
    ∀ j, j < 64 → v.getLsbD j = if j < fmtWidth f.fmt.toNat then (operandB s.me f).getLsbD j
      else f.fmt.toNat % 2 == 0 && (operandB s.me f).getLsbD (fmtWidth f.fmt.toNat - 1) := by
  refine ⟨_, writesX_of_shortOp hr (exec_sext f s) rfl, fun j hj => ?_⟩
  rw [extend64_getLsbD _ _ hj, BitVec.testBit_toNat, BitVec.testBit_toNat, decide_eq_true (fmtWidth_pos _), Bool.and_true]
  rfl

theorem bitCountsRules_holds : bitCountsRules := fun _ _ => ⟨clz_writes, ctz_writes, popc_writes, fun _ => sext_writes⟩

/-! Fields. -/

theorem fieldPos_eq (b : Word) : fieldPos b = (b.extractLsb' 0 6).toNat := by
  rw [BitVec.extractLsb'_toNat, Nat.shiftRight_eq_div_pow]
  rfl

theorem fieldLen_eq (b : Word) :
    fieldLen b = if (b.extractLsb' 6 7).toNat ≤ 64 then (b.extractLsb' 6 7).toNat else 0 := by
  rw [BitVec.extractLsb'_toNat, Nat.shiftRight_eq_div_pow]
  rfl

theorem bextValue_getLsbD (sx : Bool) (a b : Word) {j : Nat} (hj : j < 64) :
    (bextValue sx a b).getLsbD j = if j < fieldLen b then a.getLsbD (fieldPos b + j)
      else sx && decide (0 < fieldLen b) && a.getLsbD (fieldPos b + fieldLen b - 1) := by
  have bit (k : Nat) : (a.toNat / 2 ^ fieldPos b).testBit k = a.getLsbD (fieldPos b + k) := by
    rw [Nat.testBit_div_two_pow, BitVec.testBit_toNat, Nat.add_comm]
  unfold bextValue
  split
  · next h => simp [h]
  · next h => rw [extend64_getLsbD _ _ hj, bit, bit, Nat.add_sub_assoc (by omega)]

theorem binsValue_getLsbD (d a b : Word) {j : Nat} (hj : j < 64) :
    (binsValue d a b).getLsbD j =
      if fieldPos b ≤ j ∧ j < fieldPos b + fieldLen b then a.getLsbD (j - fieldPos b) else d.getLsbD j := by
  have mask : (BitVec.ofNat 64 ((2 ^ fieldLen b - 1) * 2 ^ fieldPos b)).getLsbD j =
      decide (fieldPos b ≤ j ∧ j < fieldPos b + fieldLen b) := by
    rw [BitVec.getLsbD_ofNat, Nat.testBit_mul_two_pow, Nat.testBit_two_pow_sub_one, decide_eq_true hj, Bool.true_and,
      Bool.decide_and]
    by_cases h : fieldPos b ≤ j
    · simp only [h, decide_true, Bool.true_and, decide_eq_decide]
      omega
    · simp [h]
  simp only [binsValue, BitVec.getLsbD_or, BitVec.getLsbD_and, BitVec.getLsbD_not, mask, BitVec.getLsbD_shiftLeft]
  by_cases h : fieldPos b ≤ j ∧ j < fieldPos b + fieldLen b
  · simp [h, hj]
  · simp [h, hj]

theorem bitFieldsRules_holds : bitFieldsRules := by
  intro f s a b pos len
  have hpos : fieldPos b = pos := fieldPos_eq b
  have hlen : fieldLen b = len := fieldLen_eq b
  rw [← hpos, ← hlen]
  exact ⟨fun hr => ⟨_, writesX_of_shortOp hr (exec_bext f s) rfl, fun j hj => bextValue_getLsbD _ _ _ hj⟩,
    fun hr => ⟨_, writesX_of_shortOp hr (exec_bins f s) rfl, fun j hj => binsValue_getLsbD _ _ _ hj⟩⟩

/-- Settles O12: every value is given by its bits. -/
theorem bitOperations : Obligations.BitOperations := ⟨bitCountsRules_holds, bitFieldsRules_holds⟩

end Sys2Proof.Machine
end

section
/-! Part 6: moves, conditions, mask registers and device time (R106 to R109, R112). -/

namespace Sys2Proof.Machine

open Sys2Proof.Claims

variable {f : Fields} {s : State} {i : Instr}

/-! Moves. -/

/-- R97: an instruction that names no register is never held. -/
theorem nop_ready (f : Fields) (s : State) : Ready (.nop f) s := rfl

theorem vHint_ready (n : BitVec 4) (f : Fields) (s : State) : Ready (.vHint n f) s := rfl

/-- R106: the bits of a remote address do not overlap, so no sum carries. -/
theorem leaValue_eq (a b : Word) : leaValue a b =
    0x40000000#64 + ((a.extractLsb' 8 5).setWidth 64 <<< 25) + ((a.extractLsb' 0 5).setWidth 64 <<< 20) +
      (b.extractLsb' 0 20).setWidth 64 := by
  apply BitVec.eq_of_toNat_eq
  simp only [leaValue, natBits, BitVec.toNat_ofNat, BitVec.toNat_add, BitVec.toNat_shiftLeft, BitVec.toNat_setWidth,
    BitVec.extractLsb'_toNat, Nat.shiftRight_eq_div_pow, Nat.shiftLeft_eq]
  omega

theorem movesRules_holds : movesRules := by
  intro f s a b
  refine ⟨fun hr => ?_, fun hr => ?_, fun hr => ?_, fun hr => ?_, fun hr => ?_, ?_, fun n => ?_⟩
  · exact writesX_of_shortOp hr (exec_li f s) rfl
  · exact writesX_of_shortOp hr (exec_mov f s) rfl
  · refine writesX_of_shortOp hr (exec_sel f s) ?_
    rw [ite_not]
  · refine writesX_of_shortOp hr (exec_lea f s) ?_
    rw [leaValue_eq]
    rfl
  · exact writesX_of_shortOp hr (exec_dtRd f s) rfl
  · exact shortOp_of_ready id (nop_ready f s)
  · exact shortOp_of_ready id (vHint_ready n f s)

/-! Conditions. -/

/-- R93, R108: the integer conditions by their code, as comparisons of words. -/
def wordCond (cc : Nat) (a b : Word) : Bool :=
  match cc with
  | 0 => a == b
  | 1 => a != b
  | 2 => a.slt b
  | 3 => b.sle a
  | 4 => a.ult b
  | 5 => b.ule a
  | 6 => a.sle b
  | 7 => b.slt a
  | 8 => a.ule b
  | _ => b.ult a

theorem toNat_beq (a b : Word) : (a.toNat == b.toNat) = (a == b) := by
  rw [Bool.eq_iff_iff, beq_iff_eq, beq_iff_eq, BitVec.toNat_inj]

/-- R108: a condition compares all 64 bits. -/
theorem intCond_eq_wordCond (cc : Nat) (a b : Word) : intCond cc 64 a.toNat b.toNat = wordCond cc a b := by
  unfold intCond
  rw [readInt_true_toNat, readInt_true_toNat, Nat.mod_eq_of_lt a.isLt, Nat.mod_eq_of_lt b.isLt]
  match cc with
  | 0 => exact toNat_beq a b
  | 1 => exact congrArg not (toNat_beq a b)
  | 2 | 3 | 4 | 5 | 6 | 7 | 8 | n + 9 => simp [wordCond, BitVec.slt, BitVec.sle, BitVec.ult, BitVec.ule]

theorem setOp_writes (cc : Nat) (hr : Ready i s) (hi : exec i s = setOp i cc f s) :
    WritesX i f s (if wordCond cc (readX s.me f.a.toNat) (operandB s.me f) then 1 else 0) := by
  refine writesX_of_shortOp hr hi ?_
  rw [intCond_eq_wordCond]

theorem conditionsRules_holds : conditionsRules := by
  intro f s a b one
  refine ⟨fun hr => ?_, fun hr => ?_, fun hr => ?_, fun hr => ?_, fun hr => ?_, fun hr => ?_, fun hr => ?_, fun hr => ?_, fun hr => ?_,
    fun hr => ?_⟩
  · exact setOp_writes 0 hr (exec_setEq f s)
  · exact setOp_writes 1 hr (exec_setNe f s)
  · exact setOp_writes 2 hr (exec_setLt f s)
  · exact setOp_writes 3 hr (exec_setGe f s)
  · exact setOp_writes 4 hr (exec_setLo f s)
  · exact setOp_writes 5 hr (exec_setHs f s)
  · exact setOp_writes 6 hr (exec_setLe f s)
  · exact setOp_writes 7 hr (exec_setGt f s)
  · exact setOp_writes 8 hr (exec_setLs f s)
  · exact setOp_writes 9 hr (exec_setHi f s)

/-! Mask registers. -/

/-- A short-class instruction that writes k[D]. -/
theorem writesK_of_shortOp {g : Strand → Strand} {v : Word} (hr : Ready i s) (hi : exec i s = shortOp i f s g)
    (hg : g s.me = writeK s.me f.d.toNat v) : WritesK i f s v := by
  rw [WritesK, hi, shortOp_of_ready g hr, hg]

theorem kopOp_writes {g : Word → Word → Word} (hr : Ready i s) (hi : exec i s = kopOp i f s g) :
    WritesK i f s (g (readK s.me f.a.toNat) (readK s.me f.b.toNat)) := writesK_of_shortOp hr hi rfl

theorem onesIn_word (b : Word) : onesIn 64 b.toNat = ((List.range 64).filter fun j => b.getLsbD j).length := by
  rw [← onesIn_low, Nat.mod_eq_of_lt b.isLt]

/-- R109: the low min(x[A], 64) bits. -/
theorem kfillValue_getLsbD (a : Word) {j : Nat} (hj : j < 64) : (kfillValue a).getLsbD j = decide (j < a.toNat) := by
  rw [kfillValue, BitVec.getLsbD_ofNat, Nat.testBit_two_pow_sub_one, decide_eq_true hj, Bool.true_and, decide_eq_decide]
  exact lt_min_iff.trans (and_iff_left hj)

theorem masksRules_holds : masksRules := by
  intro f s a b x
  refine ⟨fun hr => ?_, fun hr => ?_, fun hr => ?_, fun hr => ?_, fun hr => ?_, fun hr => ?_, fun hr => ?_, fun hr => ?_, fun hr => ?_⟩
  · exact writesK_of_shortOp hr (exec_kmov f s) rfl
  · exact writesX_of_shortOp hr (exec_kget f s) rfl
  · exact kopOp_writes hr (exec_kopAnd f s)
  · exact kopOp_writes hr (exec_kopOr f s)
  · exact kopOp_writes hr (exec_kopXor f s)
  · exact kopOp_writes hr (exec_kopAndn f s)
  · exact kopOp_writes hr (exec_kopNot f s)
  · rw [← onesIn_word]
    exact writesX_of_shortOp hr (exec_kpop f s) rfl
  · exact ⟨_, writesK_of_shortOp hr (exec_kfill f s) rfl, fun j hj => kfillValue_getLsbD x hj⟩

/-- Settles O13: each instruction writes one register, and conditions compare words. -/
theorem movesAndMasks : Obligations.MovesAndMasks := ⟨movesRules_holds, conditionsRules_holds, masksRules_holds⟩

end Sys2Proof.Machine
end

section
/-! Part 7: branches, calls, loops, indirect jumps and `dt.until` (R110, R111, R113). -/

namespace Sys2Proof.Machine

open Sys2Proof.Claims

variable {f : Fields} {s : State} {i : Instr}

/-- R86: an immediate counts words of four bytes. -/
theorem branchTarget_eq (r : Strand) (f : Fields) : branchTarget r f = r.pc + 4 * (immOf f).setWidth 32 := by
  have scale (v : BitVec 32) : v <<< 2 = 4 * v := by rw [BitVec.shiftLeft_eq_mul_twoPow, BitVec.mul_comm]; rfl
  exact congrArg (r.pc + ·) (scale _)

/-- A branch names no register to be held for. -/
theorem br_ready (f : Fields) (s : State) : Ready (.br f) s := rfl

theorem goesTo_of_issue {r : Strand} {pc : BitVec 32} {k : Strand → State} (hr : Ready i s) (hi : exec i s = issue i s k)
    (hk : k s.me = s.retireTo r pc) : GoesTo i s r pc := by
  rw [GoesTo, hi, issue_of_ready k hr, hk]

theorem branchOp_goesTo (cc : Nat) (hr : Ready i s) (hi : exec i s = branchOp i cc f s) :
    GoesTo i s s.me (if wordCond cc (readX s.me f.a.toNat) (readX s.me f.b.toNat) then s.me.pc + 4 * (immOf f).setWidth 32
      else s.me.pc + BitVec.ofNat 32 f.bytes) := by
  refine goesTo_of_issue hr hi ?_
  rw [intCond_eq_wordCond, branchTarget_eq]
  rfl

theorem branchesRules_holds : branchesRules := by
  intro f s r a b next target branch
  refine ⟨?_, fun hr => ?_, fun hr => ?_, fun hr => ?_, fun hr => ?_, fun hr => ?_, fun hr => ?_, fun hr => ?_, fun hr => ?_,
    fun hr => ?_, fun hr => ?_, fun hr => ?_, fun hr => ?_⟩
  · refine goesTo_of_issue (br_ready f s) (exec_br f s) ?_
    rw [branchTarget_eq]
  · exact branchOp_goesTo 0 hr (exec_bEq f s)
  · exact branchOp_goesTo 1 hr (exec_bNe f s)
  · exact branchOp_goesTo 2 hr (exec_bLt f s)
  · exact branchOp_goesTo 3 hr (exec_bGe f s)
  · exact branchOp_goesTo 4 hr (exec_bLo f s)
  · exact branchOp_goesTo 5 hr (exec_bHs f s)
  · exact branchOp_goesTo 6 hr (exec_bLe f s)
  · exact branchOp_goesTo 7 hr (exec_bGt f s)
  · exact branchOp_goesTo 8 hr (exec_bLs f s)
  · exact branchOp_goesTo 9 hr (exec_bHi f s)
  · refine goesTo_of_issue hr (exec_call f s) ?_
    rw [branchTarget_eq]
    rfl
  · refine goesTo_of_issue hr (exec_loop f s) ?_
    simp only [branchTarget_eq, ← bne_iff_ne]
    rfl

/-! Indirect jumps. -/

section Jumps

variable {g : Strand → Strand}

theorem jumpOp_goesTo (hr : Ready i s) (hi : exec i s = jumpOp i f s g) (h : ((readX s.me f.a.toNat).setWidth 32).toNat % 4 = 0) :
    GoesTo i s (g s.me) ((readX s.me f.a.toNat).setWidth 32) :=
  goesTo_of_issue hr hi (if_neg (not_not.2 h))

/-- R111: a target that is no multiple of 4 traps before anything is written. -/
theorem jumpOp_traps (hr : Ready i s) (hi : exec i s = jumpOp i f s g) (h : ((readX s.me f.a.toNat).setWidth 32).toNat % 4 ≠ 0) :
    exec i s = .next (s.takeTrap 5 0 (((readX s.me f.a.toNat).setWidth 32).setWidth 64)) := by
  rw [hi, jumpOp, issue_of_ready _ hr]
  exact congrArg _ (if_pos h)

end Jumps

theorem indirectJumpsRules_holds : indirectJumpsRules := fun f s =>
  ⟨fun h => ⟨fun hr => jumpOp_goesTo hr (exec_jr f s) h, fun hr => jumpOp_goesTo hr (exec_ret f s) h,
      fun hr => jumpOp_goesTo hr (exec_callr f s) h⟩,
    fun h => ⟨fun hr => jumpOp_traps hr (exec_jr f s) h, fun hr => jumpOp_traps hr (exec_ret f s) h,
      fun hr => jumpOp_traps hr (exec_callr f s) h⟩⟩

theorem dtUntilRules_holds : dtUntilRules := by
  intro f s hr
  have issued := issue_of_ready (i := .dtUntil f) (fun r => if s.dt.toNat < (readX r f.a.toNat).toNat then s.retireTo r r.pc
    else s.retire (writeX r f.d.toNat s.dt) f) hr
  refine ⟨fun h => ?_, fun h => ?_⟩
  · rw [if_pos h] at issued
    exact (exec_dtUntil f s).trans issued
  · rw [if_neg (not_lt.2 h)] at issued
    exact (exec_dtUntil f s).trans issued

/-- Settles O15: every transfer is an issue that sets the PC, or the alignment fault. -/
theorem controlFlow : Obligations.ControlFlow := ⟨branchesRules_holds, indirectJumpsRules_holds, dtUntilRules_holds⟩

end Sys2Proof.Machine
end

section
/-! Part 8: the scalar floating instructions (R100, R114 to R117). -/

namespace Sys2Proof.Machine

open Sys2Proof.Claims

variable {f : Fields} {s : State} {i : Instr}

/-- A short-class instruction by the strand that it leaves. -/
theorem exec_of_shortOp {g : Strand → Strand} (hr : Ready i s) (hi : exec i s = shortOp i f s g) :
    exec i s = .next (s.retire (g s.me) f) := hi.trans (shortOp_of_ready g hr)

/-! Arithmetic. -/

/-- R40, R45, R100: `roundX` rounds as the statements do. -/
theorem roundX_zero (s : State) (f : Fields) (c : Nat) (x : FVal) : roundX s.me f c x 0 = rounded s f c x :=
  Prod.ext rfl BitVec.or_zero

theorem floatOp_delivers {g : Strand → Nat → FVal} (hr : Ready i s) (hi : exec i s = floatOp i f s g) :
    DeliversX i f s (resolveMode s.me.status f.rm) (rounded s f f.fmt.toNat (g s.me (resolveMode s.me.status f.rm))) := by
  refine (exec_of_shortOp hr hi).trans ?_
  simp only [roundX_zero]

theorem floatLong_starts {g : Strand → FVal × Flags} (hr : Ready i s) (hl : longRoom s.me false = true)
    (hi : exec i s = floatLong i f s g) :
    StartsFloat i f s (resolveMode s.me.status f.rm)
      ((rounded s f f.fmt.toNat (g s.me).1).1, (rounded s f f.fmt.toNat (g s.me).1).2 ||| (g s.me).2) :=
  hi.trans (longOp_of_ready _ hr hl)

theorem fSqrt_starts (hr : Ready (.fSqrt f) s) (hl : longRoom s.me false = true) :
    StartsFloat (.fSqrt f) f s (resolveMode s.me.status f.rm)
      (rounded s f f.fmt.toNat (sqrtVal (readFX s.me f.fmt.toNat f.a.toNat))) := by
  have noFlag : (rounded s f f.fmt.toNat (sqrtVal (readFX s.me f.fmt.toNat f.a.toNat))).2 ||| 0 = _ := BitVec.or_zero
  have h := floatLong_starts hr hl (exec_fSqrt f s)
  rwa [noFlag] at h

/-- R115: a conversion rounds its source once to the format in IMM10. -/
theorem fCvt_delivers (hr : Ready (.fCvt f) s) : DeliversX (.fCvt f) f s (resolveMode s.me.status f.rm)
    (rounded s f f.imm10.toNat (convSource f.fmt.toNat (statusFmode s.me.status) (readX s.me f.a.toNat).toNat)) := by
  refine (exec_of_shortOp hr (exec_fCvt f s)).trans ?_
  simp only [roundX_zero]

theorem convSource_of_float {c : Nat} (h : isFloatFmt c = true) (fmode : Bool) (bits : Nat) :
    convSource c fmode bits = readFloat (ffmt c fmode) bits := if_pos h

theorem convSource_of_int {c : Nat} (h : isFloatFmt c = false) (fmode : Bool) (bits : Nat) :
    convSource c fmode bits = intVal (readFmtInt c bits) := if_neg (by rw [h]; decide)

theorem scalarFloatRules_holds : scalarFloatRules := by
  intro f s c a b d mode
  refine ⟨fun hr => ?_, fun hr => ?_, fun hr => ?_, fun hr => ?_, fun hr h => ?_, fun hr h => ?_, fun hr => ?_,
    fun hl => ⟨fun hr => ?_, fun hr => ?_⟩⟩
  · exact (floatOp_delivers hr (exec_fAdd f s) :)
  · exact (floatOp_delivers hr (exec_fSub f s) :)
  · exact (floatOp_delivers hr (exec_fMul f s) :)
  · exact (floatOp_delivers hr (exec_fFma f s) :)
  · have := fCvt_delivers hr
    rwa [convSource_of_float h] at this
  · have := fCvt_delivers hr
    rwa [convSource_of_int h] at this
  · exact ⟨_, _, rfl, exec_of_shortOp hr (exec_fCvti f s)⟩
  · exact (floatLong_starts hr hl (exec_fDiv f s) :)
  · exact fSqrt_starts hr hl

/-! Comparisons, minimum, maximum, absolute value and negation. -/

/-- R93, R116: the floating conditions by their code, of two values' order and of whether one is a NaN. -/
def floatHolds (cc : Nat) (nan : Bool) (o : Ordering) : Bool :=
  match cc with
  | 0 => !nan && o == .eq
  | 1 => nan || o != .eq
  | 2 => !nan && o == .lt
  | 3 => !nan && o != .lt
  | 6 => !nan && o != .gt
  | 7 => !nan && o == .gt
  | 10 => nan
  | 11 => !nan
  | _ => false

/-- R116: a NaN operand raises NV, whatever the code. -/
theorem floatCond_eq (cc : Nat) (a b : FVal) : floatCond cc a b =
    (floatHolds cc (a.isNan || b.isNan) (cmpVal a b), if a.isNan || b.isNan then flagNV else 0) := by
  unfold floatCond
  generalize (a.isNan || b.isNan) = nan, cmpVal a b = o
  match cc with
  | 0 | 1 | 2 | 3 | 4 | 5 | 6 | 7 | 8 | 9 | 10 | 11 | n + 12 => cases nan <;> simp [floatHolds]

theorem fcmpOp_sets (cc : Nat) (hr : Ready i s) (hi : exec i s = fcmpOp i cc f s) :
    let a := readFX s.me f.fmt.toNat f.a.toNat
    let b := readFX s.me f.fmt.toNat f.b.toNat
    exec i s = .next (s.retire (raise (writeX s.me f.d.toNat (if floatHolds cc (a.isNan || b.isNan) (cmpVal a b) then 1 else 0))
      (if a.isNan || b.isNan then flagNV else 0)) f) := by
  refine (exec_of_shortOp hr hi).trans ?_
  rw [floatCond_eq]

/-- R117: the operations that do not round deliver a value of the format. -/
theorem exactOp_delivers {g : FVal → FVal → FVal} (hr : Ready i s) (hi : exec i s = exactOp i f s g) :
    let y := deliver (strandFmt s.me f.fmt.toNat) 0 false 0
      (g (readFX s.me f.fmt.toNat f.a.toNat) (readFX s.me f.fmt.toNat f.b.toNat))
    exec i s = .next (s.retire (raise (writeX s.me f.d.toNat (BitVec.ofNat 64 y.1)) y.2) f) :=
  exec_of_shortOp hr hi

theorem scalarFloatCompareRules_holds : scalarFloatCompareRules := by
  intro f s F a b nan sets delivers
  refine ⟨fun hr => ?_, fun hr => ?_, fun hr => ?_, fun hr => ?_, fun hr => ?_, fun hr => ?_, fun hr => ?_, fun hr => ?_, fun hr => ?_,
    fun hr => ?_, fun hr => ?_, fun hr => ?_⟩
  · exact fcmpOp_sets 0 hr (exec_fCmpEq f s)
  · exact fcmpOp_sets 1 hr (exec_fCmpNe f s)
  · exact fcmpOp_sets 2 hr (exec_fCmpLt f s)
  · exact fcmpOp_sets 3 hr (exec_fCmpGe f s)
  · exact fcmpOp_sets 6 hr (exec_fCmpLe f s)
  · exact fcmpOp_sets 7 hr (exec_fCmpGt f s)
  · exact fcmpOp_sets 10 hr (exec_fCmpUn f s)
  · exact fcmpOp_sets 11 hr (exec_fCmpOrd f s)
  · exact (exactOp_delivers hr (exec_fMin f s) :)
  · exact (exactOp_delivers hr (exec_fMax f s) :)
  · exact (exactOp_delivers hr (exec_fAbs f s) :)
  · exact (exactOp_delivers hr (exec_fNeg f s) :)

end Sys2Proof.Machine
end

section
/-! Part 9: a floating value as an integer (R42). -/

namespace Sys2Proof.Machine

open Sys2Proof.Claims

/-! The magnitude as an integer part and a fraction. -/

/-- The integer part of m × 2^e. -/
def intPart (m : Nat) (e : Int) : Nat := m * 2 ^ e.toNat / 2 ^ (-e).toNat

/-- What is left over of m × 2^e, in units of 2^e where e is negative. -/
def leftOver (m : Nat) (e : Int) : Nat := m * 2 ^ e.toNat % 2 ^ (-e).toNat

theorem leftOver_lt (m : Nat) (e : Int) : leftOver m e < 2 ^ (-e).toNat := Nat.mod_lt _ (Nat.two_pow_pos _)

/-- A power of two by its positive and its negative part. -/
theorem two_zpow_eq_div (e : Int) : (2 : ℚ) ^ e = 2 ^ e.toNat / 2 ^ (-e).toNat := by
  rw [← zpow_natCast, ← zpow_natCast, ← zpow_sub₀ two_ne_zero]
  congr 1
  omega

theorem abs_realOf_fin (neg : Bool) (m : Nat) (e : Int) (k : Bool) :
    |realOf (.fin neg m e k)| = (m : ℚ) * 2 ^ e := by
  have hp : (0 : ℚ) < 2 ^ e := zpow_pos two_pos e
  cases neg <;> simp [realOf, abs_mul, abs_of_pos hp]

theorem abs_realOf_split (neg : Bool) (m : Nat) (e : Int) (k : Bool) :
    |realOf (.fin neg m e k)| = (intPart m e : ℚ) + (leftOver m e : ℚ) / (2 ^ (-e).toNat : Nat) := by
  have hd : ((2 ^ (-e).toNat : Nat) : ℚ) ≠ 0 := by positivity
  have division : ((2 ^ (-e).toNat * intPart m e + leftOver m e : Nat) : ℚ) = (m * 2 ^ e.toNat : Nat) := by
    exact_mod_cast Nat.div_add_mod (m * 2 ^ e.toNat) (2 ^ (-e).toNat)
  rw [abs_realOf_fin, two_zpow_eq_div]
  push_cast at division hd ⊢
  field_simp
  linarith

/-! The direction of rounding. -/

/-- R40, R44: whether the magnitude moves up, from its integer part and its fraction. -/
def movesUp (mode r : Nat) (neg pos : Bool) (a : Int) (rest : ℚ) : Bool :=
  match mode with
  | 0 => decide (1 / 2 < rest) || (decide (rest = 1 / 2) && a % 2 == 1)
  | 1 => false
  | 2 => neg && decide (rest ≠ 0)
  | 3 => pos && decide (rest ≠ 0)
  | 4 => decide (1 / 2 ≤ rest)
  | _ => decide ((r : Int) < ⌊rest * 2 ^ 24⌋)

theorem intRounded_eq (mode r : Nat) (u : ℚ) : intRounded mode r u = (if u < 0 then -1 else 1) *
    (⌊|u|⌋ + if movesUp mode r (decide (u < 0)) (decide (0 < u)) ⌊|u|⌋ (|u| - ⌊|u|⌋) = true then 1 else 0) := rfl

/-- The fraction q / 2^k compared with a half, and its first 24 bits. -/
theorem movesUp_eq_roundsUp {mode : Nat} (hm : mode < 6) (r : Nat) (neg : Bool) (n : Nat) {q k : Nat} (hq : q < 2 ^ k) :
    movesUp mode r neg (!neg) n ((q : ℚ) / (2 ^ k : Nat)) = roundsUp mode neg n q k false r := by
  have hd : (0 : ℚ) < (2 ^ k : Nat) := by positivity
  have half_lt : 1 / 2 < (q : ℚ) / (2 ^ k : Nat) ↔ 2 ^ k < 2 * q := by
    rw [div_lt_div_iff₀ two_pos hd, one_mul, mul_comm (q : ℚ)]
    exact_mod_cast Iff.rfl
  have half_le : 1 / 2 ≤ (q : ℚ) / (2 ^ k : Nat) ↔ 2 ^ k ≤ 2 * q := by
    rw [div_le_div_iff₀ two_pos hd, one_mul, mul_comm (q : ℚ)]
    exact_mod_cast Iff.rfl
  have half_eq : (q : ℚ) / (2 ^ k : Nat) = 1 / 2 ↔ 2 * q = 2 ^ k := by
    rw [div_eq_div_iff hd.ne' two_ne_zero, one_mul, mul_comm (q : ℚ)]
    exact_mod_cast Iff.rfl
  have ne_zero : (q : ℚ) / (2 ^ k : Nat) ≠ 0 ↔ q ≠ 0 := by
    rw [div_ne_zero_iff]
    exact_mod_cast and_iff_left hd.ne'
  have first24 : ⌊(q : ℚ) / (2 ^ k : Nat) * 2 ^ 24⌋ = ((q * 2 ^ 24 / 2 ^ k : Nat) : Int) := by
    rw [div_mul_eq_mul_div]
    exact_mod_cast Rat.floor_natCast_div_natCast (q * 2 ^ 24) (2 ^ k)
  have at_half : 2 ^ k ≤ 2 * q → k ≠ 0 := by
    rintro h rfl
    omega
  have parity : (n : Int) % 2 = 1 ↔ n % 2 = 1 := by omega
  rw [Bool.eq_iff_iff]
  match mode, hm with
  | 0, _ =>
    simp only [movesUp, roundsUp, half_lt, half_eq, parity, Bool.or_eq_true, Bool.and_eq_true, decide_eq_true_eq, beq_iff_eq,
      bne_iff_ne, if_true, Bool.false_or]
    exact or_congr_right (and_congr_left fun _ => (and_iff_left_of_imp fun h => at_half h.ge).symm)
  | 1, _ => simp [movesUp, roundsUp]
  | 2, _ => simp only [movesUp, roundsUp, ne_zero]; simp
  | 3, _ => simp only [movesUp, roundsUp, ne_zero]; simp
  | 4, _ =>
    simp only [movesUp, roundsUp, half_le]
    simpa using at_half
  | 5, _ => simp only [movesUp, roundsUp, first24, Int.ofNat_lt]; simp

/-- R40: what is exact is not moved. -/
theorem roundsUp_exact (mode : Nat) (neg : Bool) (n k r : Nat) : roundsUp mode neg n 0 k false r = false := by
  have := (Nat.two_pow_pos k).ne
  unfold roundsUp
  split_ifs <;> simp [this]

theorem movesUp_exact (mode r : Nat) (neg pos : Bool) (a : Int) : movesUp mode r neg pos a 0 = false := by
  unfold movesUp
  split <;> simp

/-! The conversion. -/

/-- The integer that a finite exact value is converted to, before it saturates. -/
def integerOf (mode r : Nat) (neg : Bool) (m : Nat) (e : Int) : Int :=
  scaledInt neg (if roundsUp mode neg (intPart m e) (leftOver m e) (-e).toNat false r then intPart m e + 1 else intPart m e)

theorem scaledInt_ite (neg up : Bool) (n : Nat) :
    scaledInt neg (if up = true then n + 1 else n) = (if neg = true then -1 else 1) * ((n : Int) + if up = true then 1 else 0) := by
  cases neg <;> cases up <;> simp [scaledInt]

theorem abs_scaledInt (neg : Bool) (n : Nat) : |(scaledInt neg n : ℚ)| = n := by
  cases neg <;> simp [scaledInt]

theorem realOf_fin (neg : Bool) (m : Nat) (e : Int) (k : Bool) :
    realOf (.fin neg m e k) = (if neg = true then -1 else 1) * |realOf (.fin neg m e k)| := by
  rw [abs_realOf_fin, realOf, mul_assoc]

/-- The fraction is below one unit of the integer part. -/
theorem fraction_range (m : Nat) (e : Int) :
    0 ≤ (leftOver m e : ℚ) / (2 ^ (-e).toNat : Nat) ∧ (leftOver m e : ℚ) / (2 ^ (-e).toNat : Nat) < 1 := by
  refine ⟨by positivity, ?_⟩
  rw [div_lt_one (by positivity)]
  exact_mod_cast leftOver_lt m e

theorem floor_abs_realOf (neg : Bool) (m : Nat) (e : Int) (k : Bool) : ⌊|realOf (.fin neg m e k)|⌋ = (intPart m e : Int) := by
  obtain ⟨h0, h1⟩ := fraction_range m e
  rw [abs_realOf_split, Int.floor_eq_iff, Int.cast_natCast]
  constructor <;> linarith

/-- The sign of a finite value that is not zero. -/
theorem sign_realOf (neg : Bool) {m : Nat} (hm : m ≠ 0) (e : Int) (k : Bool) :
    decide (realOf (.fin neg m e k) < 0) = neg ∧ decide (0 < realOf (.fin neg m e k)) = !neg := by
  have magnitude : (0 : ℚ) < |realOf (.fin neg m e k)| := by
    rw [abs_realOf_fin]
    positivity
  rw [realOf_fin]
  cases neg <;> simp [magnitude, magnitude.not_gt]

/-- R42: the model rounds to an integer as the statement does. -/
theorem integerOf_eq_intRounded {mode : Nat} (hm : mode < 6) (r : Nat) (neg : Bool) (m : Nat) (e : Int) :
    integerOf mode r neg m e = intRounded mode r (realOf (.fin neg m e false)) := by
  rw [intRounded_eq, floor_abs_realOf, abs_realOf_split, Int.cast_natCast, add_sub_cancel_left, integerOf, scaledInt_ite]
  rcases eq_or_ne m 0 with rfl | h0
  · have no_part : intPart 0 e = 0 := by simp [intPart]
    have no_rest : leftOver 0 e = 0 := by simp [leftOver]
    rw [no_part, no_rest, roundsUp_exact]
    simp [movesUp_exact]
  · obtain ⟨below, above⟩ := sign_realOf neg h0 e false
    have signs : realOf (.fin neg m e false) < 0 ↔ neg = true := decide_eq_true_iff.symm.trans (by rw [below])
    rw [below, above, movesUp_eq_roundsUp hm r neg _ (leftOver_lt m e), if_congr signs rfl rfl]

/-- R42: a value is an integer exactly where nothing is left over. -/
theorem integerOf_exact_iff (mode r : Nat) (neg : Bool) (m : Nat) (e : Int) :
    (integerOf mode r neg m e : ℚ) = realOf (.fin neg m e false) ↔ leftOver m e = 0 := by
  obtain ⟨h0, h1⟩ := fraction_range m e
  constructor
  · intro h
    obtain ⟨n, hn⟩ : ∃ n, integerOf mode r neg m e = scaledInt neg n := ⟨_, rfl⟩
    have magnitude := congrArg abs h
    rw [hn, abs_scaledInt, abs_realOf_split] at magnitude
    have lower : intPart m e ≤ n := by exact_mod_cast (by linarith : (intPart m e : ℚ) ≤ n)
    have upper : n < intPart m e + 1 := by exact_mod_cast (by linarith : (n : ℚ) < (intPart m e : ℚ) + 1)
    rw [show n = intPart m e by omega, left_eq_add, div_eq_zero_iff] at magnitude
    exact_mod_cast magnitude.resolve_right (by positivity)
  · intro h
    rw [realOf_fin, abs_realOf_split, integerOf, h, roundsUp_exact, scaledInt_ite]
    cases neg <;> simp

/-- R42: an exact value saturates, or is rounded with NX where something is left over. -/
theorem floatToInt_fin (signed : Bool) (w mode r : Nat) (neg : Bool) (m : Nat) (e : Int) :
    floatToInt signed w mode r (.fin neg m e false) =
      if integerOf mode r neg m e < intMin signed w then (intMin signed w, flagNV)
      else if intMax signed w < integerOf mode r neg m e then (intMax signed w, flagNV)
      else (integerOf mode r neg m e, if leftOver m e ≠ 0 then flagNX else 0) := by
  have : (leftOver m e != 0 || false) = true ↔ leftOver m e ≠ 0 := by simp
  rw [← if_congr this rfl rfl]
  rfl

theorem intMin_eq (signed : Bool) (w : Nat) : intMin signed w = if signed = true then -2 ^ (w - 1) else 0 := by
  simp [intMin]

theorem intMax_eq (signed : Bool) (w : Nat) : intMax signed w = if signed = true then 2 ^ (w - 1) - 1 else 2 ^ w - 1 := by
  simp [intMax]

theorem floatToIntRules_holds : floatToIntRules := by
  intro signed w mode r x hw hm hr lo hi g k
  have hlo : lo = intMin signed w := (intMin_eq signed w).symm
  have hhi : hi = intMax signed w := (intMax_eq signed w).symm
  refine ⟨?_, ?_, ?_, fun hx => ?_⟩
  · rintro rfl
    rfl
  · rintro rfl
    rw [hhi]
    rfl
  · rintro rfl
    rw [hlo]
    rfl
  · cases x with
    | nan => exact hx.elim
    | inf => exact hx.elim
    | fin neg m e sticky =>
      obtain rfl : sticky = false := hx
      have hg := floatToInt_fin signed w mode r neg m e
      have exact_iff := integerOf_exact_iff mode r neg m e
      rw [integerOf_eq_intRounded hm] at hg exact_iff
      rw [hlo, hhi]
      obtain ⟨h1, h2⟩ := readInt_range hw signed 0
      refine ⟨fun h => ?_, fun h => ?_, fun h h' => ?_⟩
      · exact hg.trans (if_pos h)
      · refine hg.trans ((if_neg ?_).trans (if_pos h))
        exact not_lt.2 (h1.trans (h2.trans h.le))
      · refine hg.trans ((if_neg (not_lt.2 h)).trans ((if_neg (not_lt.2 h')).trans ?_))
        rw [ite_not, if_congr exact_iff rfl rfl]

/-- Settles O19: each instruction rounds or compares its sources' values; a conversion splits a magnitude at the binary point. -/
theorem scalarFloat : Obligations.ScalarFloat := ⟨scalarFloatRules_holds, scalarFloatCompareRules_holds, floatToIntRules_holds⟩

end Sys2Proof.Machine
end

section
/-! Proofs for file 06. Part 1: elements packed into a vector register, lane masks and flags (R39, R83, R118). -/

namespace Sys2Proof.Machine

open Sys2Proof.Claims

/-! Packed elements. -/

theorem packNat_lt (b : Nat) (es : List Nat) : packNat b es < 2 ^ (b * es.length) := by
  induction es with
  | nil => simp [packNat]
  | cons e es ih =>
    have digit : e % 2 ^ b < 2 ^ b := Nat.mod_lt _ (Nat.two_pow_pos b)
    have split : 2 ^ (b * (e :: es).length) = 2 ^ b * 2 ^ (b * es.length) := by
      rw [List.length_cons, Nat.mul_succ, Nat.add_comm, pow_add]
    calc packNat b (e :: es) = e % 2 ^ b + 2 ^ b * packNat b es := rfl
      _ < 2 ^ b + 2 ^ b * packNat b es := Nat.add_lt_add_right digit _
      _ = 2 ^ b * (packNat b es + 1) := by rw [Nat.mul_succ, Nat.add_comm]
      _ ≤ 2 ^ b * 2 ^ (b * es.length) := Nat.mul_le_mul_left _ ih
      _ = 2 ^ (b * (e :: es).length) := split.symm

/-- The digits of a packed number; past the list they are zero. -/
theorem packNat_digit (b : Nat) (es : List Nat) (j : Nat) : packNat b es / 2 ^ (b * j) % 2 ^ b = es.getD j 0 % 2 ^ b := by
  induction es generalizing j with
  | nil => simp [packNat]
  | cons e es ih =>
    cases j with
    | zero => simp [packNat]
    | succ j =>
      have shifted : packNat b (e :: es) / 2 ^ b = packNat b es := by
        rw [packNat, Nat.add_mul_div_left _ _ (Nat.two_pow_pos b), Nat.div_eq_of_lt (Nat.mod_lt _ (Nat.two_pow_pos b)), Nat.zero_add]
      rw [Nat.mul_succ, Nat.add_comm, pow_add, ← Nat.div_div_eq_div_mul, shifted, ih, List.getD_cons_succ]

/-- R118: element j of a packed register is the j-th of the list, and zero past it. -/
theorem elemAt_packV {b : Nat} {es : List Nat} (h : b * es.length ≤ 2048) (j : Nat) :
    elemAt b (packV b es) j = es.getD j 0 % 2 ^ b := by
  have fits := (packNat_lt b es).trans_le (Nat.pow_le_pow_right Nat.two_pos h)
  rw [elemAt, packV, BitVec.toNat_ofNat, Nat.mod_eq_of_lt fits, Nat.shiftRight_eq_div_pow, packNat_digit]

/-- A register packed from one value per element. -/
theorem elemAt_packV_range (b : Nat) (g : Nat → Nat) {j : Nat} (hj : j < 2048 / b) :
    elemAt b (packV b ((List.range (elemCount b)).map g)) j = g j % 2 ^ b := by
  have fits : b * ((List.range (elemCount b)).map g).length ≤ 2048 := by
    rw [List.length_map, List.length_range]
    exact Nat.mul_div_le 2048 b
  rw [elemAt_packV fits]
  simp [elemCount, hj]

@[simp] theorem elemAt_mod (b : Nat) (v : VReg) (j : Nat) : elemAt b v j % 2 ^ b = elemAt b v j := Nat.mod_mod _ _

/-! Flags. -/

/-- R39: a flag of a list is a flag of one of its members. -/
theorem orFlags_getLsbD (l : List Flags) (k : Nat) : (orFlags l).getLsbD k = true ↔ ∃ fl ∈ l, fl.getLsbD k = true := by
  induction l with
  | nil => simp [orFlags]
  | cons fl l ih => simp [orFlags, ih]

/-- A list of results that raise NV or nothing. -/
theorem orFlags_of_nv {l : List Flags} (h : ∀ fl ∈ l, fl = 0 ∨ fl = flagNV) : orFlags l = if flagNV ∈ l then flagNV else 0 := by
  induction l with
  | nil => rfl
  | cons fl l ih =>
    obtain ⟨head, tail⟩ := List.forall_mem_cons.1 h
    rw [orFlags, ih tail]
    rcases head with rfl | rfl
    · have member : flagNV ∈ 0 :: l ↔ flagNV ∈ l := by simp [flagNV]
      rw [if_congr member rfl rfl]
      exact BitVec.zero_or
    · by_cases hl : flagNV ∈ l <;> simp [hl]

@[simp] theorem raise_zero (r : Strand) : raise r 0 = r := by simp [raise, statusOr]

/-! Elements merged under a mask (R83, R121). -/

theorem mapElems_merged (b : Nat) (m : Word) (zm : Bool) (old : VReg) (g : Nat → Nat × Flags) :
    Merged b (mapElems b m zm old g).1 old (elemActive b m) zm (fun j => (g j).1) := by
  intro j hj
  rw [mapElems, List.map_map, elemAt_packV_range b _ hj, Function.comp_apply]
  cases elemActive b m j
  · cases zm <;> simp [inactive]
  · rfl

theorem mapElems_flagsOver (b : Nat) (m : Word) (zm : Bool) (old : VReg) (g : Nat → Nat × Flags) :
    FlagsOver (2048 / b) (elemActive b m) (fun j => (g j).2) (mapElems b m zm old g).2 := by
  have flag_of (j k : Nat) : (if elemActive b m j then g j else (inactive zm (elemAt b old j), 0)).2.getLsbD k = true ↔
      elemActive b m j = true ∧ (g j).2.getLsbD k = true := by
    cases elemActive b m j <;> simp
  intro k
  simp only [mapElems, orFlags_getLsbD, List.map_map, List.mem_map, List.mem_range, exists_exists_and_eq_and, Function.comp_apply,
    flag_of, elemCount]

/-! Packed masks. -/

theorem packMask_testBit (l : List Bool) (j : Nat) : (packMask l).testBit j = l.getD j false := by
  induction l generalizing j with
  | nil => simp [packMask]
  | cons a l ih =>
    cases j with
    | zero => cases a <;> simp [packMask, Nat.testBit_zero]
    | succ j =>
      have shifted : packMask (a :: l) / 2 = packMask l := by
        cases a <;> simp only [packMask, Bool.false_eq_true, if_false, if_true] <;> omega
      rw [Nat.testBit_succ, shifted, ih, List.getD_cons_succ]

/-- Bit l of a mask with one bit per lane. -/
theorem ofNat_packMask_getLsbD (g : Nat → Bool) {l : Nat} (hl : l < 64) :
    (BitVec.ofNat 64 (packMask ((List.range 64).map g))).getLsbD l = g l := by
  rw [BitVec.getLsbD_ofNat, packMask_testBit]
  simp [hl]

/-! Numbers of a range that a test selects. -/

/-- A selected number stands in the filtered range after the selected ones below it. -/
theorem filter_range_split {p : Nat → Bool} {i n : Nat} (hi : i < n) (hp : p i = true) :
    (List.range n).filter p = (List.range i).filter p ++ i :: (List.range' (i + 1) (n - (i + 1))).filter p := by
  have whole : List.range n = List.range i ++ i :: List.range' (i + 1) (n - (i + 1)) := by
    have tail : List.range' i (n - i) = i :: List.range' (i + 1) (n - (i + 1)) := by
      rw [show n - i = n - (i + 1) + 1 by omega, List.range'_succ]
    rw [← tail, List.range_eq_range', List.range_eq_range', show n = i + (n - i) by omega]
    simpa using (List.range'_append (s := 0) (m := i) (n := n - i) (step := 1)).symm
  rw [whole, List.filter_append, List.filter_cons_of_pos hp]

/-- The numbers below a bound. -/
theorem filter_lt_range {l n : Nat} (h : l ≤ n) : (List.range n).filter (fun k => decide (k < l)) = List.range l := by
  induction n, h using Nat.le_induction with
  | base => exact List.filter_eq_self.2 fun k hk => by simpa using hk
  | succ n hn ih => simp [List.range_succ, ih, hn]

/-- The last selected number of a range. -/
theorem getLast?_filter_range {p : Nat → Bool} {i n : Nat} (hi : i < n) (hp : p i = true)
    (last : ∀ k, i < k → k < n → p k = false) : ((List.range n).filter p).getLast? = some i := by
  have none_above : (List.range' (i + 1) (n - (i + 1))).filter p = [] := by
    rw [List.filter_eq_nil_iff]
    intro k hk
    rw [List.mem_range'_1] at hk
    simp [last k (by omega) (by omega)]
  simp [filter_range_split hi hp, none_above]

end Sys2Proof.Machine
end

section
/-! Part 2: vector instructions that issue, and elementwise arithmetic (R119, R121, R122). -/

namespace Sys2Proof.Machine

open Sys2Proof.Claims

variable {f : Fields} {s : State} {i : Instr} {srcs : List Nat} {dst : Option Nat}

/-- R119: a vector instruction whose registers and ports are ready has its effect on the strand after the pops. -/
theorem vecIssue_of_ready (k : Strand → List VReg → Strand → State) (hr : Ready i s) (hp : PortsReady s srcs dst) :
    vecIssue i s false none srcs dst k = .next (k s.me (srcs.map (readVP s.me)) (popPorts s.me srcs)) := by
  obtain ⟨ports, sound⟩ := hp
  rw [vecIssue, issue_of_ready _ hr]
  simp only [ports, sound, Bool.false_eq_true, if_false]

section VectorDestination

variable {mode : Strand → Nat} {g : Strand → List VReg → VReg → VReg × Flags}

theorem exec_of_vecOp (hr : Ready i s) (hp : PortsReady s srcs (some f.d.toNat)) (hi : exec i s = vecOp i f s srcs mode g) :
    exec i s = .next (s.retire (countSr (raise
      (writeVP (popPorts s.me srcs) f.d.toNat (g s.me (srcs.map (readVP s.me)) (readDst s.me f.d.toNat)).1)
      (g s.me (srcs.map (readVP s.me)) (readDst s.me f.d.toNat)).2) (mode s.me)) f) :=
  hi.trans (vecIssue_of_ready _ hr hp)

/-- A vector instruction that merges one result per element. -/
theorem elementwise_of_vecOp {b : Nat} {each : Nat → Nat × Flags} (hr : Ready i s) (hp : PortsReady s srcs (some f.d.toNat))
    (hi : exec i s = vecOp i f s srcs mode g)
    (hg : g s.me (srcs.map (readVP s.me)) (readDst s.me f.d.toNat) =
      mapElems b (laneMask s.me f) f.zm (readDst s.me f.d.toNat) each) :
    Elementwise i f s srcs (mode s.me) b each := by
  have h := exec_of_vecOp hr hp hi
  rw [hg] at h
  exact ⟨_, _, h, mapElems_merged _ _ _ _ _, mapElems_flagsOver _ _ _ _ _⟩

end VectorDestination

/-! Elementwise arithmetic. -/

/-- R45, R121: `roundElem` rounds as the statements do. -/
theorem roundElem_eq (s : State) (f : Fields) (j : Nat) (x : FVal) : roundElem s.me f j (x, 0) = roundedAt s f j x :=
  Prod.ext rfl BitVec.or_zero

theorem arith_elementwise {gf : Nat → FVal → FVal → FVal} {gi : Int → Int → Int} (hi : exec i s = arith i f s gf gi)
    (hr : Ready i s) (hp : PortsReady s [f.a.toNat, f.b.toNat] (some f.d.toNat)) :
    Elementwise i f s [f.a.toNat, f.b.toNat] (floatMode f s.me) (fmtWidth f.fmt.toNat) fun j =>
      if isFloatFmt f.fmt.toNat then
        roundedAt s f j (gf (resolveMode s.me.status f.rm) (floatAt s f f.a.toNat j) (floatAt s f f.b.toNat j))
      else (deliverInt f.fmt.toNat f.s (gi (intAt s f f.a.toNat j) (intAt s f f.b.toNat j)), 0) := by
  refine elementwise_of_vecOp hr hp hi ?_
  simp only [roundElem_eq]
  rfl

theorem arith3_elementwise {g : Nat → FVal → FVal → FVal → FVal} (hi : exec i s = arith3 i f s g)
    (hr : Ready i s) (hp : PortsReady s [f.a.toNat, f.b.toNat, f.c.toNat] (some f.d.toNat)) :
    Elementwise i f s [f.a.toNat, f.b.toNat, f.c.toNat] (resolveMode s.me.status f.rm) (fmtWidth f.fmt.toNat) fun j =>
      roundedAt s f j (g (resolveMode s.me.status f.rm) (floatAt s f f.a.toNat j) (floatAt s f f.b.toNat j)
        (floatAt s f f.c.toNat j)) := by
  refine elementwise_of_vecOp hr hp hi ?_
  simp only [roundElem_eq]
  rfl

/-- R117, R122: an operation that rounds nothing, by the sources' values as they stand. -/
theorem arithExact_elementwise {gf : FVal → FVal → FVal} {gi : Int → Int → Int} (hi : exec i s = arithExact i f s srcs gf gi)
    (hr : Ready i s) (hp : PortsReady s srcs (some f.d.toNat)) :
    let F := strandFmt s.me f.fmt.toNat
    let x (n j : Nat) := elemAt (fmtWidth f.fmt.toNat) (src (srcs.map (readVP s.me)) n) j
    Elementwise i f s srcs 0 (fmtWidth f.fmt.toNat) fun j =>
      if isFloatFmt f.fmt.toNat then deliver F 0 false 0 (gf (readFloat F (x 0 j)) (readFloat F (x 1 j)))
      else (deliverInt f.fmt.toNat f.s (gi (readFmtInt f.fmt.toNat (x 0 j)) (readFmtInt f.fmt.toNat (x 1 j))), 0) :=
  elementwise_of_vecOp hr hp hi rfl

theorem exec_vMin_eq (f : Fields) (s : State) :
    exec (.vMin f) s = arithExact (.vMin f) f s [f.a.toNat, f.b.toNat] minVal min := by
  rw [exec_vMin, execVMin]
  congr 1
  funext m n
  exact (min_def_lt m n).symm

theorem exec_vMax_eq (f : Fields) (s : State) :
    exec (.vMax f) s = arithExact (.vMax f) f s [f.a.toNat, f.b.toNat] maxVal max := by
  rw [exec_vMax, execVMax]
  congr 1
  funext m n
  exact (max_def_lt m n).symm

theorem exec_vAbs_eq (f : Fields) (s : State) :
    exec (.vAbs f) s = arithExact (.vAbs f) f s [f.a.toNat] (fun a _ => absVal a) fun m _ => |m| := by
  rw [exec_vAbs, execVAbs]
  congr 1
  funext m n
  exact (Int.abs_eq_natAbs m).symm

/-- Settles O20: each instruction merges one delivered result per element. -/
theorem vectorArithmetic : Obligations.VectorArithmetic := by
  intro f s c b mode x y z m n two three sum fused exact
  refine ⟨?_, ?_, ?_, ?_, ?_, ?_, ?_, ?_, ?_, ?_⟩
  · exact (arith_elementwise (exec_vAdd f s) :)
  · exact (arith_elementwise (exec_vSub f s) :)
  · exact (arith_elementwise (exec_vMul f s) :)
  · exact (arith3_elementwise (exec_vFma f s) :)
  · exact (arith3_elementwise (exec_vFms f s) :)
  · exact (arith3_elementwise (exec_vFnma f s) :)
  · exact (arithExact_elementwise (exec_vMin_eq f s) :)
  · exact (arithExact_elementwise (exec_vMax_eq f s) :)
  · exact (arithExact_elementwise (exec_vAbs_eq f s) :)
  · exact (arithExact_elementwise (exec_vNeg f s) :)

end Sys2Proof.Machine
end

section
/-! Part 3: instructions that move lanes and elements (R130). -/

namespace Sys2Proof.Machine

open Sys2Proof.Claims

variable {f : Fields} {s : State} {i : Instr} {srcs : List Nat}

/-- A vector instruction that raises no flag and rounds nothing. -/
theorem exec_of_silent_vecOp {g : Strand → List VReg → VReg → VReg × Flags} {v : VReg} (hr : Ready i s)
    (hp : PortsReady s srcs (some f.d.toNat)) (hi : exec i s = vecOp i f s srcs noMode g)
    (hg : g s.me (srcs.map (readVP s.me)) (readDst s.me f.d.toNat) = (v, 0)) :
    exec i s = .next (s.retire (writeVP (popPorts s.me srcs) f.d.toNat v) f) := by
  have h := exec_of_vecOp hr hp hi
  rwa [hg, raise_zero] at h

/-- Results that agree on the elements of the register are merged alike. -/
theorem elementwise_congr {mode b : Nat} {each each' : Nat → Nat × Flags} (h : Elementwise i f s srcs mode b each)
    (he : ∀ j, j < 2048 / b → each j = each' j) : Elementwise i f s srcs mode b each' := by
  obtain ⟨v, fl, hx, hv, hfl⟩ := h
  refine ⟨v, fl, hx, fun j hj => ?_, fun k => (hfl k).trans ?_⟩
  · have := hv j hj
    simpa only [he j hj] using this
  · exact exists_congr fun j => and_congr_right fun hj => by simp only [he j hj]

/-! Elements that move one by one. -/

theorem vPerm_moves (hr : Ready (.vPerm f) s) (hp : PortsReady s [f.a.toNat, f.b.toNat] (some f.d.toNat)) :
    Elementwise (.vPerm f) f s [f.a.toNat, f.b.toNat] 0 (fmtWidth f.fmt.toNat) fun j =>
      (operand s (fmtWidth f.fmt.toNat) f.a.toNat (operand s (fmtWidth f.fmt.toNat) f.b.toNat j % (2048 / fmtWidth f.fmt.toNat)), 0) :=
  elementwise_of_vecOp hr hp (exec_vPerm f s) rfl

theorem vBcast_moves (hr : Ready (.vBcast f) s) (hp : PortsReady s [f.a.toNat] (some f.d.toNat)) :
    Elementwise (.vBcast f) f s [f.a.toNat] 0 (fmtWidth f.fmt.toNat) fun _ =>
      (operand s (fmtWidth f.fmt.toNat) f.a.toNat (elemIndex s.me f), 0) :=
  elementwise_of_vecOp hr hp (exec_vBcast f s) rfl

theorem vSplat_moves (hr : Ready (.vSplat f) s) (hp : PortsReady s [] (some f.d.toNat)) :
    Elementwise (.vSplat f) f s [] 0 (fmtWidth f.fmt.toNat) fun _ => ((readX s.me f.a.toNat).toNat, 0) :=
  elementwise_of_vecOp hr hp (exec_vSplat f s) rfl

theorem vIota_moves (hr : Ready (.vIota f) s) (hp : PortsReady s [] (some f.d.toNat)) :
    Elementwise (.vIota f) f s [] 0 (fmtWidth f.fmt.toNat) fun j =>
      ((readX s.me f.a.toNat + BitVec.ofNat 64 j * immOf f).toNat, 0) :=
  elementwise_of_vecOp hr hp (exec_vIota f s) rfl

theorem vMov_moves (hr : Ready (.vMov f) s) (hp : PortsReady s [f.a.toNat] (some f.d.toNat)) :
    Elementwise (.vMov f) f s [f.a.toNat] 0 32 fun l => (operand s 32 f.a.toNat l, 0) :=
  elementwise_of_vecOp hr hp (exec_vMov f s) rfl

/-! One element into a register, or out of one. -/

theorem vIns_moves (hr : Ready (.vIns f) s) (hp : PortsReady s [] (some f.d.toNat)) :
    ∃ v, exec (.vIns f) s = .next (s.retire (writeVP s.me f.d.toNat v) f) ∧
      ∀ j, j < 2048 / fmtWidth f.fmt.toNat → elemAt (fmtWidth f.fmt.toNat) v j =
        if j = elemIndex s.me f then (readX s.me f.a.toNat).toNat % 2 ^ fmtWidth f.fmt.toNat
        else elemAt (fmtWidth f.fmt.toNat) (readDst s.me f.d.toNat) j := by
  refine ⟨_, exec_of_silent_vecOp hr hp (exec_vIns f s) rfl, fun j hj => ?_⟩
  rw [elemAt_packV_range _ _ hj, apply_ite (· % 2 ^ fmtWidth f.fmt.toNat), elemAt_mod]

/-- An element read as a natural is its bits. -/
theorem extend64_false_elemAt (b : Nat) (v : VReg) (j : Nat) : extend64 false b (elemAt b v j) = BitVec.ofNat 64 (elemAt b v j) := by
  simp [extend64, readInt]

/-- R130: a floating element is zero-extended, an integer one by its format. -/
theorem extend64_elemAt {c : Nat} (hc : c ≠ 15) (v : VReg) (j : Nat) :
    extend64 (!isFloatFmt c && fmtSigned c) (fmtWidth c) (elemAt (fmtWidth c) v j) =
      if isFloatFmt c then BitVec.ofNat 64 (elemAt (fmtWidth c) v j)
      else BitVec.ofInt 64 (readFmtInt c (elemAt (fmtWidth c) v j)) := by
  cases hfl : isFloatFmt c
  · rw [readFmtInt, if_neg hc]
    rfl
  · exact extend64_false_elemAt _ v j

theorem vExt_moves (hc : f.fmt.toNat ≠ 15) (hr : Ready (.vExt f) s) (hp : PortsReady s [f.a.toNat] none) :
    exec (.vExt f) s = .next (s.retire (writeX (popPorts s.me [f.a.toNat]) f.d.toNat
      (if isFloatFmt f.fmt.toNat then BitVec.ofNat 64 (operand s (fmtWidth f.fmt.toNat) f.a.toNat (elemIndex s.me f))
        else BitVec.ofInt 64 (readFmtInt f.fmt.toNat (operand s (fmtWidth f.fmt.toNat) f.a.toNat (elemIndex s.me f))))) f) := by
  refine ((exec_vExt f s).trans (vecIssue_of_ready _ hr hp)).trans ?_
  simp only [extend64_elemAt hc]
  rfl

/-! Lanes closed up and spread out. -/

/-- The number of active lanes below a lane. -/
def lanesBelow (m : Word) (l : Nat) : Nat := ((List.range l).filter fun k => m.getLsbD k).length

/-- A lane's place among the active ones is the number of those below it. -/
theorem activeLanes_filter_lt (m : Word) {l : Nat} (hl : l ≤ 64) :
    ((activeLanes m).filter fun k => decide (k < l)).length = lanesBelow m l := by
  rw [activeLanes, List.filter_comm, filter_lt_range hl, lanesBelow]

theorem activeLanes_getElem? {m : Word} {l : Nat} (hl : l < 64) (hm : m.getLsbD l = true) :
    (activeLanes m)[lanesBelow m l]? = some l := by
  rw [activeLanes, filter_range_split hl hm, lanesBelow, List.getElem?_append_right le_rfl, Nat.sub_self, List.getElem?_cons_zero]

theorem length_activeLanes (m : Word) : (activeLanes m).length = lanesBelow m 64 := rfl

theorem vExpd_moves (hr : Ready (.vExpd f) s) (hp : PortsReady s [f.a.toNat] (some f.d.toNat)) :
    Elementwise (.vExpd f) f s [f.a.toNat] 0 32 fun l => (operand s 32 f.a.toNat (lanesBelow (laneMask s.me f) l), 0) := by
  refine elementwise_congr (elementwise_of_vecOp hr hp (exec_vExpd f s) rfl) fun l hl => ?_
  rw [activeLanes_filter_lt _ (le_of_lt hl)]
  rfl

theorem vCpr_moves (hr : Ready (.vCpr f) s) (hp : PortsReady s [f.a.toNat] (some f.d.toNat)) :
    ∃ v, exec (.vCpr f) s = .next (s.retire (writeVP (popPorts s.me [f.a.toNat]) f.d.toNat v) f) ∧
      (∀ l, l < 64 → (laneMask s.me f).getLsbD l = true →
        elemAt 32 v (lanesBelow (laneMask s.me f) l) = operand s 32 f.a.toNat l) ∧
      ∀ m, lanesBelow (laneMask s.me f) 64 ≤ m → m < 64 → elemAt 32 v m = 0 := by
  have fits : 32 * ((activeLanes (laneMask s.me f)).map (elemAt 32 (readVP s.me f.a.toNat))).length ≤ 2048 := by
    have := List.length_filter_le (fun l => (laneMask s.me f).getLsbD l) (List.range 64)
    rw [List.length_range] at this
    rw [List.length_map, activeLanes]
    omega
  refine ⟨_, exec_of_silent_vecOp hr hp (exec_vCpr f s) rfl, fun l hl hm => ?_, fun m hm _ => ?_⟩
  · refine (elemAt_packV fits _).trans ?_
    rw [List.getD_eq_getElem?_getD, List.getElem?_map, activeLanes_getElem? hl hm]
    exact elemAt_mod ..
  · refine (elemAt_packV fits _).trans ?_
    rw [List.getD_eq_default _ _ (by rwa [List.length_map, length_activeLanes]), Nat.zero_mod]

/-- Settles O25: elements are merged or packed as they stand, and no flag is raised. -/
theorem vectorMoves : Obligations.VectorMoves := by
  intro f s c b n a idx active before el one
  refine ⟨fun hc => ⟨vPerm_moves, vBcast_moves, vSplat_moves, vIota_moves, vIns_moves, vExt_moves ?_⟩, vMov_moves, vExpd_moves,
    vCpr_moves⟩
  rintro (h : c = 15)
  rw [h] at hc
  exact absurd hc (by decide)

end Sys2Proof.Machine
end

section
/-! Part 4: finite values by their real numbers: sums, products and order (R36, R116). -/

namespace Sys2Proof.Machine

open Sys2Proof.Claims

/-! Two finite values over one power of two. -/

/-- A finite value as a whole number of units 2^e₀. -/
theorem realOf_fin_scaled (neg : Bool) (m : Nat) {e e₀ : Int} (k : Bool) (h : e₀ ≤ e) :
    realOf (.fin neg m e k) = (scaledInt neg (m * 2 ^ (e - e₀).toNat) : ℚ) * 2 ^ e₀ := by
  have split : (2 : ℚ) ^ e = 2 ^ (e - e₀).toNat * 2 ^ e₀ := by
    rw [← zpow_natCast, ← zpow_add₀ two_ne_zero]
    congr 1
    omega
  rw [realOf, split]
  cases neg <;> simp [scaledInt, mul_assoc]

/-- The smaller of two exponents, as the model takes it. -/
theorem common_exponent (ea eb : Int) : (if ea < eb then ea else eb) ≤ ea ∧ (if ea < eb then ea else eb) ≤ eb := by
  split <;> omega

/-- R116: finite values compare as their real numbers do. -/
theorem cmpVal_fin (na nb : Bool) (ma mb : Nat) (ea eb : Int) (ka kb : Bool) :
    cmpVal (.fin na ma ea ka) (.fin nb mb eb kb) = compare (realOf (.fin na ma ea ka)) (realOf (.fin nb mb eb kb)) := by
  obtain ⟨ha, hb⟩ := common_exponent ea eb
  rw [realOf_fin_scaled na ma ka ha, realOf_fin_scaled nb mb kb hb, cmpVal]
  generalize (if ea < eb then ea else eb) = e
  have unit : (0 : ℚ) < 2 ^ e := zpow_pos two_pos e
  have mono : StrictMono fun i : Int => (i : ℚ) * 2 ^ e := fun i j h => mul_lt_mul_of_pos_right (Int.cast_lt.2 h) unit
  rw [← cmp_eq_compare, ← cmp_eq_compare]
  exact (mono.cmp_map_eq _ _).symm

theorem realOf_eq_zero_iff (neg : Bool) (m : Nat) (e : Int) (k : Bool) : realOf (.fin neg m e k) = 0 ↔ m = 0 := by
  have unit : (2 : ℚ) ^ e ≠ 0 := (zpow_pos two_pos e).ne'
  cases neg <;> simp [realOf, unit]

theorem realOf_nonneg_iff (neg : Bool) (m : Nat) (e : Int) (k : Bool) : 0 ≤ realOf (.fin neg m e k) ↔ m = 0 ∨ neg = false := by
  rcases eq_or_ne m 0 with rfl | hm
  · simp [realOf]
  · obtain ⟨below, _⟩ := sign_realOf neg hm e k
    rw [← not_lt, ← decide_eq_true_iff (p := realOf _ < 0), below]
    simp [hm]

/-! Operations on exact values. -/

/-- An exact value is a finite one with nothing below its last bit. -/
theorem exact_iff {x : FVal} : Exact x ↔ ∃ neg m e, x = .fin neg m e false := by
  cases x <;> simp [Exact]

theorem cmpVal_of_exact {a b : FVal} (ha : Exact a) (hb : Exact b) : cmpVal a b = compare (realOf a) (realOf b) := by
  obtain ⟨na, ma, ea, rfl⟩ := exact_iff.1 ha
  obtain ⟨nb, mb, eb, rfl⟩ := exact_iff.1 hb
  exact cmpVal_fin ..

/-- R114: the product is exact. -/
theorem mulVal_of_exact {a b : FVal} (ha : Exact a) (hb : Exact b) :
    Exact (mulVal a b) ∧ realOf (mulVal a b) = realOf a * realOf b := by
  obtain ⟨na, ma, ea, rfl⟩ := exact_iff.1 ha
  obtain ⟨nb, mb, eb, rfl⟩ := exact_iff.1 hb
  refine ⟨rfl, ?_⟩
  simp only [mulVal, realOf, zpow_add₀ (two_ne_zero (α := ℚ)), Nat.cast_mul]
  cases na <;> cases nb <;> simp <;> ring

/-- A whole number of units 2^e, by its sign and magnitude. -/
theorem realOf_natAbs (t e : Int) : realOf (.fin (decide (t < 0)) t.natAbs e false) = (t : ℚ) * 2 ^ e := by
  have magnitude : (t.natAbs : ℚ) = |(t : ℚ)| := by rw [Nat.cast_natAbs, Int.cast_abs]
  rcases lt_or_ge t 0 with h | h
  · rw [realOf, magnitude, abs_of_neg (by exact_mod_cast h)]
    simp [h]
  · rw [realOf, magnitude, abs_of_nonneg (by exact_mod_cast h)]
    simp [h.not_gt]

/-- R36, R114: the sum is exact, in every mode. -/
theorem addVal_of_exact (mode : Nat) {a b : FVal} (ha : Exact a) (hb : Exact b) :
    Exact (addVal mode a b) ∧ realOf (addVal mode a b) = realOf a + realOf b := by
  obtain ⟨na, ma, ea, rfl⟩ := exact_iff.1 ha
  obtain ⟨nb, mb, eb, rfl⟩ := exact_iff.1 hb
  have zero (neg : Bool) (e : Int) : realOf (.fin neg 0 e false) = 0 := (realOf_eq_zero_iff ..).2 rfl
  obtain ⟨hea, heb⟩ := common_exponent ea eb
  simp only [addVal, Bool.and_eq_true, decide_eq_true_eq]
  generalize (if ea < eb then ea else eb) = e at *
  split
  · next both =>
    obtain ⟨rfl, rfl⟩ := both
    exact ⟨rfl, by simp only [zero, add_zero]⟩
  split
  · next hma =>
    subst hma
    exact ⟨rfl, by rw [zero na, zero_add]⟩
  split
  · next hmb =>
    subst hmb
    exact ⟨rfl, by rw [zero nb, add_zero]⟩
  split
  · next opposite =>
    refine ⟨rfl, ?_⟩
    rw [zero, realOf_fin_scaled na ma false hea, realOf_fin_scaled nb mb false heb, ← add_mul, ← Int.cast_add, opposite]
    simp
  · refine ⟨rfl, ?_⟩
    rw [realOf_natAbs, Int.cast_add, add_mul, ← realOf_fin_scaled na ma false hea, ← realOf_fin_scaled nb mb false heb]

end Sys2Proof.Machine
end

section
/-! Part 5: sampling (R44, R132, R133). -/

namespace Sys2Proof.Machine

open Sys2Proof.Claims

variable {f : Fields} {s : State} {p q : FVal}

/-! The values that the tables of R132 and R133 distinguish. -/

/-- R132: above zero, +∞ included. -/
def Positive (x : FVal) : Prop := x = .inf false ∨ (Exact x ∧ 0 < realOf x)

/-- R132, R133: finite and not below −0. -/
def IsMass (x : FVal) : Prop := Exact x ∧ 0 ≤ realOf x

/-- R132: a zero of either sign. -/
def IsZero (x : FVal) : Prop := Exact x ∧ realOf x = 0

/-- R132: a q that decides: a NaN, which stands for 1, or a finite value not below −0. -/
def Scaling (q : FVal) : Prop := q = .nan ∨ IsMass q

/-- R132: the factor that q stands for. -/
def factorOf (q : FVal) : ℚ := if q.isNan then 1 else realOf q

/-- What a format holds: nothing below the last bit of a finite value. -/
def Held (x : FVal) : Prop := x = .nan ∨ (∃ neg, x = .inf neg) ∨ ∃ neg m e, x = .fin neg m e false

theorem readFloat_held (F : FFmt) (bits : Nat) : Held (readFloat F bits) := by
  unfold readFloat
  dsimp only
  split
  · split
    · exact .inr (.inl ⟨_, rfl⟩)
    · exact .inl rfl
  · split <;> exact .inr (.inr ⟨_, _, _, rfl⟩)

/-! The model's tests are those classes. -/

theorem isZero_iff (x : FVal) : x.isZero = true ↔ IsZero x := by
  cases x with
  | nan => simp [FVal.isZero, IsZero, Exact]
  | inf neg => simp [FVal.isZero, IsZero, Exact]
  | fin neg m e k => simp [FVal.isZero, IsZero, Exact, realOf_eq_zero_iff, and_comm]

theorem mass_iff {x : FVal} (hx : Held x) : x.mass = true ↔ IsMass x := by
  obtain rfl | ⟨neg, rfl⟩ | ⟨neg, m, e, rfl⟩ := hx
  · simp [FVal.mass, IsMass, Exact]
  · simp [FVal.mass, IsMass, Exact]
  · simp [FVal.mass, IsMass, Exact, realOf_nonneg_iff]

/-- R132: the rows of p: above zero, zero, and what raises NV. -/
theorem nonNeg_iff {x : FVal} (hx : Held x) : x.nonNeg = true ↔ Positive x ∨ IsZero x := by
  obtain rfl | ⟨neg, rfl⟩ | ⟨neg, m, e, rfl⟩ := hx
  · simp [FVal.nonNeg, Positive, IsZero, Exact]
  · simp [FVal.nonNeg, Positive, IsZero, Exact]
  · have := realOf_nonneg_iff neg m e false
    rw [le_iff_lt_or_eq, eq_comm] at this
    simpa [FVal.nonNeg, Positive, IsZero, Exact] using this.symm

theorem not_isZero_of_positive {x : FVal} (h : Positive x) : ¬ IsZero x := by
  rintro ⟨exact, zero⟩
  rcases h with rfl | ⟨_, pos⟩
  · exact exact.elim
  · exact pos.ne' zero

/-! One lane of `v.accept` (R132). -/

/-- R44: a draw as a fraction of 2^24. -/
def drawVal (r : Nat) : FVal := .fin false r (-24) false

theorem realOf_drawVal (r : Nat) : realOf (drawVal r) = (r : ℚ) / 2 ^ 24 := by
  rw [drawVal, realOf, zpow_neg, ← div_eq_mul_inv]
  simp

/-- R132: a lane raises NV where p is a NaN or below zero, and where q does not decide about a p above zero. -/
def Refused (p q : FVal) : Prop := (¬ Positive p ∧ ¬ IsZero p) ∨ (Positive p ∧ ¬ Scaling q)

/-- R132: a lane is accepted where u × q ≤ p, and always where p is +∞. -/
def Accepted (p q : FVal) (r : Nat) : Prop :=
  Positive p ∧ Scaling q ∧ (p = .inf false ∨ (r : ℚ) / 2 ^ 24 * factorOf q ≤ realOf p)

/-- What a lane answers: its bit, and its flag. -/
def Decides (d : Bool × Flags) (p q : FVal) (r : Nat) : Prop :=
  (d.1 = true ↔ Accepted p q r) ∧ ((d.2 = flagNV ∧ Refused p q) ∨ (d.2 = 0 ∧ ¬ Refused p q))

/-- A lane that raises NV has bit 0. -/
theorem decides_of_refused {r : Nat} (h : Refused p q) : Decides (false, flagNV) p q r := by
  have not_accepted : ¬ Accepted p q r := by
    rintro ⟨pos, scaling, _⟩
    rcases h with ⟨not_pos, _⟩ | ⟨_, not_scaling⟩
    · exact not_pos pos
    · exact not_scaling scaling
  exact ⟨iff_of_false Bool.false_ne_true not_accepted, .inl ⟨rfl, h⟩⟩

theorem decides_of_zero {r : Nat} (h : IsZero p) : Decides (false, 0) p q r := by
  have not_pos : ¬ Positive p := fun pos => not_isZero_of_positive pos h
  refine ⟨iff_of_false Bool.false_ne_true fun accepted => not_pos accepted.1, .inr ⟨rfl, ?_⟩⟩
  rintro (⟨_, not_zero⟩ | ⟨pos, _⟩)
  · exact not_zero h
  · exact not_pos pos

/-- A lane that both values decide raises nothing, and compares. -/
theorem decides_of_scaling {r : Nat} {bit : Bool} (hp : Positive p) (hq : Scaling q)
    (h : bit = true ↔ p = .inf false ∨ (r : ℚ) / 2 ^ 24 * factorOf q ≤ realOf p) : Decides (bit, 0) p q r := by
  refine ⟨h.trans ⟨fun le => ⟨hp, hq, le⟩, fun accepted => accepted.2.2⟩, .inr ⟨rfl, ?_⟩⟩
  rintro (⟨not_pos, _⟩ | ⟨_, not_scaling⟩)
  · exact not_pos hp
  · exact not_scaling hq

/-- What is compared with u × q: +∞ is above it, a finite p by its real number. -/
theorem cmpVal_ne_gt_iff {u : FVal} (hp : Positive p) (hu : Exact u) :
    (cmpVal u p != .gt) = true ↔ p = .inf false ∨ realOf u ≤ realOf p := by
  rcases hp with rfl | ⟨exact, _⟩
  · obtain ⟨neg, m, e, rfl⟩ := exact_iff.1 hu
    simp [cmpVal]
  · have finite : p ≠ .inf false := by
      rintro rfl
      exact exact.elim
    rw [bne_iff_ne, cmpVal_of_exact hu exact, compare_le_iff_le, or_iff_right finite]

/-- R117: a value above zero is less than another where it compares so. -/
theorem not_lessVal_iff {u : FVal} (hp : Positive p) (hu : Exact u) :
    (!lessVal p u) = true ↔ p = .inf false ∨ realOf u ≤ realOf p := by
  have not_zero : p.isZero = false := by
    rw [← Bool.not_eq_true, isZero_iff]
    exact not_isZero_of_positive hp
  have less : lessVal p u = decide (cmpVal p u = .lt) := by
    unfold lessVal
    cases cmpVal p u <;> simp [not_zero]
  rcases hp with rfl | ⟨exact, _⟩
  · obtain ⟨neg, m, e, rfl⟩ := exact_iff.1 hu
    simp [less, cmpVal]
  · have finite : p ≠ .inf false := by
      rintro rfl
      exact exact.elim
    rw [less, cmpVal_of_exact exact hu, or_iff_right finite]
    simp [compare_lt_iff_lt]

/-- R132: a lane decides by the table. -/
theorem acceptLane_decides (hp : Held p) (hq : Held q) (r : Nat) : Decides (acceptLane p q r) p q r := by
  unfold acceptLane
  split
  · next h =>
    refine decides_of_refused (.inl (not_or.1 fun h' => ?_))
    simp [(nonNeg_iff hp).2 h'] at h
  · next h =>
    split
    · next zero => exact decides_of_zero ((isZero_iff p).1 zero)
    · next not_zero =>
      rw [isZero_iff] at not_zero
      have pos : Positive p := by
        refine ((nonNeg_iff hp).1 ?_).resolve_right not_zero
        simpa using h
      obtain rfl | ⟨neg, rfl⟩ | ⟨neg, m, e, rfl⟩ := hq
      · refine decides_of_scaling pos (.inl rfl) ((not_lessVal_iff (u := drawVal r) pos rfl).trans ?_)
        simp [realOf_drawVal, factorOf, FVal.isNan]
      · exact decides_of_refused (.inr ⟨pos, by simp [Scaling, IsMass, Exact]⟩)
      · dsimp only
        split
        · next nonneg =>
          obtain ⟨exact, value⟩ := mulVal_of_exact (a := drawVal r) (b := .fin neg m e false) rfl rfl
          refine decides_of_scaling pos (.inr ⟨rfl, (realOf_nonneg_iff ..).2 (by simpa [FVal.nonNeg] using nonneg)⟩) ?_
          refine (cmpVal_ne_gt_iff pos exact).trans ?_
          rw [value, realOf_drawVal]
          rfl
        · next negative =>
          refine decides_of_refused (.inr ⟨pos, ?_⟩)
          simpa [Scaling, IsMass, Exact, realOf_nonneg_iff, FVal.nonNeg] using negative

end Sys2Proof.Machine
end

section
/-! Part 6: `v.accept` and `v.draw` (R132, R133). -/

namespace Sys2Proof.Machine

open Sys2Proof.Claims

variable {f : Fields} {s : State}

/-! SRCNT of the strand that an instruction leaves. -/

@[simp] theorem raise_srcnt (r : Strand) (fl : Flags) : (raise r fl).srcnt = r.srcnt := rfl

@[simp] theorem popPorts_srcnt (r : Strand) (srcs : List Nat) : (popPorts r srcs).srcnt = r.srcnt := by
  unfold popPorts
  induction srcs.dedup.filter (fun n => decide (32 ≤ n)) generalizing r with
  | nil => rfl
  | cons n ns ih => exact ih (popPort r (n - 32))

/-! The draft's lanes. -/

/-- The fp32 value of lane `l` of a vector source. -/
def fp32At (s : State) (n l : Nat) : FVal := readFloat (ffmt 10 false) (operand s 32 n l)

theorem fp32At_held (s : State) (n l : Nat) : Held (fp32At s n l) := readFloat_held ..

/-- The decision of lane `l`. -/
def laneDecision (s : State) (f : Fields) (l : Nat) : Bool × Flags :=
  acceptLane (fp32At s f.a.toNat l) (fp32At s f.b.toNat l) (draw s.me.seed s.me.srcnt l)

theorem laneDecision_decides (s : State) (f : Fields) (l : Nat) :
    Decides (laneDecision s f l) (fp32At s f.a.toNat l) (fp32At s f.b.toNat l) (draw s.me.seed s.me.srcnt l) :=
  acceptLane_decides (fp32At_held ..) (fp32At_held ..) _

/-- The mask that `v.accept` writes. -/
def acceptMask (s : State) (f : Fields) : Word :=
  BitVec.ofNat 64 (packMask ((List.range 64).map fun l => (laneDecision s f l).1))

/-- The flags that `v.accept` raises. -/
def acceptFlags (s : State) (f : Fields) : Flags := orFlags ((List.range 64).map fun l => (laneDecision s f l).2)

theorem exec_vAccept_of_ready (hr : Ready (.vAccept f) s) (hp : PortsReady s [f.a.toNat, f.b.toNat] none) :
    exec (.vAccept f) s = .next (s.retire
      { raise (writeK (popPorts s.me [f.a.toNat, f.b.toNat]) f.d.toNat (acceptMask s f)) (acceptFlags s f) with
        srcnt := s.me.srcnt + 1 } f) := by
  refine ((exec_vAccept f s).trans (vecIssue_of_ready _ hr hp)).trans ?_
  simp only [raise_srcnt, writeK_srcnt, popPorts_srcnt, List.map_map]
  rfl

theorem acceptMask_getLsbD (s : State) (f : Fields) {l : Nat} (hl : l < 64) : (acceptMask s f).getLsbD l = true ↔
    Accepted (fp32At s f.a.toNat l) (fp32At s f.b.toNat l) (draw s.me.seed s.me.srcnt l) := by
  rw [acceptMask, ofNat_packMask_getLsbD _ hl]
  exact (laneDecision_decides s f l).1

/-- R132: NV is raised where a lane is refused, and nothing else is raised. -/
theorem acceptFlags_cases (s : State) (f : Fields) :
    (acceptFlags s f = 0 ∨ acceptFlags s f = flagNV) ∧
    (acceptFlags s f = flagNV ↔ ∃ l, l < 64 ∧ Refused (fp32At s f.a.toNat l) (fp32At s f.b.toNat l)) := by
  have nv_ne : flagNV ≠ 0 := by decide
  have nv_iff (l : Nat) : (laneDecision s f l).2 = flagNV ↔ Refused (fp32At s f.a.toNat l) (fp32At s f.b.toNat l) := by
    rcases (laneDecision_decides s f l).2 with ⟨flag, refused⟩ | ⟨flag, decided⟩
    · exact iff_of_true flag refused
    · exact iff_of_false (by rw [flag]; exact nv_ne.symm) decided
  have each : ∀ fl ∈ (List.range 64).map fun l => (laneDecision s f l).2, fl = 0 ∨ fl = flagNV := by
    intro fl h
    obtain ⟨l, _, rfl⟩ := List.mem_map.1 h
    exact (laneDecision_decides s f l).2.symm.imp And.left And.left
  have member : flagNV ∈ ((List.range 64).map fun l => (laneDecision s f l).2) ↔
      ∃ l, l < 64 ∧ Refused (fp32At s f.a.toNat l) (fp32At s f.b.toNat l) := by
    simp only [List.mem_map, List.mem_range, nv_iff]
  rw [acceptFlags, orFlags_of_nv each, ← member]
  split
  · next h => exact ⟨.inr rfl, iff_of_true rfl h⟩
  · next h => exact ⟨.inl rfl, iff_of_false nv_ne.symm h⟩

/-! One category of `v.draw`. -/

/-- The values of a source's lanes, as `v.draw` reads them. -/
def fp32Lanes (s : State) (n : Nat) : List FVal := (elems 32 (readVP s.me n)).map (readFloat (ffmt 10 false))

theorem fp32Lanes_eq (s : State) (n : Nat) : fp32Lanes s n = (List.range 64).map (fp32At s n) := by
  rw [fp32Lanes, elems, List.map_map]
  rfl

theorem fp32Lanes_getD (s : State) (n : Nat) {l : Nat} (hl : l < 64) : (fp32Lanes s n).getD l .nan = fp32At s n l := by
  simp [fp32Lanes_eq, hl]

theorem fp32Lanes_getLastD (s : State) (n : Nat) : (fp32Lanes s n).getLastD .nan = fp32At s n 63 := by
  rw [fp32Lanes_eq, List.range_succ, List.map_append, List.map_singleton, List.getLastD_concat]

/-- Whether `v.draw` meets a value that is no mass. -/
def drawBad (s : State) (f : Fields) : Bool :=
  (fp32Lanes s f.a.toNat).any (fun x => !x.mass) || (fp32Lanes s f.b.toNat).any (fun x => !x.mass)

theorem any_not_mass_iff (s : State) (n : Nat) :
    (fp32Lanes s n).any (fun x => !x.mass) = true ↔ ∃ l, l < 64 ∧ ¬ IsMass (fp32At s n l) := by
  have not_mass (l : Nat) : (fp32At s n l).mass = false ↔ ¬ IsMass (fp32At s n l) := by
    rw [← mass_iff (fp32At_held s n l), Bool.not_eq_true]
  simp [fp32Lanes_eq, not_mass]

theorem drawBad_iff (s : State) (f : Fields) : drawBad s f = true ↔
    ∃ l, l < 64 ∧ (¬ IsMass (fp32At s f.a.toNat l) ∨ ¬ IsMass (fp32At s f.b.toNat l)) := by
  rw [drawBad, Bool.or_eq_true, any_not_mass_iff, any_not_mass_iff]
  simp only [and_or_left, exists_or]

/-- The index that `v.draw` looks for. -/
def drawnIndex (s : State) (f : Fields) : Option Nat :=
  drawIndex (fp32Lanes s f.a.toNat) (fp32Lanes s f.b.toNat) (draw s.me.seed s.me.srcnt 0)

/-- The word that `v.draw` writes. -/
def drawnWord (s : State) (f : Fields) : Word :=
  if drawBad s f then BitVec.allOnes 64
  else match drawnIndex s f with
    | some i => BitVec.ofNat 64 i
    | none => BitVec.allOnes 64

theorem exec_vDraw_of_ready (hr : Ready (.vDraw f) s) (hp : PortsReady s [f.a.toNat, f.b.toNat] none) :
    exec (.vDraw f) s = .next (s.retire
      { raise (writeX (popPorts s.me [f.a.toNat, f.b.toNat]) f.d.toNat (drawnWord s f)) (if drawBad s f then flagNV else 0) with
        srcnt := s.me.srcnt + 1 } f) := by
  refine ((exec_vDraw f s).trans (vecIssue_of_ready _ hr hp)).trans ?_
  simp only [raise_srcnt, writeX_srcnt, popPorts_srcnt]
  rfl

/-- R133: category i is a candidate where its mass is not zero and its scan is not above u × T. -/
def Hit (s : State) (f : Fields) (i : Nat) : Prop :=
  realOf (fp32At s f.b.toNat i) ≠ 0 ∧ realOf (fp32At s f.a.toNat i) ≤
    (draw s.me.seed s.me.srcnt 0 : ℚ) / 2 ^ 24 * (realOf (fp32At s f.a.toNat 63) + realOf (fp32At s f.b.toNat 63))

/-- Every scan and every mass of the two sources is one. -/
def AllMasses (s : State) (f : Fields) : Prop :=
  ∀ l, l < 64 → IsMass (fp32At s f.a.toNat l) ∧ IsMass (fp32At s f.b.toNat l)

theorem drawBad_of_allMasses (h : AllMasses s f) : drawBad s f = false := by
  rw [← Bool.not_eq_true, drawBad_iff]
  rintro ⟨l, hl, not_mass⟩
  obtain ⟨scan, mass⟩ := h l hl
  exact not_mass.elim (· scan) (· mass)

/-- R133: the model's test of a category. -/
def hits (s : State) (f : Fields) (i : Nat) : Bool :=
  !((fp32Lanes s f.b.toNat).getD i .nan).isZero && cmpVal ((fp32Lanes s f.a.toNat).getD i .nan)
    (mulVal (drawVal (draw s.me.seed s.me.srcnt 0))
      (addVal 0 ((fp32Lanes s f.a.toNat).getLastD .nan) ((fp32Lanes s f.b.toNat).getLastD .nan))) != .gt

theorem drawnIndex_eq (s : State) (f : Fields) : drawnIndex s f = ((List.range 64).filter (hits s f)).getLast? := rfl

theorem hits_iff (h : AllMasses s f) {i : Nat} (hi : i < 64) : hits s f i = true ↔ Hit s f i := by
  obtain ⟨⟨scan, _⟩, ⟨mass, _⟩⟩ := h i hi
  obtain ⟨⟨scan63, _⟩, ⟨mass63, _⟩⟩ := h 63 (by decide)
  obtain ⟨total, totalValue⟩ := addVal_of_exact 0 scan63 mass63
  obtain ⟨target, targetValue⟩ := mulVal_of_exact (a := drawVal (draw s.me.seed s.me.srcnt 0)) rfl total
  have not_zero : (fp32At s f.b.toNat i).isZero = false ↔ realOf (fp32At s f.b.toNat i) ≠ 0 := by
    rw [← Bool.not_eq_true, isZero_iff, IsZero, and_iff_right mass]
  rw [hits, fp32Lanes_getD s _ hi, fp32Lanes_getD s _ hi, fp32Lanes_getLastD, fp32Lanes_getLastD, Bool.and_eq_true,
    Bool.not_eq_true', not_zero, bne_iff_ne, cmpVal_of_exact scan target, compare_le_iff_le, targetValue, totalValue, realOf_drawVal,
    Hit]

/-- R133: the largest category that is hit. -/
theorem drawnWord_of_last (h : AllMasses s f) {i : Nat} (hi : i < 64) (hit : Hit s f i)
    (last : ∀ k, i < k → k < 64 → ¬ Hit s f k) : drawnWord s f = BitVec.ofNat 64 i := by
  have index : drawnIndex s f = some i := by
    rw [drawnIndex_eq]
    refine getLast?_filter_range hi ((hits_iff h hi).2 hit) fun k hk hk' => ?_
    rw [← Bool.not_eq_true, hits_iff h hk']
    exact last k hk hk'
  simp [drawnWord, drawBad_of_allMasses h, index]

/-- R133: all ones where none is hit. -/
theorem drawnWord_of_none (h : AllMasses s f) (no_hit : ∀ i, i < 64 → ¬ Hit s f i) : drawnWord s f = BitVec.allOnes 64 := by
  have index : drawnIndex s f = none := by
    rw [drawnIndex_eq, List.filter_eq_nil_iff.2, List.getLast?_nil]
    intro i hi
    rw [List.mem_range] at hi
    rw [hits_iff h hi]
    exact no_hit i hi
  simp [drawnWord, drawBad_of_allMasses h, index]

/-- Settles O27: a lane decides by its classes of p and q, and the last candidate of a filtered range is the largest. -/
theorem sampling : Obligations.Sampling := by
  intro f s p q two r mass at_ above target scale
  refine ⟨fun hr hp => ?_, fun hr hp => ?_⟩
  · obtain ⟨flags, nv⟩ := acceptFlags_cases s f
    exact ⟨acceptMask s f, acceptFlags s f, exec_vAccept_of_ready hr hp, fun l hl => acceptMask_getLsbD s f hl, flags, nv⟩
  · refine ⟨drawnWord s f, if drawBad s f then flagNV else 0, exec_vDraw_of_ready hr hp, fun bad => ?_, fun h => ⟨?_, ?_, ?_⟩⟩
    · have : drawBad s f = true := (drawBad_iff s f).2 bad
      simp [drawnWord, this]
    · rw [drawBad_of_allMasses h]
      rfl
    · exact fun i hi hit last => drawnWord_of_last h hi hit last
    · exact drawnWord_of_none h

end Sys2Proof.Machine
end

section
/-! Proofs for file 09. Part 1: `trap` and `eret` (R208). -/

namespace Sys2Proof.Machine

open Sys2Proof.Claims

/-- Neither names a register to be held for. -/
theorem trap_ready (f : Fields) (s : State) : Ready (.trap f) s := rfl

theorem eret_ready (f : Fields) (s : State) : Ready (.eret f) s := rfl

/-- The handler of `trap`'s code stands 20 vectors of 64 bytes after TVB (R205). -/
theorem trapVector_twenty (r : Strand) (info : Nat) : trapVector r 20 info = r.tvb.truncate 32 + 1280 := rfl

/-- Settles O9: `trap` has issued when its trap is taken, so EPC is the next address; `eret` sets the PC and clears one bit. -/
theorem trapAndReturn : Obligations.TrapAndReturn := by
  intro f s
  refine ⟨fun idle => ?_, ?_⟩
  · have issued : (s.setMe { s.me with issuedAt := s.cycle + 1 }).me = { s.me with issuedAt := s.cycle + 1 } :=
      s.setMe_me (Nat.succ_ne_zero _)
    rw [exec_trap, execTrap, issue_of_ready _ (trap_ready f s), State.trapAt_idle _ _ _ _ (by rw [issued]; exact idle), issued,
      trapVector_twenty]
    rfl
  · rw [exec_eret, execEret, issue_of_ready _ (eret_ready f s)]
    rfl

end Sys2Proof.Machine
end

section
/-! Part 2: the bits of a level in HP and ESC (R226), and the expired level (R228). -/

namespace Sys2Proof.Machine

variable {r : Strand} {t : Word}

theorem bit4_getLsbD (d : Nat) {j : Nat} (hj : j < 4) : (bit4 d).getLsbD j = decide (d = j) := by
  rw [bit4, BitVec.getLsbD_ofNat, Nat.testBit_two_pow]
  simp [hj]

theorem below4_getLsbD (d : Nat) {j : Nat} (hj : j < 4) : (below4 d).getLsbD j = decide (j < d) := by
  rw [below4, BitVec.getLsbD_ofNat, Nat.testBit_two_pow_sub_one]
  simp [hj]

/-- Opening or closing a level clears its bit alone (R227, R230). -/
theorem clearBit4_getLsbD (b : BitVec 4) (d : Nat) {j : Nat} (hj : j < 4) :
    (b &&& ~~~ bit4 d).getLsbD j = (b.getLsbD j && j != d) := by
  rw [BitVec.getLsbD_and, BitVec.getLsbD_not, bit4_getLsbD d hj]
  simp [hj, bne, eq_comm, Bool.beq_eq_decide_eq]

/-- The entry to a handler keeps the bits of the levels below and clears those of the levels above (R229, R230). -/
theorem enterBit4_getLsbD (b : BitVec 4) (d : Nat) (up : Bool) {j : Nat} (hj : j < 4) :
    ((b &&& below4 d) ||| (if up then bit4 d else 0)).getLsbD j = (b.getLsbD j && decide (j < d) || up && decide (d = j)) := by
  cases up <;> simp [bit4_getLsbD d hj, below4_getLsbD d hj]

/-- R226: a deadline that has passed; one beyond 2^64 − 1 never passes. -/
theorem Span.expired_iff (p : Span) : p.expired t = true ↔
    p.openAt.toNat + p.maximum.toNat < 2 ^ 64 ∧ p.openAt.toNat + p.maximum.toNat ≤ t.toNat := by
  simp [Span.expired]

/-- R228: the level that the check finds is the lowest open one whose deadline has passed. -/
theorem expiredLevel_eq_some_iff {d : Nat} : expiredLevel r t = some d ↔
    d < r.depth ∧ (mapGet {} r.spans d).expired t = true ∧ ∀ k, k < d → ¬ (mapGet {} r.spans k).expired t = true := by
  rw [expiredLevel, List.find?_range_eq_some, List.mem_range]
  simp only [Bool.not_eq_true', Bool.not_eq_true]
  tauto

end Sys2Proof.Machine
end

section
/-! Part 3: `span.open` and `span.close` (R203, R204, R227, R233). -/

namespace Sys2Proof.Machine

open Sys2Proof.Claims

variable {f : Fields} {s : State}

/-- What an instruction that issues leaves differs in the strand at hand alone. -/
theorem onlyMe_retire (s : State) (r : Strand) (f : Fields) : OnlyMe s (s.retire r f) := by
  rw [OnlyMe, State.retire_me]
  rfl

/-- The strand whose level at SPANDEPTH is filled by `span.open`. -/
def Strand.opened (r : Strand) (p : Span) : Strand :=
  { r with spans := mapPut {} r.spans r.depth p, depth := r.depth + 1, hp := r.hp &&& ~~~ bit4 r.depth
           esc := r.esc &&& ~~~ bit4 r.depth }

/-- The level that `span.open` fills. -/
def openedSpan (f : Fields) (s : State) : Span :=
  ⟨s.dt, readX s.me f.a.toNat, readX s.me f.b.toNat, (s.me.pc + 4 * (immOf f).setWidth 32).setWidth 64, readX s.me f.c.toNat⟩

/-- The strand whose level `d` is closed by `span.close`. -/
def Strand.closed (r : Strand) (d : Nat) : Strand :=
  { r with depth := d, hp := r.hp &&& ~~~ bit4 d, esc := r.esc &&& ~~~ bit4 d }

/-- R233: level 0 is not opened while the tile is to be saved. -/
theorem exec_spanOpen_of_deferral (hr : Ready (.spanOpen f) s) (h : s.me.depth = 0)
    (hp : (s.tile s.myTile).preempt ≠ .running) : exec (.spanOpen f) s = .next s := by
  rw [exec_spanOpen, execSpanOpen, issue_of_ready _ hr]
  dsimp only
  split
  · contradiction
  · simp [h]

/-- Outside of R233 the checks of R203 decide. -/
theorem exec_spanOpen_of_admitted (hr : Ready (.spanOpen f) s) (h : 0 < s.me.depth ∨ (s.tile s.myTile).preempt = .running) :
    exec (.spanOpen f) s = .next (if s.me.depth = 4 then s.takeTrap 16 4 0
      else if (readX s.me f.b.toNat).toNat < (readX s.me f.a.toNat).toNat then s.takeTrap 6 0 (readX s.me f.a.toNat)
      else s.retire (s.me.opened (openedSpan f s)) f) := by
  rw [exec_spanOpen, execSpanOpen, issue_of_ready _ hr, openedSpan, ← branchTarget_eq]
  rcases h with h | h
  · simp [h.ne', Strand.opened]
  · simp [h, Strand.opened]

theorem exec_spanClose_of_none (hr : Ready (.spanClose f) s) (h : s.me.depth = 0) :
    exec (.spanClose f) s = .next (s.takeTrap 16 0 0) := by
  rw [exec_spanClose, execSpanClose, issue_of_ready _ hr, h]

/-- R204: the innermost level is closed at its minimum and not before. -/
theorem exec_spanClose_of_open {d : Nat} (hr : Ready (.spanClose f) s) (h : s.me.depth = d + 1) :
    exec (.spanClose f) s = .next
      (if s.dt.toNat < (mapGet {} s.me.spans d).openAt.toNat + (mapGet {} s.me.spans d).minimum.toNat then s
       else s.retire (s.me.closed d) f) := by
  rw [exec_spanClose, execSpanClose, issue_of_ready _ hr, h]
  rfl

theorem spanRules_holds : spanRules := by
  intro f s _ spans r lo hi
  refine ⟨fun hr => ⟨fun full => ?_, fun room short admitted => ?_, fun room long admitted => ?_, exec_spanOpen_of_deferral hr⟩,
    fun hr => ⟨exec_spanClose_of_none hr, fun d depth => ⟨fun early => ?_, fun hd due => ?_⟩⟩⟩
  · rw [exec_spanOpen_of_admitted hr (.inl (lt_of_lt_of_le (by decide) full.ge)), if_pos full]
  · rw [exec_spanOpen_of_admitted hr admitted, if_neg room.ne, if_pos short]
  · refine ⟨s.retire (r.opened (openedSpan f s)) f, ?_, onlyMe_retire .., ?_⟩
    · rw [exec_spanOpen_of_admitted hr admitted, if_neg room.ne, if_neg (not_lt.2 long)]
    · rw [State.retire_me]
      exact ⟨rfl, rfl, mapGet_mapPut_self spans .., fun d hd => mapGet_mapPut_ne _ _ hd,
        fun d hd => ⟨clearBit4_getLsbD _ _ hd, clearBit4_getLsbD _ _ hd⟩, rfl, rfl⟩
  · rw [exec_spanClose_of_open hr depth, if_pos early]
  · refine ⟨s.retire (r.closed d) f, ?_, onlyMe_retire .., ?_⟩
    · rw [exec_spanClose_of_open hr depth, if_neg (not_lt.2 due)]
    · rw [State.retire_me]
      exact ⟨rfl, rfl, rfl, by simp [Strand.closed, clearBit4_getLsbD _ _ hd], by simp [Strand.closed, clearBit4_getLsbD _ _ hd], rfl⟩

end Sys2Proof.Machine
end

section
/-! Part 4: the entry to the handler of a level, and the park of a strand whose outermost handler overran (R228 to R231, R234). -/

namespace Sys2Proof.Machine

open Sys2Proof.Claims

variable {s : State} {i : Instr} {d : Nat}

/-- A step enters the handler of level `k`: its address, EPC, CAUSE and the registers of the level; the levels above are discarded. -/
def EntersHandler (i : Instr) (s : State) (code k : Nat) (p : Span) (esc : Bool) : Prop :=
  ∃ u, exec i s = .next u ∧ OnlyMe s u ∧ u.me.pc = (mapGet {} s.me.spans k).handler.setWidth 32 ∧
    u.me.epc = s.me.pc.setWidth 64 ∧ u.me.cause = causeOf k code ∧ u.me.badaddr = 0 ∧
    u.me.depth = k + 1 ∧ mapGet {} u.me.spans k = p ∧ u.me.run = .running ∧ u.me.x = s.me.x ∧ u.me.status = s.me.status ∧
    u.me.hp.getLsbD k = true ∧ u.me.esc.getLsbD k = esc ∧ (∀ j, k < j → j < 4 → u.me.hp.getLsbD j = false) ∧
    (u.me.thr = true ↔ s.mhz < 600)

/-- R229, R230, R234: a span trap enters the handler of its level, whose address the level keeps. -/
theorem entersHandler_of_spanTrap {code k : Nat} {p : Span} {esc : Bool} (strands : mapWf {} s.strands = true)
    (spans : mapWf {} s.me.spans = true) (hk : k < 4) (hp : p.handler = (mapGet {} s.me.spans k).handler)
    (hi : exec i s = .next (s.spanTrap code k p esc)) : EntersHandler i s code k p esc := by
  have entered : (s.spanTrap code k p esc).me = _ := s.setMe_me_of_wf strands _
  refine ⟨_, hi, ?_, ?_⟩
  · rw [OnlyMe, entered]
    rfl
  · rw [entered]
    refine ⟨congrArg (·.setWidth 32) hp, rfl, rfl, rfl, rfl, mapGet_mapPut_self spans .., rfl, rfl, rfl, ?_, ?_, fun j above hj => ?_,
      decide_eq_true_iff⟩
    · exact (enterBit4_getLsbD s.me.hp k true hk).trans (by simp)
    · exact (enterBit4_getLsbD s.me.esc k esc hk).trans (by simp)
    · exact (enterBit4_getLsbD s.me.hp k true hj).trans (by simp [above.not_gt, above.ne])

/-- R229: the body of a level overran. -/
theorem exec_spanOverrun_of_body (found : expiredLevel s.me s.dt = some d) (body : s.me.hp.getLsbD d = false) :
    exec .spanOverrun s = .next (s.spanTrap 11 d ((mapGet {} s.me.spans d).handling s.dt) false) := by
  rw [exec_spanOverrun, execSpanOverrun, found]
  simp [body]

/-- R230: the handler of a level above 0 overran: the level below is entered, with its own deadline. -/
theorem exec_spanEscalation_of_handler (found : expiredLevel s.me s.dt = some (d + 1)) (handler : s.me.hp.getLsbD (d + 1) = true) :
    exec .spanEscalation s = .next (s.spanTrap 11 d { mapGet {} s.me.spans d with minimum := 0 } true) := by
  rw [exec_spanEscalation, execSpanEscalation, found]
  simp [handler]

/-- R234: a strand saved with a broken mark. -/
theorem exec_spanBroken_of_marked (broken : s.me.broken = true) :
    exec .spanBroken s = .next (s.spanTrap 12 0 ((mapGet {} s.me.spans 0).handling s.dt) false) := by
  rw [exec_spanBroken, execSpanBroken, if_pos broken]

theorem State.park_cur_of_idle {n info : Nat} (h : (s.strand n).task = none) : (s.park n info).cur = s.cur := by
  obtain ⟨m, b, v, e⟩ := State.park_of_idle info h
  rw [e]
  rfl

/-- R206, R278: the launch that holds the parked strand's tile ends FAULT. -/
theorem State.park_launchOf_faulted {n info : Nat} (h : (s.strand n).task = none) :
    ((s.park n info).launchOf (n / 8)).faulted = true := by
  obtain ⟨m, b, v, e⟩ := State.park_of_idle info h
  rw [e]
  refine congrArg Launch.faulted (State.setLaunch_launch_self _ ?_)
  intro same
  cases congrArg Launch.faulted same

/-- A strand that runs no task, after a change of its registers and a park. -/
theorem State.setMe_park_of_idle {r : Strand} {info : Nat} (strands : mapWf {} s.strands = true) (idle : r.task = none) :
    ((s.setMe r).park s.cur info).me =
      { r with run := .parked, cause := causeOf info 19, fence := none, hyIssue := none, walk := none } ∧
    (((s.setMe r).park s.cur info).launchOf s.myTile).faulted = true := by
  have held : (s.setMe r).strand s.cur = r := s.setMe_me_of_wf strands r
  have task : ((s.setMe r).strand s.cur).task = none := (congrArg Strand.task held).trans idle
  refine ⟨?_, State.park_launchOf_faulted task⟩
  rw [State.me, State.park_cur_of_idle task]
  exact (State.park_strand_of_idle task).trans (by rw [held])

/-- R231: the handler of level 0 overran: EPC receives the PC, and the strand parks. -/
theorem exec_spanHandlerPark_of_handler (found : expiredLevel s.me s.dt = some 0) (handler : s.me.hp.getLsbD 0 = true) :
    exec .spanHandlerPark s = .next ((s.setMe { s.me with epc := s.me.pc.zeroExtend 64 }).park s.cur 11) := by
  rw [exec_spanHandlerPark, execSpanHandlerPark, found]
  simp [handler]

theorem spanEventRules_holds : spanEventRules := by
  intro s d ⟨strands, _⟩ spans hd hd4 r level late enters handling
  refine ⟨fun isLate first => ?_, fun broken => ?_⟩
  · have found : expiredLevel s.me s.dt = some d := expiredLevel_eq_some_iff.2
      ⟨hd, (Span.expired_iff _).2 isLate, fun k hk e => first k hk ((Span.expired_iff _).1 e)⟩
    refine ⟨fun body => ?_, fun k dk handler => ?_, fun d0 handler idle => ?_⟩
    · exact entersHandler_of_spanTrap strands spans (by omega) rfl (exec_spanOverrun_of_body found body)
    · subst dk
      exact entersHandler_of_spanTrap strands spans (by omega) rfl (exec_spanEscalation_of_handler found handler)
    · subst d0
      obtain ⟨me, faulted⟩ := State.setMe_park_of_idle (r := { s.me with epc := s.me.pc.zeroExtend 64 }) (info := 11) strands idle
      refine ⟨_, exec_spanHandlerPark_of_handler found handler, ?_⟩
      rw [me]
      exact ⟨rfl, rfl, rfl, rfl, rfl, faulted⟩
  · exact entersHandler_of_spanTrap strands spans (by omega) rfl (exec_spanBroken_of_marked broken)

/-- Settles O45: the instructions have one equation per case of their checks, and the events act on the one expired level. -/
theorem spans : Obligations.Spans := ⟨spanRules_holds, spanEventRules_holds⟩

end Sys2Proof.Machine
end
